-- ==== Sys2Proof/Word.lean ====
section
/-! DEFINITION. The two word types of the HA-316: a byte of a frame, and the 32-bit word of mill time,
journal sequences, badge codes and group sets (section 0.5.1, Table 10-10). -/

namespace Sys2Proof

/-- One byte of a frame. -/
abbrev Byte := BitVec 8

/-- A 32-bit value: mill time, a journal sequence, a badge code, a group set (Table 10-10). -/
abbrev Word := BitVec 32

end Sys2Proof
end

