-- ==== Sys2Proof/Syntax.lean ====
section
/-! DEFINITION. The commands of the HA-316: one constructor of `Instr` for each row of the opcode table, with the
fields that the frame or event carries (Table 10-8), as numbers of the widths that `WellFormed` states. -/

namespace Sys2Proof

/-- A console position, P0 (the shift supervisor desk) to P6 (Table 0-4). -/
inductive Pos
  | p0 | p1 | p2 | p3 | p4 | p5 | p6
deriving DecidableEq, Repr

/-- The number of a position, 0 to 6. -/
def Pos.num : Pos → Nat
  | .p0 => 0 | .p1 => 1 | .p2 => 2 | .p3 => 3 | .p4 => 4 | .p5 => 5 | .p6 => 6

/-- The position of a number; none outside P0 to P6. -/
def Pos.ofNum? : Nat → Option Pos
  | 0 => some .p0 | 1 => some .p1 | 2 => some .p2 | 3 => some .p3 | 4 => some .p4 | 5 => some .p5 | 6 => some .p6
  | _ => none

/-- The seven positions in position order. -/
def Pos.all : List Pos := [.p0, .p1, .p2, .p3, .p4, .p5, .p6]

/-- A link: the console link of a position, or the plant link (section 10, opening). -/
inductive Link
  | console (p : Pos)
  | plant
deriving DecidableEq, Repr

/-- The number of a link: 0 to 6 for the console links of P0 to P6, 7 for the plant link (Table 9-2). -/
def Link.num : Link → Nat
  | .console p => p.num
  | .plant => 7

/-- The eight links in number order. -/
def Link.all : List Link := Pos.all.map .console ++ [.plant]

/-- What a good request frame carries besides the fields of its kind (Table 10-3, R176). -/
structure Header where
  /-- the link that carried the frame -/
  link : Link
  /-- TAG, echoed in the reply -/
  tag : Byte
  /-- LEN, the length of the body -/
  len : Nat
  /-- the acting operator, the body's first byte -/
  op : Nat
deriving DecidableEq, Repr

/-- A frame as Table 10-3 lays it out, less SYNC, LEN and CHECK, which the rest of it gives. -/
structure Frame where
  kind : Byte
  tag : Byte
  last : Bool
  reply : Bool
  limited : Bool
  gap : Bool
  body : List Byte
deriving DecidableEq, Repr

/-- The fields of DEFINE_ALARM in the order of Table 10-8. -/
structure AlarmFields where
  index : Nat
  area : Nat
  priority : Nat
  cls : Nat
  ackLevel : Nat
  group : Nat
  shelvable : Nat
  maxShelve : Nat
  reminder : Nat
  escalation : Nat
  inService : Nat
deriving DecidableEq, Repr

/-- The fields of DEFINE_POSITION in the order of Table 10-8. -/
structure PositionFields where
  position : Nat
  staffing : Nat
  offer : Nat
  review : Nat
  relief : Nat
  hold : Nat
  k : Nat
  e : Nat
  x : Nat
  h : Nat
deriving DecidableEq, Repr

/-- The request kinds of Table 10-8. -/
inductive Kind
  | defineAlarm | defineOperator | defineGrant | definePosition | groupMask | timeSet | status | operatorRead
  | relayReset | commission | alarmEvent | outOfService | returnToService | revokeGrant | alarmState | resyncEnd
  | restart | alarmRead | listRead | loadQuery | journalRead | positionRead | bypassRead | shelfRead | itemRead
  | ack | ackList | shelve | unshelve | latchReset | silence | bypassDeclare | bypassEnd | noteAdd | signOn | signOff
  | handoverOffer | handoverTake | itemConfirm | handoverAccept | handoverWithdraw | handoverCancel | reliefTake
  | reliefReturn | reliefClear | areaTransfer | grantTemporary | grantEnd | operatorUnlock
deriving DecidableEq, Repr

/-- The commands and events of the opcode table, in its order. A request carries the header of its good frame.
Where two rows share one KIND and differ in a coded field, the row whose code is 0 carries no code, and the other
carries the coded byte as received, so that a byte without a code reaches its refusal (R176; log 5). -/
inductive Instr
  /-- R178: power is applied. -/
  | coldStart
  /-- R178: one second passes. -/
  | oneSecondStep
  /-- R163: bytes received on a port end a frame that is discarded. -/
  | frameDiscarded (l : Link) (bytes : List Byte)
  /-- R164: a good frame whose KIND names no request kind and is not FLOW. -/
  | unknownKindFrame (l : Link) (kind tag : Byte)
  /-- R168: a link has finished sending a frame. -/
  | frameSent (l : Link)
  /-- R171: a FLOW record whose body is empty or opens with a byte other than GO's 0. -/
  | flowHold (l : Link) (value : Option Byte)
  /-- R171: a FLOW record with the value GO. -/
  | flowGo (l : Link)
  | defineAlarm (h : Header) (f : AlarmFields)
  | defineOperator (h : Header) (id present : Nat) (badge : Word) (level : Nat)
  | defineGrant (h : Header) (id kind scope binding : Nat)
  | definePosition (h : Header) (f : PositionFields)
  /-- R18: GROUP_MASK with an action byte other than UNMASK's 0. -/
  | groupMaskMask (h : Header) (action : Nat) (groups : Word)
  | groupMaskUnmask (h : Header) (groups : Word)
  | timeSet (h : Header) (time : Word)
  | status (h : Header)
  | operatorRead (h : Header) (id : Nat)
  | relayReset (h : Header)
  | commission (h : Header) (hold : Nat) (rates : List Nat)
  /-- R10: ALARM_EVENT with an event byte other than CLEAR's 0. -/
  | alarmEventRaise (h : Header) (index event : Nat)
  | alarmEventClear (h : Header) (index : Nat)
  | outOfService (h : Header) (index : Nat)
  | returnToService (h : Header) (index : Nat)
  | revokeGrant (h : Header) (slot : Nat)
  /-- R180: ALARM_STATE with a state byte other than INACTIVE's 0. -/
  | alarmStateActive (h : Header) (index state : Nat)
  | alarmStateInactive (h : Header) (index : Nat)
  | resyncEnd (h : Header)
  | restart (h : Header)
  | alarmRead (h : Header) (index : Nat)
  | listRead (h : Header) (selector position start count : Nat)
  | loadQuery (h : Header) (selector : Nat)
  | journalRead (h : Header) (start : Word) (count : Nat)
  | positionRead (h : Header) (position : Nat)
  | bypassRead (h : Header)
  | shelfRead (h : Header) (position : Nat)
  | itemRead (h : Header) (position start count : Nat)
  | ack (h : Header) (index : Nat)
  | ackList (h : Header) (count : Nat) (indices : List Nat)
  | shelve (h : Header) (index duration : Nat)
  | unshelve (h : Header) (index : Nat)
  | latchReset (h : Header) (index : Nat)
  | silence (h : Header)
  | bypassDeclare (h : Header) (area interlock duration : Nat)
  | bypassEnd (h : Header) (area interlock : Nat)
  | noteAdd (h : Header) (code length : Nat) (text : List Byte)
  | signOn (h : Header) (badge : Word)
  | signOff (h : Header)
  | handoverOffer (h : Header) (incoming : Nat)
  | handoverTake (h : Header) (badge : Word)
  | itemConfirm (h : Header) (count : Nat) (numbers : List Nat)
  | handoverAccept (h : Header)
  | handoverWithdraw (h : Header)
  | handoverCancel (h : Header) (position : Nat)
  | reliefTake (h : Header) (badge : Word)
  | reliefReturn (h : Header) (badge : Word)
  | reliefClear (h : Header) (position : Nat)
  | areaTransfer (h : Header) (area target : Nat)
  | grantTemporary (h : Header) (target kind scope : Nat)
  | grantEnd (h : Header) (slot : Nat)
  | operatorUnlock (h : Header) (id : Nat)
  /-- R55: the decay timer of a position expires. -/
  | decayExpiry (p : Pos)
  /-- R39: the reminder of an alarm expires. -/
  | reminderExpiry (index : Nat)
  /-- R115: the expiry timer of an alarm's shelf entry expires. -/
  | shelfExpiry (index : Nat)
  /-- R101: the due timer of a bypass slot expires. -/
  | dueExpiry (slot : Nat)
  /-- R147: the limit timer of a relief frame expires. -/
  | reliefLimitExpiry (p : Pos) (frame : Nat)
  /-- R125: the handover timer of an OFFERED position expires. -/
  | offerTimeout (p : Pos)
  /-- R143: the handover timer of a REVIEW position expires. -/
  | reviewTimeout (p : Pos)
  /-- R172: the hold timer of a link expires. -/
  | holdTimerExpiry (l : Link)
deriving DecidableEq, Repr

end Sys2Proof
end

