-- ==== Sys2Proof/Decode.lean ====
section
/-! DEFINITION. Byte order, the frame and its check (R163), the KIND codes and fixed lengths of the requests
(Table 10-8), which command a good frame is, and the words of a command's frame. The opcode table gives no row any
bits, so `decodeTableWord` answers none. -/

namespace Sys2Proof

/-! ### Byte order (R176: high byte first) -/

/-- A one-byte field. -/
def be8 (n : Nat) : List Byte := [BitVec.ofNat 8 n]

/-- A two-byte field, high byte first (R176). -/
def be16 (n : Nat) : List Byte := [BitVec.ofNat 8 (n / 256), BitVec.ofNat 8 n]

/-- A four-byte field, high byte first (R176). -/
def be32 (n : Nat) : List Byte :=
  [BitVec.ofNat 8 (n / 16777216), BitVec.ofNat 8 (n / 65536), BitVec.ofNat 8 (n / 256), BitVec.ofNat 8 n]

/-- A four-byte field that holds a 32-bit word. -/
def beWord (w : Word) : List Byte := be32 w.toNat

/-- The one-byte field of a body at an offset; 0 beyond the body, which R164's length check refuses. -/
def field8 (b : List Byte) (n : Nat) : Nat := (b.getD n 0).toNat

/-- The two-byte field of a body at an offset. -/
def field16 (b : List Byte) (n : Nat) : Nat := field8 b n * 256 + field8 b (n + 1)

/-- The four-byte field of a body at an offset. -/
def field32 (b : List Byte) (n : Nat) : Nat := field16 b n * 65536 + field16 b (n + 2)

/-- The four-byte field of a body at an offset, as a word. -/
def fieldWord (b : List Byte) (n : Nat) : Word := BitVec.ofNat 32 (field32 b n)

/-- `n` one-byte fields from the start of a list, as many as it holds. -/
def fields8 : Nat → List Byte → List Nat
  | n + 1, b :: bs => b.toNat :: fields8 n bs
  | _, _ => []

/-- `n` two-byte fields from the start of a list, as many as it holds. -/
def fields16 : Nat → List Byte → List Nat
  | n + 1, b :: c :: bs => (b.toNat * 256 + c.toNat) :: fields16 n bs
  | _, _ => []

/-! ### Frames and their check (R163) -/

/-- SYNC (Table 10-3). -/
def sync : Byte := 0xA5

/-- The longest body (R163, Table 10-3). -/
def maxBody : Nat := 240

/-- One shift of the check register (R163). -/
def crcShift (r : BitVec 16) : BitVec 16 :=
  if r.msb then (r <<< 1) ^^^ 0x1021#16 else r <<< 1

/-- The check register after one more byte (R163). -/
def crcByte (r : BitVec 16) (b : Byte) : BitVec 16 :=
  let x := r ^^^ (b.setWidth 16 <<< 8)
  crcShift (crcShift (crcShift (crcShift (crcShift (crcShift (crcShift (crcShift x)))))))

/-- The 16-bit check over a run of bytes (R163). -/
def crc (bs : List Byte) : BitVec 16 := bs.foldl crcByte 0xFFFF#16

/-- The FLAGS byte (Table 10-3): bit 0 LAST, bit 1 REPLY, bit 2 LIMITED, bit 3 GAP. -/
def flagsByte (f : Frame) : Byte :=
  BitVec.ofNat 8 (f.last.toNat + 2 * f.reply.toNat + 4 * f.limited.toNat + 8 * f.gap.toNat)

/-- The bytes the check of a frame runs over: LEN, KIND, TAG, FLAGS and the body (R163). -/
def checkedBytes (f : Frame) : List Byte :=
  be8 f.body.length ++ [f.kind, f.tag, flagsByte f] ++ f.body

/-- The bytes of a frame on the wire (Table 10-3). -/
def wireBytes (f : Frame) : List Byte :=
  [sync] ++ checkedBytes f ++ be16 (crc (checkedBytes f)).toNat

/-- What a port finds at the head of the bytes it holds (R163). -/
inductive Reception
  /-- no SYNC, or a frame whose bytes are not all there yet -/
  | waiting
  /-- a LEN above 240 -/
  | tooLong
  /-- a frame whose CHECK differs from the computed check -/
  | badCheck
  /-- a good frame, and the bytes after it -/
  | good (f : Frame) (rest : List Byte)
deriving DecidableEq, Repr

/-- The bytes from the first SYNC on (R163: the port waits for SYNC). -/
def seekSync (bs : List Byte) : List Byte := bs.dropWhile (· != sync)

/-- A frame of the four flags of a received FLAGS byte. -/
def frameOf (kind tag flags : Byte) (body : List Byte) : Frame :=
  { kind := kind, tag := tag, last := flags.getLsbD 0, reply := flags.getLsbD 1, limited := flags.getLsbD 2,
    gap := flags.getLsbD 3, body := body }

/-- R163: the frame at the head of the bytes a port holds, which open with SYNC. -/
def assemble : List Byte → Reception
  | _ :: len :: rest =>
    if len.toNat > maxBody then .tooLong
    else
      match rest with
      | kind :: tag :: flags :: more =>
        if more.length < len.toNat + 2 then .waiting
        else
          let body := more.take len.toNat
          let after := more.drop len.toNat
          if field16 after 0 = (crc (len :: kind :: tag :: flags :: body)).toNat then
            .good (frameOf kind tag flags body) (after.drop 2)
          else .badCheck
      | _ => .waiting
  | _ => .waiting

/-! ### Request kinds (Table 10-8) -/

/-- The request kinds with their KIND codes and the length of their fixed fields, the acting operator's byte
included (Table 10-8, R176). -/
def kindTable : List (Kind × Nat × Nat) :=
  [(.defineAlarm, 1, 15), (.defineOperator, 2, 8), (.defineGrant, 3, 5), (.definePosition, 4, 19), (.groupMask, 5, 6),
   (.timeSet, 6, 5), (.status, 7, 1), (.operatorRead, 8, 2), (.relayReset, 9, 1), (.commission, 10, 11),
   (.alarmEvent, 11, 4), (.outOfService, 12, 3), (.returnToService, 13, 3), (.revokeGrant, 14, 3), (.alarmState, 15, 4),
   (.resyncEnd, 16, 1), (.restart, 17, 1), (.alarmRead, 18, 3), (.listRead, 19, 6), (.loadQuery, 20, 2)] ++
  [(.journalRead, 21, 6), (.positionRead, 22, 2), (.bypassRead, 23, 1), (.shelfRead, 24, 2), (.itemRead, 25, 4),
   (.ack, 32, 3), (.ackList, 33, 2), (.shelve, 34, 5), (.unshelve, 35, 3), (.latchReset, 36, 3), (.silence, 37, 1),
   (.bypassDeclare, 38, 8), (.bypassEnd, 39, 4), (.noteAdd, 40, 3), (.signOn, 41, 5), (.signOff, 42, 1),
   (.handoverOffer, 43, 2), (.handoverTake, 44, 5), (.itemConfirm, 45, 2), (.handoverAccept, 46, 1)] ++
  [(.handoverWithdraw, 47, 1), (.handoverCancel, 48, 2), (.reliefTake, 49, 5), (.reliefReturn, 50, 5),
   (.reliefClear, 51, 2), (.areaTransfer, 52, 3), (.grantTemporary, 53, 4), (.grantEnd, 54, 3), (.operatorUnlock, 55, 2)]

/-- KIND of a request kind (Table 10-8). -/
def kindCode (k : Kind) : Nat := ((kindTable.find? (·.1 == k)).map (·.2.1)).getD 0

/-- The length of the fixed fields of a request kind (Table 10-8, R176). -/
def fixedLength (k : Kind) : Nat := ((kindTable.find? (·.1 == k)).map (·.2.2)).getD 0

/-- The request kind a KIND code names; none where it names no request kind (R164). -/
def kindOf? (code : Nat) : Option Kind := (kindTable.find? (·.2.1 == code)).map (·.1)

/-- KIND of a FLOW record (R176). -/
def flowCode : Nat := 96

/-! ### Which command a good frame is -/

/-- The command of a request frame of kind `k` with body `b` (Table 10-8). Fields beyond a body that is too short
read as 0; R164 refuses such a frame by its length before it looks at any field. -/
def decodeRequest (k : Kind) (h : Header) (b : List Byte) : Instr :=
  match k with
  | .defineAlarm => .defineAlarm h
      { index := field16 b 1, area := field8 b 3, priority := field8 b 4, cls := field8 b 5, ackLevel := field8 b 6,
        group := field8 b 7, shelvable := field8 b 8, maxShelve := field16 b 9, reminder := field16 b 11,
        escalation := field8 b 13, inService := field8 b 14 }
  | .defineOperator => .defineOperator h (field8 b 1) (field8 b 2) (fieldWord b 3) (field8 b 7)
  | .defineGrant => .defineGrant h (field8 b 1) (field8 b 2) (field8 b 3) (field8 b 4)
  | .definePosition => .definePosition h
      { position := field8 b 1, staffing := field8 b 2, offer := field16 b 3, review := field16 b 5,
        relief := field16 b 7, hold := field16 b 9, k := field16 b 11, e := field16 b 13, x := field16 b 15,
        h := field16 b 17 }
  | .groupMask =>
      if field8 b 1 = 0 then .groupMaskUnmask h (fieldWord b 2) else .groupMaskMask h (field8 b 1) (fieldWord b 2)
  | .timeSet => .timeSet h (fieldWord b 1)
  | .status => .status h
  | .operatorRead => .operatorRead h (field8 b 1)
  | .relayReset => .relayReset h
  | .commission => .commission h (field16 b 1) ((List.range 8).map fun n => field8 b (3 + n))
  | .alarmEvent =>
      if field8 b 3 = 0 then .alarmEventClear h (field16 b 1) else .alarmEventRaise h (field16 b 1) (field8 b 3)
  | .outOfService => .outOfService h (field16 b 1)
  | .returnToService => .returnToService h (field16 b 1)
  | .revokeGrant => .revokeGrant h (field16 b 1)
  | .alarmState =>
      if field8 b 3 = 0 then .alarmStateInactive h (field16 b 1) else .alarmStateActive h (field16 b 1) (field8 b 3)
  | .resyncEnd => .resyncEnd h
  | .restart => .restart h
  | .alarmRead => .alarmRead h (field16 b 1)
  | .listRead => .listRead h (field8 b 1) (field8 b 2) (field16 b 3) (field8 b 5)
  | .loadQuery => .loadQuery h (field8 b 1)
  | .journalRead => .journalRead h (fieldWord b 1) (field8 b 5)
  | .positionRead => .positionRead h (field8 b 1)
  | .bypassRead => .bypassRead h
  | .shelfRead => .shelfRead h (field8 b 1)
  | .itemRead => .itemRead h (field8 b 1) (field8 b 2) (field8 b 3)
  | .ack => .ack h (field16 b 1)
  | .ackList => .ackList h (field8 b 1) (fields16 (field8 b 1) (b.drop 2))
  | .shelve => .shelve h (field16 b 1) (field16 b 3)
  | .unshelve => .unshelve h (field16 b 1)
  | .latchReset => .latchReset h (field16 b 1)
  | .silence => .silence h
  | .bypassDeclare => .bypassDeclare h (field8 b 1) (field16 b 2) (field32 b 4)
  | .bypassEnd => .bypassEnd h (field8 b 1) (field16 b 2)
  | .noteAdd => .noteAdd h (field8 b 1) (field8 b 2) ((b.drop 3).take (field8 b 2))
  | .signOn => .signOn h (fieldWord b 1)
  | .signOff => .signOff h
  | .handoverOffer => .handoverOffer h (field8 b 1)
  | .handoverTake => .handoverTake h (fieldWord b 1)
  | .itemConfirm => .itemConfirm h (field8 b 1) (fields8 (field8 b 1) (b.drop 2))
  | .handoverAccept => .handoverAccept h
  | .handoverWithdraw => .handoverWithdraw h
  | .handoverCancel => .handoverCancel h (field8 b 1)
  | .reliefTake => .reliefTake h (fieldWord b 1)
  | .reliefReturn => .reliefReturn h (fieldWord b 1)
  | .reliefClear => .reliefClear h (field8 b 1)
  | .areaTransfer => .areaTransfer h (field8 b 1) (field8 b 2)
  | .grantTemporary => .grantTemporary h (field8 b 1) (field8 b 2) (field8 b 3)
  | .grantEnd => .grantEnd h (field16 b 1)
  | .operatorUnlock => .operatorUnlock h (field8 b 1)

/-- The command of a FLOW record (R171, R176: its body is its value). A body longer than one byte is read by its first byte,
and the bytes beyond it are ignored: R176 lets them be ignored in a request alone. DESIGN CHOICE, unsafe (log 32). -/
def decodeFlow (l : Link) (body : List Byte) : Instr :=
  if body.head? = some 0 then .flowGo l else .flowHold l body.head?

/-- The command that a good frame received on a link is (R164, R176). Total: a KIND that names no request kind and
is not FLOW is the command UNKNOWN_KIND_FRAME. The received FLAGS byte is not looked at. -/
def decodeFrame (l : Link) (f : Frame) : Instr :=
  match kindOf? f.kind.toNat with
  | some k => decodeRequest k { link := l, tag := f.tag, len := f.body.length, op := field8 f.body 0 } f.body
  | none => if f.kind.toNat = flowCode then decodeFlow l f.body else .unknownKindFrame l f.kind f.tag

/-! ### The words of a command -/

/-- The kind, the header and the fields after the acting operator of a request command (Table 10-8); none for an
event, a FLOW record and a frame of unknown kind. -/
def requestFields : Instr → Option (Kind × Header × List Byte)
  | .defineAlarm h f => some (.defineAlarm, h,
      be16 f.index ++ be8 f.area ++ be8 f.priority ++ be8 f.cls ++ be8 f.ackLevel ++ be8 f.group ++ be8 f.shelvable ++
        be16 f.maxShelve ++ be16 f.reminder ++ be8 f.escalation ++ be8 f.inService)
  | .defineOperator h id present badge level =>
      some (.defineOperator, h, be8 id ++ be8 present ++ beWord badge ++ be8 level)
  | .defineGrant h id kind scope binding => some (.defineGrant, h, be8 id ++ be8 kind ++ be8 scope ++ be8 binding)
  | .definePosition h f => some (.definePosition, h,
      be8 f.position ++ be8 f.staffing ++ be16 f.offer ++ be16 f.review ++ be16 f.relief ++ be16 f.hold ++ be16 f.k ++
        be16 f.e ++ be16 f.x ++ be16 f.h)
  | .groupMaskMask h action groups => some (.groupMask, h, be8 action ++ beWord groups)
  | .groupMaskUnmask h groups => some (.groupMask, h, be8 0 ++ beWord groups)
  | .timeSet h t => some (.timeSet, h, beWord t)
  | .status h => some (.status, h, [])
  | .operatorRead h id => some (.operatorRead, h, be8 id)
  | .relayReset h => some (.relayReset, h, [])
  | .commission h hold rates => some (.commission, h, be16 hold ++ rates.flatMap be8)
  | .alarmEventRaise h i event => some (.alarmEvent, h, be16 i ++ be8 event)
  | .alarmEventClear h i => some (.alarmEvent, h, be16 i ++ be8 0)
  | .outOfService h i => some (.outOfService, h, be16 i)
  | .returnToService h i => some (.returnToService, h, be16 i)
  | .revokeGrant h slot => some (.revokeGrant, h, be16 slot)
  | .alarmStateActive h i st => some (.alarmState, h, be16 i ++ be8 st)
  | .alarmStateInactive h i => some (.alarmState, h, be16 i ++ be8 0)
  | .resyncEnd h => some (.resyncEnd, h, [])
  | .restart h => some (.restart, h, [])
  | .alarmRead h i => some (.alarmRead, h, be16 i)
  | .listRead h selector position start count =>
      some (.listRead, h, be8 selector ++ be8 position ++ be16 start ++ be8 count)
  | .loadQuery h selector => some (.loadQuery, h, be8 selector)
  | .journalRead h start count => some (.journalRead, h, beWord start ++ be8 count)
  | .positionRead h p => some (.positionRead, h, be8 p)
  | .bypassRead h => some (.bypassRead, h, [])
  | .shelfRead h p => some (.shelfRead, h, be8 p)
  | .itemRead h p start count => some (.itemRead, h, be8 p ++ be8 start ++ be8 count)
  | .ack h i => some (.ack, h, be16 i)
  | .ackList h count indices => some (.ackList, h, be8 count ++ indices.flatMap be16)
  | .shelve h i d => some (.shelve, h, be16 i ++ be16 d)
  | .unshelve h i => some (.unshelve, h, be16 i)
  | .latchReset h i => some (.latchReset, h, be16 i)
  | .silence h => some (.silence, h, [])
  | .bypassDeclare h area interlock d => some (.bypassDeclare, h, be8 area ++ be16 interlock ++ be32 d)
  | .bypassEnd h area interlock => some (.bypassEnd, h, be8 area ++ be16 interlock)
  | .noteAdd h code len text => some (.noteAdd, h, be8 code ++ be8 len ++ text)
  | .signOn h badge => some (.signOn, h, beWord badge)
  | .signOff h => some (.signOff, h, [])
  | .handoverOffer h incoming => some (.handoverOffer, h, be8 incoming)
  | .handoverTake h badge => some (.handoverTake, h, beWord badge)
  | .itemConfirm h count numbers => some (.itemConfirm, h, be8 count ++ numbers.flatMap be8)
  | .handoverAccept h => some (.handoverAccept, h, [])
  | .handoverWithdraw h => some (.handoverWithdraw, h, [])
  | .handoverCancel h p => some (.handoverCancel, h, be8 p)
  | .reliefTake h badge => some (.reliefTake, h, beWord badge)
  | .reliefReturn h badge => some (.reliefReturn, h, beWord badge)
  | .reliefClear h p => some (.reliefClear, h, be8 p)
  | .areaTransfer h area target => some (.areaTransfer, h, be8 area ++ be8 target)
  | .grantTemporary h target kind scope => some (.grantTemporary, h, be8 target ++ be8 kind ++ be8 scope)
  | .grantEnd h slot => some (.grantEnd, h, be16 slot)
  | .operatorUnlock h id => some (.operatorUnlock, h, be8 id)
  | .coldStart | .oneSecondStep | .frameDiscarded _ _ | .unknownKindFrame _ _ _ | .frameSent _ | .flowHold _ _
  | .flowGo _ | .decayExpiry _ | .reminderExpiry _ | .shelfExpiry _ | .dueExpiry _ | .reliefLimitExpiry _ _
  | .offerTimeout _ | .reviewTimeout _ | .holdTimerExpiry _ => none

/-- A received frame; its FLAGS byte is ignored on receipt (Table 10-3) and written as 0. -/
def receivedFrame (kind tag : Byte) (body : List Byte) : Frame :=
  { kind := kind, tag := tag, last := false, reply := false, limited := false, gap := false, body := body }

/-- The link and the frame by which a command arrives (Table 10-8, R176): the words of a request or of a FLOW
record; none for an event inside the part and for a frame of unknown kind, whose body no rule reads. -/
def encodeFrame : Instr → Option (Link × Frame)
  | .flowHold l v => some (l, receivedFrame (BitVec.ofNat 8 flowCode) 0 v.toList)
  | .flowGo l => some (l, receivedFrame (BitVec.ofNat 8 flowCode) 0 [0])
  | i => (requestFields i).map fun (k, h, fields) =>
      (h.link, receivedFrame (BitVec.ofNat 8 (kindCode k)) h.tag (be8 h.op ++ fields))

/-- The command that a word spells by the opcode table's bits. The table gives no row any bits (its rows have no
"fixed" and no "fields"), so no word spells a command. -/
def decodeTableWord (_nbits _w : Nat) : Option Instr := none

end Sys2Proof
end

