-- ==== Sys2Proof/Config.lean ====
section
/-! DEFINITION. The capacities the manual fixes, and the one value it leaves open. -/

namespace Sys2Proof.Config

/-- R25: entries of an annunciation list. -/
abbrev annCapacity : Nat := 128
/-- R25: entries of a deferred list. -/
abbrev deferredCapacity : Nat := 256
/-- R108: entries of a shelf list. -/
abbrev shelfCapacity : Nat := 32
/-- R40: entries of the escalation list. -/
abbrev escalationCapacity : Nat := 64
/-- R69: slots of the grant table. -/
abbrev grantSlots : Nat := 256
/-- R99: slots of the bypass register. -/
abbrev bypassSlots : Nat := 16
/-- R104: notes of a position. -/
abbrev noteCapacity : Nat := 8
/-- R129: items of an item list. -/
abbrev itemCapacity : Nat := 96
/-- R146: frames of a relief stack. -/
abbrev reliefCapacity : Nat := 2
/-- R154: entries the journal retains. -/
abbrev journalCapacity : Nat := 4096
/-- R169: notices of a link's queue. -/
abbrev queueCapacity : Nat := 32
/-- R1: alarm indices run from 0 to 2047. -/
abbrev maxAlarmIndex : Nat := 2047
/-- R54: the largest load. -/
abbrev maxLoad : Nat := 65535

/-- DESIGN CHOICE (log 7). The 16-bit count of an ARRIVAL item after a placement that finds it at 65535:
R132 says that the count rises by 1 and no rule gives the result. Nothing is known of this value; it is applied
to the model's counter `State.free`, so that two such overflows need not agree. Safe. -/
opaque countOverflow : Nat → BitVec 16

end Sys2Proof.Config
end

