-- ==== Sys2Proof/Machine/State.lean ====
section
/-! DEFINITION. The state of the HA-316 as plain data: the state of its eight blocks (Table 0-1) and, at the end,
the model's own queue of waiting commands and its counter of free values. -/

namespace Sys2Proof.Machine

/-! ### Containers -/

/-- One value for each position P0 to P6. -/
structure PerPos (α : Type) where
  p0 : α
  p1 : α
  p2 : α
  p3 : α
  p4 : α
  p5 : α
  p6 : α
deriving DecidableEq, Repr

/-- The value at a position. -/
def PerPos.get {α : Type} (v : PerPos α) : Pos → α
  | .p0 => v.p0 | .p1 => v.p1 | .p2 => v.p2 | .p3 => v.p3 | .p4 => v.p4 | .p5 => v.p5 | .p6 => v.p6

/-- The values with the one at a position replaced. -/
def PerPos.set {α : Type} (v : PerPos α) (p : Pos) (x : α) : PerPos α :=
  match p with
  | .p0 => { v with p0 := x } | .p1 => { v with p1 := x } | .p2 => { v with p2 := x } | .p3 => { v with p3 := x }
  | .p4 => { v with p4 := x } | .p5 => { v with p5 := x } | .p6 => { v with p6 := x }

/-- A function applied at every position. -/
def PerPos.map {α β : Type} (f : Pos → α → β) (v : PerPos α) : PerPos β :=
  ⟨f .p0 v.p0, f .p1 v.p1, f .p2 v.p2, f .p3 v.p3, f .p4 v.p4, f .p5 v.p5, f .p6 v.p6⟩

/-- One value at every position. -/
def PerPos.all {α : Type} (x : α) : PerPos α := ⟨x, x, x, x, x, x, x⟩

/-- One value for each link. -/
structure PerLink (α : Type) where
  consoles : PerPos α
  plant : α
deriving DecidableEq, Repr

/-- The value at a link. -/
def PerLink.get {α : Type} (v : PerLink α) : Link → α
  | .console p => v.consoles.get p
  | .plant => v.plant

/-- The values with the one at a link replaced. -/
def PerLink.set {α : Type} (v : PerLink α) (l : Link) (x : α) : PerLink α :=
  match l with
  | .console p => { v with consoles := v.consoles.set p x }
  | .plant => { v with plant := x }

/-- A function applied at every link. -/
def PerLink.map {α β : Type} (f : Link → α → β) (v : PerLink α) : PerLink β :=
  ⟨v.consoles.map fun p => f (.console p), f .plant v.plant⟩

/-- Numbered records in one canonical form: the numbers strictly rise, and a number without a record is not listed. -/
abbrev Table (α : Type) := List (Nat × α)

/-- The record of a number. -/
def Table.get? {α : Type} : Table α → Nat → Option α
  | [], _ => none
  | (j, x) :: t, i => if j = i then some x else Table.get? t i

/-- The table with the record of a number written. -/
def Table.insert {α : Type} : Table α → Nat → α → Table α
  | [], i, x => [(i, x)]
  | (j, y) :: t, i, x =>
    if i < j then (i, x) :: (j, y) :: t else if i = j then (i, x) :: t else (j, y) :: Table.insert t i x

/-- The table without the record of a number. -/
def Table.erase {α : Type} (t : Table α) (i : Nat) : Table α := t.filter fun e => e.1 != i

/-- The canonical form: the numbers strictly rise. -/
def Table.wf {α : Type} (t : Table α) : Bool := decide ((t.map Prod.fst).Pairwise (· < ·))

/-! ### LIU: notices and links -/

/-- R5, Table 1-3: the lifecycle states of an alarm. -/
inductive Lifecycle
  | normal | raised | held | returned | latched | outOfService
deriving DecidableEq, Repr

/-- R5: the recorded input of an alarm. -/
inductive Input
  | active | inactive | unknown
deriving DecidableEq, Repr

/-- Table 1-1: the classes of an alarm. -/
inductive AlarmClass
  | process | equipment | safety | system
deriving DecidableEq, Repr

/-- Section 2.1.1: the reasons carried by RETRACT and by ESCALATE LEFT. -/
inductive Reason
  | displaced | acknowledged | shelved | suppressed | moved | outOfService | normal
deriving DecidableEq, Repr

/-- R121: the changes a HANDOVER notice reports. -/
inductive HandoverChange
  | offered | taken | accepted | ended
deriving DecidableEq, Repr

/-- R122: the reasons that end a handover without acceptance. -/
inductive EndReason
  | withdrawn | timeout | cancelled
deriving DecidableEq, Repr

/-- Table 7-2: the kinds of an item. `unack n` is UNACK_Pn. -/
inductive ItemKind
  | unack (priority : Nat)
  | latched | flood | bypass | shelf | note | arrival
deriving DecidableEq, Repr

/-- R128: one item of an item list. -/
structure Item where
  number : Nat
  kind : ItemKind
  subject : Nat
  count : Nat
  confirmed : Bool
  resolved : Bool
  arrived : Bool
deriving DecidableEq, Repr

/-- R166, Table 10-9: the notices that wait in a queue, with the fields of their bodies. -/
inductive Notice
  | annunciate (index priority area : Nat) (lifecycle : Lifecycle) (time : Word) (list : Pos)
  | update (index : Nat) (lifecycle : Lifecycle) (silenced : Bool)
  | retract (index : Nat) (reason : Reason)
  | remind (index count : Nat)
  /-- `left` is the reason of a LEFT, and absent for ENTERED -/
  | escalate (index priority area : Nat) (owner : Pos) (left : Option Reason)
  | horn (p : Pos) (sounding : Bool)
  | load (p : Pos) (load : Nat) (flood limit : Bool)
  | item (it : Item)
  | handover (p : Pos) (change : HandoverChange) (holder incoming : Option Nat) (items : Nat) (reason : Option EndReason)
  | bypassDue (slot area interlock operator : Nat) (declared : Word) (duration : Nat)
  | reliefOverdue (p : Pos) (frame operator : Nat) (start : Word) (holder : Option Nat)
  /-- the FAULT notice of the link that went DOWN (R174) -/
  | fault (source : Link)
deriving DecidableEq, Repr

/-- A notice waiting in a queue. `since` marks a notice that joined after the start of the SNAPSHOT in progress
(R170: those list notices are discarded if it is abandoned). -/
structure Queued where
  notice : Notice
  since : Bool
deriving DecidableEq, Repr

/-- Table 10-1: the flow of a link. -/
inductive Flow
  | go | hold
deriving DecidableEq, Repr

/-- R162, Table 10-1: the state of one link and its port. -/
structure LinkState where
  flow : Flow
  /-- the condition: UP (true) or DOWN -/
  up : Bool
  /-- one further notice frame may be sent while in HOLD -/
  allowance : Bool
  queue : List Queued
  snapshotDue : Bool
  /-- the remaining time of the hold timer, absent while it is stopped -/
  holdTimer : Option Nat
  /-- R165: reply frames that wait for the link -/
  replies : List Frame
  /-- R170: the frames still to be sent of a SNAPSHOT in progress -/
  snapshot : List Frame
  /-- R168: the frame being sent -/
  sending : Option Frame
  /-- the rate code at which the port runs (R179) -/
  rate : Nat
  /-- the rate code that COMMISSION stored (R179) -/
  storedRate : Nat
  /-- R163: the bytes the port holds, from a SYNC on -/
  received : List Byte
deriving DecidableEq, Repr

/-- R177: the device run state. -/
inductive RunState
  | unconfigured | resync | running
deriving DecidableEq, Repr

/-- R178, R182: the last start kind. -/
inductive StartKind
  | cold | warm
deriving DecidableEq, Repr

/-! ### ATU -/

/-- R1, Table 1-1: an alarm definition (its index is the table's). -/
structure AlarmDef where
  area : Nat
  priority : Nat
  cls : AlarmClass
  ackLevel : Nat
  group : Nat
  shelvable : Bool
  maxShelve : Nat
  reminder : Nat
  escalation : Nat
  inService : Bool
deriving DecidableEq, Repr

/-- R5, Table 1-2: an alarm's dynamic record. -/
structure AlarmDyn where
  input : Input
  lifecycle : Lifecycle
  acknowledger : Option Nat
  shelved : Bool
  escalated : Bool
  overflow : Bool
  annTime : Option Word
  reminders : Nat
deriving DecidableEq, Repr

/-- An alarm point: its definition and its dynamic record. -/
structure Alarm where
  defn : AlarmDef
  dyn : AlarmDyn
deriving DecidableEq, Repr

/-! ### PLU -/

/-- Table 2-1: an entry of an annunciation list. `reminder` is the remaining time, absent while none runs. -/
structure AnnEntry where
  alarm : Nat
  time : Word
  silenced : Bool
  reminder : Option Nat
deriving DecidableEq, Repr

/-- Table 2-1, R40: an entry of a deferred list or of the escalation list. -/
structure ListEntry where
  alarm : Nat
  time : Word
deriving DecidableEq, Repr

/-- R108: an entry of a shelf list. -/
structure ShelfEntry where
  alarm : Nat
  operator : Nat
  shelveTime : Word
  remaining : Nat
  effective : Nat
deriving DecidableEq, Repr

/-- The PLU's state of one position: its three lists and its horn line (true: SOUNDING). -/
structure PosLists where
  ann : List AnnEntry
  deferred : List ListEntry
  shelf : List ShelfEntry
  horn : Bool
deriving DecidableEq, Repr

/-! ### LDU -/

/-- R48, Table 3-1: the load state of one position. -/
structure PosLoad where
  load : Nat
  flood : Bool
  limit : Bool
  /-- the remaining time of the decay timer (period 1 s) -/
  decay : Nat
  k : Nat
  e : Nat
  x : Nat
  h : Nat
deriving DecidableEq, Repr

/-! ### ACU -/

/-- R66: the role of an engagement. -/
inductive Role
  | holder | stacked | incoming
deriving DecidableEq, Repr

/-- R64, Table 4-1: the record of a present operator. An operator whose record is not present is not listed. -/
structure Operator where
  badge : Word
  level : Nat
  locked : Bool
  failures : Nat
  engagement : Option (Pos × Role)
deriving DecidableEq, Repr

/-- Section 4.2.1: the five grant kinds. -/
inductive GrantKind
  | operate | shelve | latchReset | bypass | supervise
deriving DecidableEq, Repr

/-- R69, Table 4-2: a grant descriptor. Scope none is ALL; binding none is CARRIED. -/
structure Grant where
  operator : Nat
  kind : GrantKind
  scope : Option Nat
  binding : Option Pos
  temporary : Bool
deriving DecidableEq, Repr

/-! ### PCU -/

/-- R90, Table 5-2: the state of a position. -/
inductive PosState
  | vacant | staffed | offered | review
deriving DecidableEq, Repr

/-- R104: a note. -/
structure Note where
  code : Nat
  text : List Byte
deriving DecidableEq, Repr

/-- R146: a frame of a relief stack. -/
structure ReliefFrame where
  operator : Nat
  start : Word
  remaining : Nat
  overdue : Bool
deriving DecidableEq, Repr

/-- R89, Table 5-1: the context of a position. `timer` is the offer or review timer's remaining time. -/
structure PosContext where
  state : PosState
  holder : Option Nat
  incoming : Option Nat
  staffing : Nat
  offerTimeout : Nat
  reviewTimeout : Nat
  reliefLimit : Nat
  holdTime : Nat
  notes : List Note
  /-- frame 0, the bottom of the stack, first -/
  relief : List ReliefFrame
  items : List Item
  timer : Option Nat
deriving DecidableEq, Repr

/-- R99, Table 5-3: an entry of the bypass register. -/
structure Bypass where
  area : Nat
  interlock : Nat
  operator : Nat
  declared : Word
  duration : Nat
  due : Nat
  overdue : Bool
deriving DecidableEq, Repr

/-! ### JNU -/

/-- Tables 9-3 and 9-4: the kinds of a journal entry. -/
inductive EntryKind
  | alarmRaised | alarmCleared | acknowledged | latchReset | suppressionChanged | outOfService | returnedToService
  | escalated | shelved | unshelved | shelfExpired | floodEntered | floodLeft | signOn | signOff | handoverOffered
  | handoverTaken | handoverAccepted | handoverEnded | reliefTaken | reliefReturned | reliefOverdue | reliefCleared
  | areaTransferred | grantIssued | grantEnded | accessRefused | bypassDeclared | bypassDue | bypassEnded | noteAdded
  | linkDown | linkUp | relayEnergised | relayReset | restart | timeSet
deriving DecidableEq, Repr

/-- R154, Table 9-1: a journal entry. -/
structure Entry where
  sequence : Word
  time : Word
  kind : EntryKind
  position : Option Pos
  operator : Option Nat
  index : Option Nat
  detail : Nat
deriving DecidableEq, Repr

/-! ### The machine -/

/-- The state of the HA-316. -/
structure State where
  /-- TBU: mill time -/
  millTime : Word
  /-- TBU: the time-set flag -/
  timeSet : Bool
  /-- LIU: the device run state (R177) -/
  runState : RunState
  /-- LIU: the start record, the last start kind (R178) -/
  startKind : StartKind
  /-- LIU: the start record, the warm-restart count (R178) -/
  restarts : Nat
  /-- LIU: the common alarm relay, true for ENERGISED (R162) -/
  relay : Bool
  /-- LIU: the hold time of the plant link (R162) -/
  plantHold : Nat
  /-- LIU: the links (R162) -/
  links : PerLink LinkState
  /-- ATU: the defined alarms (R1, R5) -/
  alarms : Table Alarm
  /-- ATU: the suppression mask, bit g for group g (R17) -/
  mask : Word
  /-- PLU: the lists of each position (R25, R108) and the horn lines (R43) -/
  lists : PerPos PosLists
  /-- PLU: the escalation list (R40) -/
  escalation : List ListEntry
  /-- LDU: the load state of each position (R48) -/
  loads : PerPos PosLoad
  /-- ACU: the present operator records (R64) -/
  operators : Table Operator
  /-- ACU: the grant table (R69) -/
  grants : Table Grant
  /-- PCU: the position contexts (R89) -/
  positions : PerPos PosContext
  /-- PCU: the area map, area 0 first (R95) -/
  areas : List Pos
  /-- PCU: the bypass register (R99) -/
  bypasses : Table Bypass
  /-- JNU: the retained entries, the oldest first (R154) -/
  journal : List Entry
  /-- JNU: the next sequence (R154) -/
  nextSeq : Word
  /-- the model's own: how many free values have been read (log 7) -/
  free : Nat
  /-- the model's own: the commands that wait, first in first out (log 4) -/
  pending : List Instr
deriving DecidableEq, Repr

/-- Why a step faults. The manual lets no command stop the part, so there is no reason: no meaning of this model
faults. -/
inductive Fault
deriving DecidableEq, Repr

/-- Why a step is refused by the model. -/
inductive Refusal
  /-- Raised by `exec` for a command that has no meaning yet; no arm does. Safe: the machine stops. -/
  | notModelled (mnemonic : String)
deriving DecidableEq, Repr

/-- Table 10-1: a link after cold start, at 9600 bit/s (R178). The waiting reply frames, the SNAPSHOT frames, the frame
being sent and the bytes received are none: DESIGN CHOICE (log 24). -/
def LinkState.cold : LinkState :=
  { flow := .go, up := true, allowance := false, queue := [], snapshotDue := false, holdTimer := none, replies := [],
    snapshot := [], sending := none, rate := 0, storedRate := 0, received := [] }

/-- R46: the lists of a position after cold start. -/
def PosLists.cold : PosLists := { ann := [], deferred := [], shelf := [], horn := false }

/-- R50, Table 3-1: the load state of a position after cold start. -/
def PosLoad.cold : PosLoad :=
  { load := 0, flood := false, limit := false, decay := 1, k := 16, e := 24000, x := 12000, h := 16000 }

/-- R106: a position context after cold start. -/
def PosContext.cold : PosContext :=
  { state := .vacant, holder := none, incoming := none, staffing := 3, offerTimeout := 300, reviewTimeout := 900,
    reliefLimit := 1800, holdTime := 10, notes := [], relief := [], items := [], timer := none }

/-- The machine after cold start: R178 and the rules it names, R22, R46, R50, R87, R106, R160 and R162. -/
def State.reset : State :=
  { millTime := 0, timeSet := false, runState := .unconfigured, startKind := .cold, restarts := 0, relay := false,
    plantHold := 10, links := ⟨PerPos.all .cold, .cold⟩, alarms := [], mask := 0, lists := PerPos.all .cold,
    escalation := [], loads := PerPos.all .cold, operators := [], grants := [], positions := PerPos.all .cold,
    areas := List.replicate 16 .p0, bypasses := [], journal := [], nextSeq := 1, free := 0, pending := [] }

end Sys2Proof.Machine
end

