-- ==== Sys2Proof/Machine/Operands.lean ====
section
/-! DEFINITION. The codes and layouts of chapter 10: refusal causes, coded values (Tables 9-2 to 9-4, 10-4, 10-7, 10-11),
the bodies of notices (Table 10-9), and the frames of replies (R165). -/

namespace Sys2Proof.Machine

/-! ### Coded values -/

/-- Table 4-4: the refusal causes of a REFUSED reply, and LINK_LOST. -/
inductive Cause
  | malformed | wrongLink | unconfigured | unknownOperator | locked | badge | notHolder | notIncoming | operatorEngaged
  | areaNotOwned | noGrant | level | staffing | tableFull | grantInUse | duplicate | unknownIndex | badState | suppressed
  | notShelvable | shelfFull | itemsFull | itemsOpen | loadHigh | stackFull | reliefActive | areasOwned | registerFull
  | notesFull | linkLost
deriving DecidableEq, Repr

/-- Table 10-4: cause codes. -/
def causeCode : Cause → Nat
  | .malformed => 1 | .wrongLink => 2 | .unconfigured => 3 | .unknownOperator => 4 | .locked => 5 | .badge => 6
  | .notHolder => 7 | .notIncoming => 8 | .operatorEngaged => 9 | .areaNotOwned => 10 | .noGrant => 11 | .level => 12
  | .staffing => 13 | .tableFull => 14 | .grantInUse => 15 | .duplicate => 16 | .unknownIndex => 17 | .badState => 18
  | .suppressed => 19 | .notShelvable => 20 | .shelfFull => 21 | .itemsFull => 22 | .itemsOpen => 23 | .loadHigh => 24
  | .stackFull => 25 | .reliefActive => 26 | .areasOwned => 27 | .registerFull => 28 | .notesFull => 29 | .linkLost => 30

/-- Table 9-2: lifecycle codes. -/
def lifecycleCode : Lifecycle → Nat
  | .normal => 0 | .raised => 1 | .held => 2 | .returned => 3 | .latched => 4 | .outOfService => 5

/-- Table 10-11: input codes. -/
def inputCode : Input → Nat
  | .inactive => 0 | .active => 1 | .unknown => 2

/-- Table 10-11: class codes. -/
def classCode : AlarmClass → Nat
  | .process => 0 | .equipment => 1 | .safety => 2 | .system => 3

/-- Table 10-11: the class of a code. -/
def classOf? : Nat → Option AlarmClass
  | 0 => some .process | 1 => some .equipment | 2 => some .safety | 3 => some .system | _ => none

/-- Table 9-2: grant kind codes. -/
def grantKindCode : GrantKind → Nat
  | .operate => 0 | .shelve => 1 | .latchReset => 2 | .bypass => 3 | .supervise => 4

/-- Table 9-2: the grant kind of a code. -/
def grantKindOf? : Nat → Option GrantKind
  | 0 => some .operate | 1 => some .shelve | 2 => some .latchReset | 3 => some .bypass | 4 => some .supervise
  | _ => none

/-- Table 10-10: a scope, 0 to 15 for an area and 16 for ALL; none where the value has no meaning. -/
def scopeOf? (n : Nat) : Option (Option Nat) :=
  if n < 16 then some (some n) else if n = 16 then some none else none

/-- Table 10-10: the value of a scope. -/
def scopeCode (scope : Option Nat) : Nat := scope.getD 16

/-- Table 10-10: a binding, 0 to 6 for BOUND and 255 for CARRIED; none where the value has no meaning. -/
def bindingOf? (n : Nat) : Option (Option Pos) :=
  if n = 255 then some none else (Pos.ofNum? n).map some

/-- Table 10-10: the value of a binding. -/
def bindingCode (b : Option Pos) : Nat := (b.map Pos.num).getD 255

/-- Table 10-11: the reason of a RETRACT and of an ESCALATE LEFT. -/
def reasonCode : Reason → Nat
  | .displaced => 0 | .acknowledged => 1 | .shelved => 2 | .suppressed => 3 | .moved => 4 | .outOfService => 5
  | .normal => 6

/-- Table 10-11: HANDOVER change. -/
def handoverChangeCode : HandoverChange → Nat
  | .offered => 0 | .taken => 1 | .accepted => 2 | .ended => 3

/-- Table 9-2: handover reason. -/
def endReasonCode : EndReason → Nat
  | .withdrawn => 1 | .timeout => 2 | .cancelled => 3

/-- Table 10-11: position state. -/
def posStateCode : PosState → Nat
  | .vacant => 0 | .staffed => 1 | .offered => 2 | .review => 3

/-- Table 9-2: the phase of a handover; REVIEW is 1. -/
def phaseCode (st : PosState) : Nat := if st = .review then 1 else 0

/-- Table 10-11: role. -/
def roleCode : Role → Nat
  | .holder => 0 | .stacked => 1 | .incoming => 2

/-- Table 10-11: run state. -/
def runStateCode : RunState → Nat
  | .unconfigured => 0 | .resync => 1 | .running => 2

/-- Table 10-11: start kind. -/
def startKindCode : StartKind → Nat
  | .cold => 0 | .warm => 1

/-- Table 10-7: item kind. -/
def itemKindCode : ItemKind → Nat
  | .unack n => n | .latched => 5 | .flood => 6 | .bypass => 7 | .shelf => 8 | .note => 9 | .arrival => 10

/-- Tables 9-3 and 9-4: the code of a journal entry's kind. -/
def entryKindCode : EntryKind → Nat
  | .alarmRaised => 1 | .alarmCleared => 2 | .acknowledged => 3 | .latchReset => 4 | .suppressionChanged => 5
  | .outOfService => 6 | .returnedToService => 7 | .escalated => 8 | .shelved => 9 | .unshelved => 10
  | .shelfExpired => 11 | .floodEntered => 12 | .floodLeft => 13 | .signOn => 14 | .signOff => 15
  | .handoverOffered => 16 | .handoverTaken => 17 | .handoverAccepted => 18 | .handoverEnded => 19 | .reliefTaken => 20
  | .reliefReturned => 21 | .reliefOverdue => 22 | .reliefCleared => 23 | .areaTransferred => 24 | .grantIssued => 25
  | .grantEnded => 26 | .accessRefused => 27 | .bypassDeclared => 28 | .bypassDue => 29 | .bypassEnded => 30
  | .noteAdded => 31 | .linkDown => 32 | .linkUp => 33 | .relayEnergised => 34 | .relayReset => 35 | .restart => 36
  | .timeSet => 37

/-- Table 9-2: the access cause in an ACCESS_REFUSED detail; none for the causes that write no entry (R85). -/
def accessCauseCode? : Cause → Option Nat
  | .badge => some 1 | .locked => some 2 | .noGrant => some 3 | .level => some 4 | .staffing => some 5
  | _ => none

/-! ### Fields of replies and notices (Table 10-10) -/

/-- A result outcome in a DONE reply (Table 10-11). -/
inductive Result
  | acked | changed | shelved | renewed | noChange
deriving DecidableEq, Repr

/-- Table 10-11: the code of a result outcome. -/
def resultCode : Result → Nat
  | .acked => 0 | .changed => 1 | .shelved => 2 | .renewed => 3 | .noChange => 255

/-- Table 10-10: yes or no, set or clear. -/
def beBool (b : Bool) : List Byte := be8 b.toNat

/-- R176: an absent one-byte field is sent as 0xFF. -/
def be8Opt (n : Option Nat) : List Byte := be8 (n.getD 0xFF)

/-- R176: an absent two-byte field is sent as 0xFFFF. -/
def be16Opt (n : Option Nat) : List Byte := be16 (n.getD 0xFFFF)

/-- R176: an absent four-byte field is sent as 0xFFFFFFFF. -/
def beWordOpt (w : Option Word) : List Byte := beWord (w.getD 0xFFFFFFFF#32)

/-- An operator field that gives 0 for none (Table 10-10). -/
def beOperator (o : Option Nat) : List Byte := be8 (o.getD 0)

/-- A position (Table 10-10). -/
def bePos (p : Pos) : List Byte := be8 p.num

/-- Table 10-10: the area set of a list of areas, bit a for area a. -/
def areaSet (areas : List Nat) : Nat := areas.foldl (fun n a => n ||| 2 ^ a) 0

/-- Table 10-11: the mark of a stored value, CLAMPED where it differs from the requested one. -/
def clampMark (requested stored : Nat) : List Byte := be8 (if requested = stored then 0 else 1)

/-- Table 10-11: the mark of a value the SAFETY class forces, FORCED where it differs from the requested one. -/
def forceMark (requested stored : Nat) : List Byte := be8 (if requested = stored then 0 else 2)

/-! ### Notices (Table 10-9) -/

/-- R166: the list notices. -/
def Notice.isList : Notice → Bool
  | .annunciate .. | .update .. | .retract .. | .remind .. => true
  | _ => false

/-- Table 10-9: the KIND of a notice. -/
def noticeCode : Notice → Nat
  | .annunciate .. => 64 | .update .. => 65 | .retract .. => 66 | .remind .. => 67 | .escalate .. => 68 | .horn .. => 69
  | .load .. => 70 | .item .. => 71 | .handover .. => 72 | .bypassDue .. => 73 | .reliefOverdue .. => 74 | .fault .. => 75

/-- Table 10-9: the KIND of a SNAPSHOT. -/
def snapshotCode : Nat := 76

/-- Table 10-7: an item record. -/
def itemRecord (it : Item) : List Byte :=
  be8 it.number ++ be8 (itemKindCode it.kind) ++ be16 it.subject ++ be16 it.count ++
    be8 (it.confirmed.toNat + 2 * it.resolved.toNat + 4 * it.arrived.toNat)

/-- Table 10-5: an ANNUNCIATE body. -/
def annunciateBody (index priority area : Nat) (lc : Lifecycle) (time : Word) (p : Pos) : List Byte :=
  be16 index ++ be8 priority ++ be8 area ++ be8 (lifecycleCode lc) ++ beWord time ++ bePos p

/-- Table 10-9: the body of a notice. -/
def noticeBody : Notice → List Byte
  | .annunciate i pr a lc t p => annunciateBody i pr a lc t p
  | .update i lc silenced => be16 i ++ be8 (lifecycleCode lc) ++ beBool silenced
  | .retract i r => be16 i ++ be8 (reasonCode r)
  | .remind i n => be16 i ++ be8 n
  | .escalate i pr a owner left =>
      be16 i ++ be8 pr ++ be8 a ++ bePos owner ++ beBool left.isSome ++ be8Opt (left.map reasonCode)
  | .horn p sounding => bePos p ++ beBool sounding
  | .load p l flood limit => bePos p ++ be16 l ++ beBool flood ++ beBool limit
  | .item it => itemRecord it
  | .handover p change holder incoming items reason =>
      bePos p ++ be8 (handoverChangeCode change) ++ beOperator holder ++ beOperator incoming ++ be8 items ++
        be8Opt (reason.map endReasonCode)
  | .bypassDue slot area interlock o declared duration =>
      be8 slot ++ be8 area ++ be16 interlock ++ be8 o ++ beWord declared ++ be32 duration
  | .reliefOverdue p frame o start holder => bePos p ++ be8 frame ++ be8 o ++ beWord start ++ beOperator holder
  | .fault source => be8 (causeCode .linkLost) ++ be16 source.num ++ be8 1 ++ be8 75

/-- R166: the frame of a notice: TAG 0, REPLY clear, LAST set. -/
def noticeFrame (n : Notice) : Frame :=
  { kind := BitVec.ofNat 8 (noticeCode n), tag := 0, last := true, reply := false, limited := false, gap := false,
    body := noticeBody n }

/-- R166, R170: a frame of a SNAPSHOT; LAST is set on the last one. -/
def snapshotFrame (last : Bool) (body : List Byte) : Frame :=
  { kind := BitVec.ofNat 8 snapshotCode, tag := 0, last := last, reply := false, limited := false, gap := false, body := body }

/-! ### Replies (R165) -/

/-- The answer of a request: DONE with its results cut into elements, or REFUSED with a cause and a subject (R84). -/
inductive Answer
  /-- results that are packed into frames in order; `gap` sets GAP on the first frame (R159) -/
  | done (elements : List (List Byte)) (gap : Bool)
  /-- one element in each frame, with that frame's LIMITED flag (R59) -/
  | each (elements : List (List Byte × Bool))
  | refused (cause : Cause) (subject : Nat)
deriving DecidableEq, Repr

/-- R165: elements packed whole into bodies in order, each taking as many as 240 bytes hold after the outcome byte. -/
def packBodies : List Byte → List (List Byte) → List (List Byte)
  | body, [] => [body]
  | body, e :: es =>
    if body.length + e.length ≤ maxBody then packBodies (body ++ e) es else body :: packBodies (be8 0 ++ e) es

/-- The reply frames of the bodies, LAST set on the last one (R165). -/
def replyFrames (k : Kind) (tag : Byte) : List (List Byte × Bool × Bool) → List Frame
  | [] => []
  | (body, limited, gap) :: rest =>
    { kind := BitVec.ofNat 8 (kindCode k), tag := tag, last := rest.isEmpty, reply := true, limited := limited, gap := gap,
      body := body } :: replyFrames k tag rest

/-- Table 10-4: the body of a REFUSED reply, with origin REQUEST and the refused request's KIND. -/
def refusalBody (kind : Nat) (cause : Cause) (subject : Nat) : List Byte :=
  be8 1 ++ be8 (causeCode cause) ++ be16 subject ++ be8 0 ++ be8 kind

/-- R159: GAP on the first frame alone. -/
def markGap (gap : Bool) : List (List Byte) → List (List Byte × Bool × Bool)
  | [] => []
  | b :: bs => (b, false, gap) :: bs.map fun c => (c, false, false)

/-- R165: the frames of an answer to a request of kind `k`. -/
def answerFrames (k : Kind) (tag : Byte) : Answer → List Frame
  | .done es gap => replyFrames k tag (markGap gap (packBodies (be8 0) es))
  | .each es => replyFrames k tag (es.map fun e => (be8 0 ++ e.1, e.2, false))
  | .refused c v => replyFrames k tag [(refusalBody (kindCode k) c v, false, false)]

/-- A DONE reply whose results are one element. -/
def doneWith (e : List Byte) : Answer := .done [e] false

end Sys2Proof.Machine
end

