-- ==== Sys2Proof/Machine/Flags.lean ====
section
/-! DEFINITION. The conditions the rules read from the state: ownership, suppression, rank, the reminder and horn
conditions, coverage, the flow of a link, the room of an item list, and the judgement of the LIU (R164). -/

namespace Sys2Proof.Machine

/-- A value clamped to a range (R2, R49, R91, R100, R112, R179). -/
def clamp (low high n : Nat) : Nat := if n < low then low else if high < n then high else n

/-! ### Areas and alarms -/

/-- R95: the position that owns an area. -/
def areaOwner (s : State) (a : Nat) : Pos := s.areas.getD a .p0

/-- R95: the areas a position owns, lowest first. -/
def ownedAreas (s : State) (p : Pos) : List Nat := (List.range 16).filter fun a => areaOwner s a == p

/-- What the fields of an undefined index read as; every rule judges the index first (R1). -/
def blankAlarm : Alarm :=
  { defn := { area := 0, priority := 4, cls := .process, ackLevel := 0, group := 0, shelvable := false, maxShelve := 60,
              reminder := 30, escalation := 0, inService := false },
    dyn := { input := .unknown, lifecycle := .outOfService, acknowledger := none, shelved := false, escalated := false,
             overflow := false, annTime := none, reminders := 0 } }

/-- R1: the definition and record of a defined index. -/
def alarm? (s : State) (i : Nat) : Option Alarm := s.alarms.get? i

/-- R1: whether an index is defined. -/
def isDefined (s : State) (i : Nat) : Bool := (alarm? s i).isSome

/-- The alarm of a defined index. -/
def alarmAt (s : State) (i : Nat) : Alarm := (alarm? s i).getD blankAlarm

/-- R1: the owning position of an alarm, read from the area map at each event that needs it. -/
def ownerOf (s : State) (i : Nat) : Pos := areaOwner s (alarmAt s i).defn.area

/-- R24: priority is read from the definition at each comparison. -/
def priorityOf (s : State) (i : Nat) : Nat := (alarmAt s i).defn.priority

/-- The lifecycle of an alarm. -/
def lifecycleOf (s : State) (i : Nat) : Lifecycle := (alarmAt s i).dyn.lifecycle

/-- R7: an alarm is suppressed while its group is non-zero and masked. -/
def isSuppressed (s : State) (i : Nat) : Bool :=
  let g := (alarmAt s i).defn.group
  g != 0 && s.mask.getLsbD g

/-- R7: an alarm is withheld while it is shelved or suppressed. -/
def isWithheld (s : State) (i : Nat) : Bool := (alarmAt s i).dyn.shelved || isSuppressed s i

/-- The alarm stands on the position's annunciation list. -/
def onAnn (s : State) (p : Pos) (i : Nat) : Bool := (s.lists.get p).ann.any fun e => e.alarm == i

/-- The alarm stands on the position's deferred list. -/
def onDeferred (s : State) (p : Pos) (i : Nat) : Bool := (s.lists.get p).deferred.any fun e => e.alarm == i

/-- Section 1.2: an alarm is listed while it is on its owning position's annunciation or deferred list, or while its
overflow flag is set. -/
def isListed (s : State) (i : Nat) : Bool :=
  onAnn s (ownerOf s i) i || onDeferred s (ownerOf s i) i || (alarmAt s i).dyn.overflow

/-! ### Rank (section 0.5.3, R24) -/

/-- The three keys of rank: priority, annunciation time, alarm index. -/
def rankOf (s : State) (i : Nat) (t : Word) : Nat × Nat × Nat := (priorityOf s i, t.toNat, i)

/-- Section 0.5.3: "A outranks B" means that A comes earlier in rank order. -/
def outranks (a b : Nat × Nat × Nat) : Bool :=
  decide (a.1 < b.1) ||
    (a.1 == b.1 && (decide (a.2.1 < b.2.1) || (a.2.1 == b.2.1 && decide (a.2.2 < b.2.2))))

/-- R24: an inserted entry takes the place its order gives it. -/
def insertBy {α : Type} (before : α → α → Bool) (x : α) : List α → List α
  | [] => [x]
  | y :: ys => if before x y then x :: y :: ys else y :: insertBy before x ys

/-- Rank order of annunciation entries. -/
def annBefore (s : State) (a b : AnnEntry) : Bool := outranks (rankOf s a.alarm a.time) (rankOf s b.alarm b.time)

/-- Rank order of deferred and escalation entries. -/
def entryBefore (s : State) (a b : ListEntry) : Bool := outranks (rankOf s a.alarm a.time) (rankOf s b.alarm b.time)

/-- R108: shelf entries are ordered by expiry remaining and then by alarm index. -/
def shelfBefore (a b : ShelfEntry) : Bool :=
  decide (a.remaining < b.remaining) || (a.remaining == b.remaining && decide (a.alarm < b.alarm))

/-- R25: the overflow set of a position, in rank order: the alarms whose overflow flag is set and whose area the
position owns. -/
def overflowSet (s : State) (p : Pos) : List ListEntry :=
  let marked := s.alarms.filterMap fun e =>
    if e.2.dyn.overflow && areaOwner s e.2.defn.area == p then some (ListEntry.mk e.1 (e.2.dyn.annTime.getD 0)) else none
  marked.foldl (fun l e => insertBy (entryBefore s) e l) []

/-! ### Reminders and the horn -/

/-- R38: the conditions under which the reminder of an annunciation entry of a position runs. -/
def reminderRuns (s : State) (p : Pos) (i : Nat) : Bool :=
  lifecycleOf s i == .raised && (!(s.loads.get p).flood || decide (priorityOf s i ≤ 2))

/-- R38: a reminder that starts takes the full interval; it does not start where the conditions do not hold. -/
def freshReminder (s : State) (p : Pos) (i : Nat) : Option Nat :=
  if reminderRuns s p i then some (alarmAt s i).defn.reminder else none

/-- R43: the horn line sounds while an unsilenced RAISED entry of priority 1 or 2 stands on the annunciation list. -/
def hornSounds (s : State) (p : Pos) : Bool :=
  (s.lists.get p).ann.any fun e => !e.silenced && decide (priorityOf s e.alarm ≤ 2) && lifecycleOf s e.alarm == .raised

/-! ### Load (Table 3-2) -/

/-- Table 3-2: the arrival weight of a priority. -/
def arrivalWeight : Nat → Nat
  | 1 => 1200 | 2 => 600 | 3 => 240 | 4 => 80 | _ => 0

/-- Table 3-2: the reminder weight, half the arrival weight rounded down. -/
def reminderWeight (priority : Nat) : Nat := arrivalWeight priority / 2

/-! ### Operators and grants -/

/-- R64: an operator is defined while its record is present; ids lie in 1 to 64. -/
def operator? (s : State) (o : Nat) : Option Operator :=
  if 1 ≤ o && o ≤ 64 then s.operators.get? o else none

/-- R66: the engagement of an operator. -/
def engagementOf (s : State) (o : Nat) : Option (Pos × Role) := (operator? s o).bind (·.engagement)

/-- The level of a defined operator. -/
def levelOf (s : State) (o : Nat) : Nat := ((operator? s o).map (·.level)).getD 0

/-- R69: a grant applies at a position when its binding is CARRIED or BOUND to it. -/
def Grant.appliesAt (g : Grant) (p : Pos) : Bool := g.binding == none || g.binding == some p

/-- R69: a grant covers an area when its scope is the area or ALL. -/
def Grant.coversArea (g : Grant) (a : Nat) : Bool := g.scope == none || g.scope == some a

/-- R69: the operator holds a grant of the kind for the area at the position. -/
def holdsFor (grants : Table Grant) (o : Nat) (k : GrantKind) (a : Nat) (p : Pos) : Bool :=
  grants.any fun e => e.2.operator == o && e.2.kind == k && e.2.coversArea a && e.2.appliesAt p

/-- R69: the operator holds the kind at the position, with no area. -/
def holdsAt (grants : Table Grant) (o : Nat) (k : GrantKind) (p : Pos) : Bool :=
  grants.any fun e => e.2.operator == o && e.2.kind == k && e.2.appliesAt p

/-- R71: the lowest area the position owns for which the operator does not hold OPERATE at it; none where the
operator covers the position. -/
def uncovered? (s : State) (grants : Table Grant) (o : Nat) (p : Pos) : Option Nat :=
  (ownedAreas s p).find? fun a => !holdsFor grants o .operate a p

/-- R72: the lowest area that would be left uncovered if the grant in the slot were removed; none where the grant is
not in use. -/
def inUse? (s : State) (slot : Nat) (g : Grant) : Option Nat :=
  if g.kind == .operate then
    match Pos.all.find? fun p => (s.positions.get p).state != .vacant && (s.positions.get p).holder == some g.operator with
    | some p => uncovered? s (s.grants.erase slot) g.operator p
    | none => none
  else none

/-- The lowest number below a bound that has no record (R69, R99: the lowest-numbered empty slot). -/
def freeSlot? {α : Type} (slots : Nat) (t : Table α) : Option Nat :=
  (List.range slots).find? fun n => (t.get? n).isNone

/-! ### Item lists -/

/-- R128: an item is open while neither its confirmed nor its resolved flag is set. -/
def Item.isOpen (it : Item) : Bool := !it.confirmed && !it.resolved

/-- R128: the six summary kinds. -/
def summaryKinds : List ItemKind := [.unack 1, .unack 2, .unack 3, .unack 4, .latched, .flood]

/-- R129: the number of summary kinds that an item list does not hold. -/
def heldPlaces (items : List Item) : Nat := (summaryKinds.filter fun k => !items.any fun it => it.kind == k).length

/-- R129: a list has room for an item of a kind that is not a summary kind while it has a free place. -/
def hasFreePlace (items : List Item) : Bool := decide (items.length + heldPlaces items < Config.itemCapacity)

/-- R129: room at a position is judged only in REVIEW. -/
def roomForItem (s : State) (p : Pos) : Bool :=
  (s.positions.get p).state != .review || hasFreePlace (s.positions.get p).items

/-- R138: the lowest open item number, absent where no item is open. -/
def lowestOpen? (items : List Item) : Option Nat := (items.find? Item.isOpen).map (·.number)

/-! ### Links -/

/-- R168: a link may send a notice frame while it is UP and either in GO, or in HOLD with its allowance at 1. -/
def LinkState.mayNotify (k : LinkState) : Bool := k.up && (k.flow == .go || k.allowance)

/-- R171: the link has notices waiting. -/
def LinkState.isWaiting (k : LinkState) : Bool := !k.queue.isEmpty || k.snapshotDue

/-- R171: the three conditions of the hold timer. -/
def LinkState.holdRuns (k : LinkState) : Bool := k.up && k.flow == .hold && k.isWaiting

/-- R162: the hold time of a link. -/
def holdTimeOf (s : State) : Link → Nat
  | .console p => (s.positions.get p).holdTime
  | .plant => s.plantHold

/-- R174, Table: the links of a FAULT notice's chain, in order; the relay follows them. -/
def faultChain : Link → List Link
  | .console .p0 => [.plant]
  | .console _ => [.console .p0, .plant]
  | .plant => [.console .p0]

/-! ### The judgement of a frame (R164) -/

/-- On which links the owning rule of a kind takes it. -/
inductive LinkRule
  | plantOnly | consoleOnly | supervisorOnly | plantOrSupervisor | anyLink
deriving DecidableEq, Repr

/-- The links of each request kind, as its owning rule gives them. -/
def linkRule : Kind → LinkRule
  | .defineAlarm | .defineOperator | .defineGrant | .definePosition | .groupMask | .timeSet | .commission | .alarmEvent
  | .outOfService | .returnToService | .revokeGrant | .alarmState | .resyncEnd | .restart => .plantOnly
  | .status | .alarmRead | .listRead | .positionRead | .bypassRead | .shelfRead | .itemRead => .anyLink
  | .operatorRead | .relayReset | .loadQuery | .journalRead => .plantOrSupervisor
  | .handoverCancel | .reliefClear | .areaTransfer | .grantTemporary | .grantEnd | .operatorUnlock => .supervisorOnly
  | .ack | .ackList | .shelve | .unshelve | .latchReset | .silence | .bypassDeclare | .bypassEnd | .noteAdd | .signOn
  | .signOff | .handoverOffer | .handoverTake | .itemConfirm | .handoverAccept | .handoverWithdraw | .reliefTake
  | .reliefReturn => .consoleOnly

/-- R164 step 3. -/
def linkAllowed : LinkRule → Link → Bool
  | .plantOnly, l => l == .plant
  | .consoleOnly, l => l != .plant
  | .supervisorOnly, l => l == .console .p0
  | .plantOrSupervisor, l => l == .plant || l == .console .p0
  | .anyLink, _ => true

/-- Table 11-1: the kinds that pass step 4 in UNCONFIGURED on the plant link. -/
def takenUnconfigured : Kind → Bool
  | .defineAlarm | .defineOperator | .defineGrant | .definePosition | .groupMask | .timeSet | .status | .operatorRead
  | .relayReset | .commission => true
  | _ => false

/-- R164 step 4, R177 and Table 11-1. -/
def runStateAllowed (k : Kind) (l : Link) (r : RunState) : Bool :=
  r != .unconfigured || (l == .plant && takenUnconfigured k)

/-- One check of a rule that says "otherwise the refusal is": whether it holds, and the refusal if it does not. -/
structure Check where
  holds : Bool
  cause : Cause
  subject : Nat
deriving DecidableEq, Repr

/-- "Judged in this order, and the first failing check gives the refusal" (R2, R77, R84). -/
def firstRefusal : List Check → Option (Cause × Nat)
  | [] => none
  | c :: cs => if c.holds then firstRefusal cs else some (c.cause, c.subject)

/-- R164 steps 2 to 4, for a request of kind `k` (step 1 has found the kind). -/
def liuChecks (k : Kind) (h : Header) (s : State) : List Check :=
  [⟨decide (fixedLength k ≤ h.len), .malformed, h.len⟩,
   ⟨linkAllowed (linkRule k) h.link, .wrongLink, kindCode k⟩,
   ⟨runStateAllowed k h.link s.runState, .unconfigured, runStateCode s.runState⟩]

/-! ### The access check (R77 to R82) -/

/-- R78, step 1. -/
def definedCheck (s : State) (o : Nat) : Check := ⟨(operator? s o).isSome, .unknownOperator, o⟩

/-- R79, HOLDER. -/
def holderCheck (s : State) (o : Nat) (p : Pos) : Check := ⟨engagementOf s o == some (p, .holder), .notHolder, o⟩

/-- R79, INCOMING. -/
def incomingCheck (s : State) (o : Nat) (p : Pos) : Check := ⟨engagementOf s o == some (p, .incoming), .notIncoming, o⟩

/-- R79, HOLDER or INCOMING. -/
def partyCheck (s : State) (o : Nat) (p : Pos) : Check :=
  ⟨engagementOf s o == some (p, .holder) || engagementOf s o == some (p, .incoming), .notHolder, o⟩

/-- R79, STACKED. -/
def stackedCheck (s : State) (o : Nat) (p : Pos) : Check :=
  ⟨(s.positions.get p).relief.any fun f => f.operator == o, .notHolder, o⟩

/-- R79, not engaged. -/
def freeCheck (s : State) (o : Nat) : Check := ⟨engagementOf s o == none, .operatorEngaged, o⟩

/-- R79, the operator is the incoming that the offer names. -/
def namedCheck (s : State) (o : Nat) (p : Pos) : Check :=
  ⟨(s.positions.get p).incoming == some o, .notIncoming, o⟩

/-- R80, step 4, with the waiver of P0. -/
def areaCheck (s : State) (o a : Nat) (p : Pos) : Check :=
  ⟨areaOwner s a == p || (p == .p0 && holdsFor s.grants o .supervise a .p0), .areaNotOwned, a⟩

/-- R81, step 5: the kind for the area. -/
def grantCheck (s : State) (o : Nat) (k : GrantKind) (a : Nat) (p : Pos) : Check :=
  ⟨holdsFor s.grants o k a p, .noGrant, a⟩

/-- R81, step 5: coverage of the position. -/
def coverageCheck (s : State) (o : Nat) (p : Pos) : Check :=
  ⟨(uncovered? s s.grants o p).isNone, .noGrant, (uncovered? s s.grants o p).getD 16⟩

/-- R82, step 6 for an alarm action: the level against a limit, with the alarm index as subject. -/
def levelCheck (s : State) (o limit i : Nat) : Check := ⟨decide (levelOf s o ≤ limit), .level, i⟩

/-- R82, step 6 at a desk: the level against the staffing level. -/
def staffingCheck (s : State) (o : Nat) (p : Pos) : Check :=
  ⟨decide (levelOf s o ≤ (s.positions.get p).staffing), .staffing, (s.positions.get p).staffing⟩

/-- Table 4-3, last row: a supervisor request that names no area. -/
def supervisorChecks (s : State) (o : Nat) : List Check :=
  [definedCheck s o, holderCheck s o .p0, ⟨holdsAt s.grants o .supervise .p0, .noGrant, 16⟩]

/-- Table 4-3, steps 4 to 6 of an alarm action that needs grant kind `k` (R80 to R82). -/
def alarmChecks (s : State) (o i : Nat) (k : GrantKind) (limit : Nat) (p : Pos) : List Check :=
  let a := (alarmAt s i).defn.area
  [areaCheck s o a p, grantCheck s o k a p, levelCheck s o limit i]

/-- The form of a console alarm request: the index in range and defined (R80, R109). -/
def indexChecks (s : State) (i : Nat) : List Check :=
  [⟨decide (i ≤ Config.maxAlarmIndex), .malformed, i⟩, ⟨isDefined s i, .unknownIndex, i⟩]

/-- R60, R83: the load is below the handover ceiling, or the operator holds SUPERVISE at the position. -/
def loadCheck (s : State) (o : Nat) (p : Pos) : Check :=
  ⟨decide ((s.loads.get p).load < (s.loads.get p).h) || holdsAt s.grants o .supervise p, .loadHigh, (s.loads.get p).load⟩

/-- A position named by a request (R105: otherwise MALFORMED). -/
def positionCheck (n : Nat) : Check := ⟨(Pos.ofNum? n).isSome, .malformed, n⟩

end Sys2Proof.Machine
end

