-- ==== Sys2Proof/Machine/Ops.lean ====
section
/-! DEFINITION. The named operations over the state that the meanings share, block by block: the journal (JNU), the
queues and frames of the links (LIU), the item lists (PCU), the position lists (PLU), the load (LDU), the lifecycle of
an alarm (ATU), engagements and grants (ACU), and the serving of a request frame. -/

namespace Sys2Proof.Machine

/-! ### Updates of one record -/

/-- The state with one link's state changed. -/
def modLink (l : Link) (f : LinkState → LinkState) (s : State) : State :=
  { s with links := s.links.set l (f (s.links.get l)) }

/-- The state with one position's lists changed. -/
def modLists (p : Pos) (f : PosLists → PosLists) (s : State) : State :=
  { s with lists := s.lists.set p (f (s.lists.get p)) }

/-- The state with one position's load state changed. -/
def modLoad (p : Pos) (f : PosLoad → PosLoad) (s : State) : State :=
  { s with loads := s.loads.set p (f (s.loads.get p)) }

/-- The state with one position's context changed. -/
def modPos (p : Pos) (f : PosContext → PosContext) (s : State) : State :=
  { s with positions := s.positions.set p (f (s.positions.get p)) }

/-- A table with the record of a number changed, where it has one. -/
def Table.modify {α : Type} (t : Table α) (i : Nat) (f : α → α) : Table α :=
  match t.get? i with
  | some x => t.insert i (f x)
  | none => t

/-- The state with the definition or record of a defined alarm changed. -/
def modAlarm (i : Nat) (f : Alarm → Alarm) (s : State) : State := { s with alarms := s.alarms.modify i f }

/-- The state with the dynamic record of a defined alarm changed. -/
def modDyn (i : Nat) (f : AlarmDyn → AlarmDyn) (s : State) : State := modAlarm i (fun a => { a with dyn := f a.dyn }) s

/-- The state with the record of a present operator changed. -/
def modOperator (o : Nat) (f : Operator → Operator) (s : State) : State := { s with operators := s.operators.modify o f }

/-! ### JNU -/

/-- R154, R155: an entry is appended with the next sequence and the mill time as it stands; a full ring loses its
oldest entry. -/
def append (k : EntryKind) (p : Option Pos) (o i : Option Nat) (detail : Nat) (s : State) : State :=
  let e : Entry := { sequence := s.nextSeq, time := s.millTime, kind := k, position := p, operator := o, index := i, detail := detail }
  let grown := s.journal ++ [e]
  { s with journal := if grown.length ≤ Config.journalCapacity then grown else grown.tail, nextSeq := s.nextSeq + 1 }

/-! ### LIU: the queue of a link -/

/-- R167, R169: a notice joins the queue of a link, or is discarded. -/
def LinkState.join (console : Bool) (n : Notice) (k : LinkState) : LinkState :=
  let joined : Queued := { notice := n, since := !k.snapshot.isEmpty }
  if !k.up then k
  else if n.isList && k.snapshotDue then k
  else if k.queue.length < Config.queueCapacity then { k with queue := k.queue ++ [joined] }
  else if k.queue.any fun q => q.notice.isList then
    let kept := k.queue.filter fun q => !q.notice.isList
    { k with queue := if n.isList then kept else kept ++ [joined], snapshotDue := k.snapshotDue || console }
  else { k with queue := k.queue.tail ++ [joined], snapshotDue := k.snapshotDue || console }

/-- R167: a notice produced by a block joins the queue of its link. -/
def notify (l : Link) (n : Notice) (s : State) : State := modLink l (LinkState.join (l != .plant) n) s

/-- A notice for a position's console and, for a position other than P0, a second one for P0's console. -/
def notifyBoth (p : Pos) (n : Notice) (s : State) : State :=
  let s := notify (.console p) n s
  if p = .p0 then s else notify (.console .p0) n s

/-- R174, R175: a FAULT notice goes to the first destination whose link is UP; where none is, the relay is energised. -/
def routeFault (source : Link) (chain : List Link) (s : State) : State :=
  match chain.find? fun l => (s.links.get l).up with
  | some l => notify l (.fault source) s
  | none => if s.relay then s else append .relayEnergised none none none source.num { s with relay := true }

/-- R174: the destinations after a link on a FAULT notice's own chain. -/
def chainAfter (l : Link) (source : Link) : List Link := ((faultChain source).dropWhile (· != l)).tail

/-! ### LIU: the frames of a link -/

/-- R170: the first element of a SNAPSHOT, the position summary (Table 10-9). -/
def snapshotSummary (s : State) (p : Pos) : List Byte :=
  let c := s.positions.get p
  let l := s.loads.get p
  let v := s.lists.get p
  bePos p ++ be8 (posStateCode c.state) ++ beOperator c.holder ++ beOperator c.incoming ++ be16 l.load ++ beBool l.flood ++
    beBool l.limit ++ beBool v.horn ++ be16 v.ann.length ++ be16 v.deferred.length ++ be16 (overflowSet s p).length ++
    be16 v.shelf.length ++ be16 c.items.length

/-- R170: the element of an annunciation entry. -/
def snapshotEntry (s : State) (p : Pos) (e : AnnEntry) : List Byte :=
  annunciateBody e.alarm (priorityOf s e.alarm) (alarmAt s e.alarm).defn.area (lifecycleOf s e.alarm) e.time p ++
    beBool e.silenced ++ be16Opt e.reminder

/-- Groups of at most 16, in order (R170). The first argument bounds the number of groups. -/
def groups16 {α : Type} : Nat → List α → List (List α)
  | _, [] => []
  | 0, _ => []
  | n + 1, l => l.take 16 :: groups16 n (l.drop 16)

/-- R170: the frames of a SNAPSHOT: the summary, then the entries, up to 16 in each. -/
def snapshotFrames (s : State) (p : Pos) : Frame × List Frame :=
  let es := ((s.lists.get p).ann.map (snapshotEntry s p))
  let bodies := (groups16 es.length es).map List.flatten
  (snapshotFrame bodies.isEmpty (snapshotSummary s p),
    (bodies.mapIdx fun n b => snapshotFrame (n + 1 == bodies.length) b))

/-- R168: a notice frame sent in HOLD sets the allowance to 0. -/
def LinkState.sendNotice (f : Frame) (k : LinkState) : LinkState :=
  { k with sending := some f, allowance := k.allowance && k.flow != .hold }

/-- R170: a SNAPSHOT starts: SNAPSHOT_DUE is cleared, its frames after the first are still to be sent, and the notices
that wait have joined before it. -/
def LinkState.beginSnapshot (rest : List Frame) (k : LinkState) : LinkState :=
  { k with snapshot := rest, snapshotDue := false, queue := k.queue.map fun q => { q with since := false } }

/-- R168: when the link is free, the next frame starts: a waiting reply frame; otherwise, where the link may send a
notice frame, the next frame of a SNAPSHOT in progress, a due SNAPSHOT, or the head of the queue. R168 and R170 do not say
what goes next when SNAPSHOT_DUE is set (R169) while a SNAPSHOT is in progress: here the frames of the one in progress go
first, and the due one follows. DESIGN CHOICE, unsafe (log 25). -/
def startNext (l : Link) (s : State) : State :=
  let k := s.links.get l
  if k.sending.isSome then s
  else
    match k.replies with
    | f :: rest => modLink l (fun k => { k with sending := some f, replies := rest }) s
    | [] =>
      if !k.mayNotify then s
      else
        match k.snapshot, l, k.snapshotDue, k.queue with
        | f :: rest, _, _, _ => modLink l (fun k => ({ k with snapshot := rest }).sendNotice f) s
        | [], .console p, true, _ =>
          let frames := snapshotFrames s p
          modLink l (fun k => (k.beginSnapshot frames.2).sendNotice frames.1) s
        | [], _, _, q :: rest => modLink l (fun k => ({ k with queue := rest }).sendNotice (noticeFrame q.notice)) s
        | [], _, _, [] => s

/-- R170: a SNAPSHOT is abandoned: SNAPSHOT_DUE is set again and the list notices that joined since its start are
discarded. -/
def LinkState.abandon (k : LinkState) : LinkState :=
  { k with snapshot := [], snapshotDue := true, queue := k.queue.filter fun q => !(q.notice.isList && q.since) }

/-- R170: a SNAPSHOT with frames still to be sent is abandoned when the link may no longer send notice frames. -/
def LinkState.dropStalled (k : LinkState) : LinkState :=
  if !k.snapshot.isEmpty && !k.mayNotify then k.abandon else k

/-- R171: the hold timer starts at the hold time when its three conditions become true together, and stops when any
of them ceases. -/
def LinkState.judgeHold (holdTime : Nat) (k : LinkState) : LinkState :=
  { k with holdTimer := if k.holdRuns then some (k.holdTimer.getD holdTime) else none }

/-- R170, R171: what follows on a link once it has had the chance to start a frame (log 2). The hold timer is judged on
what the frame left waiting, and again after a stalled SNAPSHOT is abandoned: a start that clears SNAPSHOT_DUE over an
empty queue stops the timer, and an abandonment that sets it again is a new start at the hold time. -/
def LinkState.rest (holdTime : Nat) (k : LinkState) : LinkState :=
  ((k.judgeHold holdTime).dropStalled).judgeHold holdTime

/-- What a link does at the end of every command (log 2): it starts a frame if it is free, its hold timer is judged, and
a stalled SNAPSHOT is abandoned. -/
def settleLink (s : State) (l : Link) : State :=
  let s := startNext l s
  modLink l (LinkState.rest (holdTimeOf s l)) s

/-- Every link at the end of a command (log 2). -/
def settle (s : State) : State := Link.all.foldl settleLink s

/-- R165: the frames of an answer wait for the requesting link. -/
def reply (h : Header) (k : Kind) (a : Answer) (s : State) : State :=
  modLink h.link (fun x => { x with replies := x.replies ++ answerFrames k h.tag a }) s

/-- R163: the port goes on past a good frame; what it holds after the frame waits for the next SYNC. -/
def afterFrame (bytes : List Byte) : List Byte :=
  match assemble bytes with
  | .good _ rest => seekSync rest
  | _ => []

/-- R163: a good frame on a link has been taken from the bytes its port holds. -/
def takeFrame (l : Link) (s : State) : State := modLink l (fun k => { k with received := afterFrame k.received }) s

/-! ### PCU: item lists (section 7.4.3) -/

/-- R131 to R136: reports have an effect only at a position in REVIEW. -/
def inReview (s : State) (p : Pos) : Bool := (s.positions.get p).state == .review

/-- R137: an ITEM notice for an item. -/
def itemNotice (p : Pos) (it : Item) (s : State) : State := notify (.console p) (.item it) s

/-- R128, R129: an item is appended, open and marked arrived during review; an item that is not a summary item needs
a free place. -/
def appendItem (p : Pos) (k : ItemKind) (subject count : Nat) (s : State) : State :=
  let items := (s.positions.get p).items
  if summaryKinds.contains k || hasFreePlace items then
    let it : Item := { number := items.length, kind := k, subject := subject, count := count, confirmed := false, resolved := false, arrived := true }
    itemNotice p it (modPos p (fun c => { c with items := c.items ++ [it] }) s)
  else s

/-- An item is changed in place, and an ITEM notice is sent (R137). -/
def changeItem (p : Pos) (it : Item) (s : State) : State :=
  itemNotice p it (modPos p (fun c => { c with items := c.items.map fun x => if x.number == it.number then it else x }) s)

/-- R128: a reopening clears both flags and sets the arrived-during-review flag. -/
def Item.reopen (it : Item) (count : Nat) : Item :=
  { it with count := count, confirmed := false, resolved := false, arrived := true }

/-- The first item of a list that meets a condition. -/
def findItem? (s : State) (p : Pos) (f : Item → Bool) : Option Item := (s.positions.get p).items.find? f

/-- A count that rises by 1. At 65535 the 16-bit result is stated nowhere: a free value (log 7). -/
def raisedCount (count : Nat) (s : State) : Nat × State :=
  if count < 65535 then (count + 1, s) else ((Config.countOverflow s.free).toNat, { s with free := s.free + 1 })

/-- R131, R132, R133: an item's count rises by 1 and the item is reopened. -/
def raiseItem (p : Pos) (it : Item) (s : State) : State :=
  let r := raisedCount it.count s
  changeItem p (it.reopen r.1) r.2

/-- R131, R133: the summary item of a kind rises by 1, or is appended with count 1. -/
def raiseSummary (p : Pos) (k : ItemKind) (subject : Nat) (s : State) : State :=
  match findItem? s p fun it => it.kind == k with
  | some it => raiseItem p it s
  | none => appendItem p k subject 1 s

/-- R131, R133: the summary item of a kind falls by 1; a count that reaches 0 sets the resolved flag. -/
def lowerSummary (p : Pos) (k : ItemKind) (s : State) : State :=
  match findItem? s p fun it => it.kind == k with
  | some it => changeItem p { it with count := it.count - 1, resolved := it.resolved || it.count - 1 == 0 } s
  | none => s

/-- The unresolved item of a kind with a subject. -/
def standingItem? (s : State) (p : Pos) (k : ItemKind) (subject : Nat) : Option Item :=
  findItem? s p fun it => it.kind == k && it.subject == subject && !it.resolved

/-- R132, R134, R135: the unresolved item of a kind with a subject is resolved. -/
def resolveItem (p : Pos) (k : ItemKind) (subject : Nat) (s : State) : State :=
  match standingItem? s p k subject with
  | some it => changeItem p { it with resolved := true } s
  | none => s

/-- R131, R132: a PLACED report. -/
def placedReport (p : Pos) (i : Nat) (s : State) : State :=
  if inReview s p then
    let pr := priorityOf s i
    let s := raiseSummary p (.unack pr) pr s
    if pr = 1 then
      match standingItem? s p .arrival i with
      | some it => raiseItem p it s
      | none => appendItem p .arrival i 1 s
    else s
  else s

/-- R131: a REMOVED report. -/
def removedReport (p : Pos) (i : Nat) (s : State) : State :=
  if inReview s p then lowerSummary p (.unack (priorityOf s i)) s else s

/-- R132, R133: a LIFECYCLE report. -/
def lifecycleReport (i : Nat) (old new : Lifecycle) (s : State) : State :=
  let p := ownerOf s i
  if inReview s p then
    let s := if new = .raised ∨ new = .returned then s else resolveItem p .arrival i s
    if new = .latched then raiseSummary p .latched p.num s
    else if old = .latched then lowerSummary p .latched s
    else s
  else s

/-- R134: a SHELVED report. -/
def shelvedReport (p : Pos) (i effective : Nat) (renewed : Bool) (s : State) : State :=
  if inReview s p then
    if renewed then
      match standingItem? s p .shelf i with
      | some it => changeItem p (it.reopen effective) s
      | none => s
    else appendItem p .shelf i effective s
  else s

/-- R134: a SHELF_ENDED report. -/
def shelfEndedReport (p : Pos) (i : Nat) (s : State) : State :=
  if inReview s p then resolveItem p .shelf i s else s

/-- R136: a FLOOD report at the PCU. -/
def floodReport (p : Pos) (entered : Bool) (load : Nat) (s : State) : State :=
  if inReview s p then
    match findItem? s p fun it => it.kind == .flood with
    | some it => changeItem p (if entered then it.reopen load else { it with resolved := true }) s
    | none => if entered then appendItem p .flood p.num load s else s
  else s

/-! ### PLU: placement, promotion and refill -/

/-- An annunciation entry's reminder is written. -/
def setReminder (p : Pos) (i : Nat) (r : Option Nat) (s : State) : State :=
  modLists p (fun v => { v with ann := v.ann.map fun e => if e.alarm == i then { e with reminder := r } else e }) s

/-- R25, R27: an alarm is inserted into the annunciation list, unsilenced, with an ANNUNCIATE notice and a fresh
reminder if R38 calls for it. -/
def joinAnn (p : Pos) (i : Nat) (t : Word) (s : State) : State :=
  let e : AnnEntry := { alarm := i, time := t, silenced := false, reminder := freshReminder s p i }
  notify (.console p) (.annunciate i (priorityOf s i) (alarmAt s i).defn.area (lifecycleOf s i) t p)
    (modLists p (fun v => { v with ann := insertBy (annBefore s) e v.ann }) s)

/-- An alarm leaves the annunciation list; its reminder goes with the entry. -/
def leaveAnn (p : Pos) (i : Nat) (s : State) : State :=
  modLists p (fun v => { v with ann := v.ann.filter fun e => e.alarm != i }) s

/-- An alarm leaves the deferred list. -/
def leaveDeferred (p : Pos) (i : Nat) (s : State) : State :=
  modLists p (fun v => { v with deferred := v.deferred.filter fun e => e.alarm != i }) s

/-- An alarm's overflow flag is written. -/
def setOverflow (i : Nat) (b : Bool) (s : State) : State := modDyn i (fun d => { d with overflow := b }) s

/-- R28: an alarm enters the deferred list, with its overflow flag clear. -/
def joinDeferred (p : Pos) (i : Nat) (t : Word) (s : State) : State :=
  let s := setOverflow i false s
  modLists p (fun v => { v with deferred := insertBy (entryBefore s) ⟨i, t⟩ v.deferred }) s

/-- R28: deferred insertion. -/
def insertDeferred (p : Pos) (i : Nat) (t : Word) (s : State) : State :=
  let d := (s.lists.get p).deferred
  if d.length < Config.deferredCapacity then joinDeferred p i t s
  else
    match d.getLast? with
    | some c =>
      if outranks (rankOf s i t) (rankOf s c.alarm c.time) then
        joinDeferred p i t (setOverflow c.alarm true (leaveDeferred p c.alarm s))
      else setOverflow i true s
    | none => setOverflow i true s

/-- R27: the alarm is given its annunciation time and placed on the lists of a position. -/
def placeOnLists (p : Pos) (i : Nat) (t : Word) (s : State) : State :=
  let s := modDyn i (fun d => { d with annTime := some t }) s
  let ann := (s.lists.get p).ann
  if (s.loads.get p).flood && priorityOf s i == 4 then insertDeferred p i t s
  else if ann.length < Config.annCapacity then joinAnn p i t s
  else
    match ann.getLast? with
    | some b =>
      if outranks (rankOf s i t) (rankOf s b.alarm b.time) then
        let s := notify (.console p) (.retract b.alarm .displaced) (leaveAnn p b.alarm s)
        joinAnn p i t (insertDeferred p b.alarm b.time s)
      else insertDeferred p i t s
    | none => insertDeferred p i t s

/-- R43: the horn line is judged. -/
def judgeHorn (p : Pos) (s : State) : State :=
  let sounding := hornSounds s p
  if sounding = (s.lists.get p).horn then s
  else notify (.console p) (.horn p sounding) (modLists p (fun v => { v with horn := sounding }) s)

/-- R33: the best-ranked eligible deferred entry; in flood an entry of priority 4 is not eligible. -/
def eligible? (p : Pos) (s : State) : Option ListEntry :=
  (s.lists.get p).deferred.find? fun e => !((s.loads.get p).flood && priorityOf s e.alarm == 4)

/-- R33: the best-ranked eligible deferred entry is promoted into room on the annunciation list; none where there is
no room or no eligible entry. -/
def promote? (p : Pos) (s : State) : Option State :=
  if (s.lists.get p).ann.length < Config.annCapacity then
    (eligible? p s).map fun e => joinAnn p e.alarm e.time (leaveDeferred p e.alarm s)
  else none

/-- R34: the best-ranked overflow alarm of a position enters room on its deferred list. -/
def refill (p : Pos) (s : State) : State :=
  if (s.lists.get p).deferred.length < Config.deferredCapacity then
    match overflowSet s p with
    | e :: _ => joinDeferred p e.alarm e.time s
    | [] => s
  else s

/-- R33, R34: what follows a departure from an annunciation list. -/
def promotion (p : Pos) (s : State) : State :=
  match promote? p s with
  | some s' => refill p s'
  | none => s

/-- R36, R37: promotion without refill, repeated while the list has room and an eligible entry remains. The first
argument bounds the number of promotions. -/
def promoteAll : Nat → Pos → State → State
  | 0, _, s => s
  | n + 1, p, s =>
    match promote? p s with
    | some s' => promoteAll n p s'
    | none => s

/-- R36 step 3: refill repeated. The first argument bounds the number of refills. -/
def refillAll : Nat → Pos → State → State
  | 0, _, s => s
  | n + 1, p, s => refillAll n p (refill p s)

/-- R36 steps 2 to 4, R37 step 2: repeated promotion, repeated refill, and one judgement of the horn. -/
def restoreLists (p : Pos) (s : State) : State :=
  judgeHorn p (refillAll Config.deferredCapacity p (promoteAll (s.lists.get p).deferred.length p s))

/-- R35: a priority-3 or priority-4 entry's reminder stops. -/
def floodStopped (s : State) (e : AnnEntry) : AnnEntry :=
  if 3 ≤ priorityOf s e.alarm then { e with reminder := none } else e

/-- R36 step 1: a priority-3 or priority-4 RAISED entry's reminder starts at the full interval. -/
def floodRestarted (s : State) (e : AnnEntry) : AnnEntry :=
  if 3 ≤ priorityOf s e.alarm ∧ lifecycleOf s e.alarm = .raised then
    { e with reminder := some (alarmAt s e.alarm).defn.reminder }
  else e

/-- R35: on flood entry the reminders of the priority-3 and priority-4 entries stop. -/
def floodEnterLists (p : Pos) (s : State) : State :=
  modLists p (fun v => { v with ann := v.ann.map (floodStopped s) }) s

/-- R36: on flood exit the reminders of the priority-3 and priority-4 RAISED entries start, and the sweep runs. -/
def floodLeaveLists (p : Pos) (s : State) : State :=
  restoreLists p (modLists p (fun v => { v with ann := v.ann.map (floodRestarted s) }) s)

/-! ### LDU -/

/-- R57 and R58: flood mode has turned ON or OFF: the entry, the LOAD notices, and the reports to the PLU and PCU. -/
def floodTurned (p : Pos) (on : Bool) (s : State) : State :=
  let s := modLoad p (fun d => { d with flood := on }) s
  let d := s.loads.get p
  let s := append (if on then .floodEntered else .floodLeft) (some p) none none d.load s
  let s := notifyBoth p (.load p d.load on d.limit) s
  let s := if on then floodEnterLists p s else floodLeaveLists p s
  floodReport p on d.load s

/-- R56: flood evaluation. -/
def evaluateFlood (p : Pos) (s : State) : State :=
  let d := s.loads.get p
  if !d.flood && decide (d.e ≤ d.load) then floodTurned p true s
  else if d.flood && decide (d.load ≤ d.x) then floodTurned p false s
  else s

/-- R54: an addition of a weight, saturating at 65535, and flood evaluation. -/
def addLoad (p : Pos) (w : Nat) (s : State) : State :=
  evaluateFlood p (modLoad p (fun d =>
    if d.load + w ≤ Config.maxLoad then { d with load := d.load + w } else { d with load := Config.maxLoad, limit := true }) s)

/-! ### PLU: the reports of the ATU -/

/-- R27 to R29: a PLACE report. -/
def placeReport (i : Nat) (weighted : Bool) (s : State) : State :=
  let p := ownerOf s i
  let s := judgeHorn p (placeOnLists p i s.millTime s)
  let s := if weighted then addLoad p (arrivalWeight (priorityOf s i)) s else s
  placedReport p i s

/-- R30, R31: an UPDATE notice for an annunciation entry. -/
def updateNotice (p : Pos) (i : Nat) (s : State) : State :=
  match (s.lists.get p).ann.find? fun e => e.alarm == i with
  | some e => notify (.console p) (.update i (lifecycleOf s i) e.silenced) s
  | none => s

/-- R30: a RETURN report. -/
def returnReport (i : Nat) (s : State) : State :=
  let p := ownerOf s i
  if onAnn s p i then judgeHorn p (updateNotice p i (setReminder p i none s)) else s

/-- R31: a RERAISE report. -/
def reraiseReport (i : Nat) (weighted : Bool) (s : State) : State :=
  let p := ownerOf s i
  let s :=
    if onAnn s p i then
      let s := modLists p (fun v => { v with ann := v.ann.map fun e => if e.alarm == i then { e with silenced := false } else e }) s
      judgeHorn p (updateNotice p i (setReminder p i (freshReminder s p i) s))
    else s
  if weighted then addLoad p (arrivalWeight (priorityOf s i)) s else s

/-- R41, R42: an ESCALATE notice to P0's console. -/
def escalateNotice (i : Nat) (left : Option Reason) (s : State) : State :=
  notify (.console .p0) (.escalate i (priorityOf s i) (alarmAt s i).defn.area (ownerOf s i) left) s

/-- R42: an alarm leaves the escalation list, with its flag cleared and an ESCALATE notice LEFT. -/
def leaveEscalation (i : Nat) (reason : Reason) (s : State) : State :=
  escalateNotice i (some reason)
    (modDyn i (fun d => { d with escalated := false }) { s with escalation := s.escalation.filter fun e => e.alarm != i })

/-- R41: an alarm enters the escalation list. -/
def enterEscalation (i : Nat) (s : State) : State :=
  let a := (alarmAt s i).dyn
  let s := { s with escalation := insertBy (entryBefore s) ⟨i, a.annTime.getD 0⟩ s.escalation }
  let s := modDyn i (fun d => { d with escalated := true }) s
  escalateNotice i none (append .escalated (some (ownerOf s i)) none (some i) a.reminders s)

/-- R41: an alarm that is due to escalate is judged against the escalation list. -/
def escalate (i : Nat) (s : State) : State :=
  if s.escalation.length < Config.escalationCapacity then enterEscalation i s
  else
    match s.escalation.getLast? with
    | some z =>
      if outranks (rankOf s i ((alarmAt s i).dyn.annTime.getD 0)) (rankOf s z.alarm z.time) then
        enterEscalation i (leaveEscalation z.alarm .displaced (modDyn z.alarm (fun d => { d with reminders := 0 }) s))
      else modDyn i (fun d => { d with reminders := 0 }) s
    | none => s

/-- R32: a REMOVE report. -/
def removeReport (i : Nat) (reason : Reason) (s : State) : State :=
  let p := ownerOf s i
  let listed := isListed s i
  let s :=
    if onAnn s p i then judgeHorn p (promotion p (notify (.console p) (.retract i reason) (leaveAnn p i s)))
    else if onDeferred s p i then refill p (leaveDeferred p i s)
    else s
  let s := modDyn i (fun d => { d with
    overflow := false, annTime := none, reminders := if reason = .acknowledged then 0 else d.reminders }) s
  let s := if (alarmAt s i).dyn.escalated then leaveEscalation i reason s else s
  if listed then removedReport p i s else s

/-! ### ATU -/

/-- R5, R6: a lifecycle is entered. Only HELD and LATCHED have an acknowledger; NORMAL and OUT_OF_SERVICE reset the
reminder count. -/
def AlarmDyn.enter (new : Lifecycle) (acknowledger : Option Nat) (d : AlarmDyn) : AlarmDyn :=
  { d with lifecycle := new,
           acknowledger := if new = .held ∨ new = .latched then acknowledger else none,
           reminders := if new = .normal ∨ new = .outOfService then 0 else d.reminders }

/-- R10, Table 1-5: the lifecycle after a RAISE. -/
def raisedFrom : Lifecycle → Lifecycle
  | .normal | .latched | .returned => .raised
  | lc => lc

/-- R11, Table 1-6: the lifecycle after a CLEAR. -/
def clearedFrom (lc : Lifecycle) (cls : AlarmClass) (withheld : Bool) : Lifecycle :=
  match lc with
  | .raised => if withheld then .normal else .returned
  | .held => if cls = .safety then .latched else .normal
  | lc => lc

/-- R9 to R12, R180: a RAISE of a defined alarm. An ALARM_EVENT is weighted and journaled, an ALARM_STATE is neither. -/
def raiseAlarm (i : Nat) (event : Bool) (s : State) : State :=
  let a := alarmAt s i
  let old := a.dyn.lifecycle
  let new := raisedFrom old
  let s := modDyn i (fun d => { d with input := .active }) s
  if new = old then s
  else
    let s := modDyn i (AlarmDyn.enter new none) s
    let s := if event then append .alarmRaised (some (ownerOf s i)) none (some i) (lifecycleCode old * 256 + a.defn.priority) s else s
    let s :=
      if isWithheld s i then s
      else if old = .returned then reraiseReport i event s
      else placeReport i event s
    lifecycleReport i old new s

/-- R9 to R12, R180: a CLEAR of a defined alarm. -/
def clearAlarm (i : Nat) (event : Bool) (s : State) : State :=
  let a := alarmAt s i
  let old := a.dyn.lifecycle
  let new := clearedFrom old a.defn.cls (isWithheld s i)
  let s := modDyn i (fun d => { d with input := .inactive }) s
  if new = old then s
  else
    let s := modDyn i (AlarmDyn.enter new a.dyn.acknowledger) s
    let s := if event then append .alarmCleared (some (ownerOf s i)) none (some i) (lifecycleCode new * 256 + a.defn.priority) s else s
    let s := if new = .returned then returnReport i s else s
    lifecycleReport i old new s

/-- The result of an acknowledgement of one alarm (R13). -/
inductive AckResult
  | acked | noChange | badState | suppressed
deriving DecidableEq, Repr

/-- R13: the judgement of an acknowledgement. -/
def ackResult (s : State) (i : Nat) : AckResult :=
  let d := (alarmAt s i).dyn
  if d.lifecycle = .outOfService then .badState
  else if d.shelved then .badState
  else if isSuppressed s i then .suppressed
  else if d.lifecycle = .raised ∨ d.lifecycle = .returned then .acked
  else .noChange

/-- R13: the lifecycle after an acknowledgement that changes it. -/
def ackedFrom (lc : Lifecycle) (cls : AlarmClass) : Lifecycle :=
  match lc with
  | .raised => .held
  | .returned => if cls = .safety then .latched else .normal
  | lc => lc

/-- R13, R109: the acknowledgement of one alarm by an operator at a requesting position. -/
def acknowledge (o : Nat) (requesting : Pos) (i : Nat) (s : State) : State :=
  match ackResult s i with
  | .acked =>
    let a := alarmAt s i
    let new := ackedFrom a.dyn.lifecycle a.defn.cls
    let s := modDyn i (AlarmDyn.enter new (some o)) s
    let s := append .acknowledged (some (ownerOf s i)) (some o) (some i) (requesting.num * 256 + lifecycleCode new) s
    lifecycleReport i a.dyn.lifecycle new (removeReport i .acknowledged s)
  | _ => s

/-- R115, R117: the alarm's shelf entry at its owning position. -/
def shelfEntry? (s : State) (p : Pos) (i : Nat) : Option ShelfEntry :=
  (s.lists.get p).shelf.find? fun e => e.alarm == i

/-- R115 to R117: an alarm's shelf entry leaves the shelf list and its shelved flag is cleared. -/
def leaveShelf (p : Pos) (i : Nat) (s : State) : State :=
  modDyn i (fun d => { d with shelved := false })
    (modLists p (fun v => { v with shelf := v.shelf.filter fun e => e.alarm != i }) s)

/-- R115 step 3: an alarm whose shelve has ended is placed if it is RAISED or RETURNED and not suppressed. -/
def placedAfterShelf (s : State) (i : Nat) : Bool :=
  (lifecycleOf s i == .raised || lifecycleOf s i == .returned) && !isSuppressed s i

/-- R115 and R117, steps 3 and 4: the placement, weighted, and the SHELF_ENDED report. -/
def endShelve (p : Pos) (i : Nat) (s : State) : State :=
  shelfEndedReport p i (if placedAfterShelf s i then placeReport i true s else s)

/-! ### ACU -/

/-- R66: ENGAGE and CHANGE_ROLE write the engagement of an operator. -/
def setEngagement (o : Nat) (e : Option (Pos × Role)) (s : State) : State :=
  modOperator o (fun r => { r with engagement := e }) s

/-- R76, R157: a GRANT_ISSUED or GRANT_ENDED entry. -/
def grantEntry (k : EntryKind) (slot : Nat) (g : Grant) (s : State) : State :=
  append k g.binding (some g.operator) g.scope (g.temporary.toNat * 4096 + grantKindCode g.kind * 256 + slot) s

/-- R69: a grant is written into a slot, with its entry (R76). -/
def issueGrant (slot : Nat) (g : Grant) (s : State) : State :=
  grantEntry .grantIssued slot g { s with grants := s.grants.insert slot g }

/-- R69: a grant's slot is emptied, with its entry (R76). -/
def endGrant (slot : Nat) (g : Grant) (s : State) : State :=
  grantEntry .grantEnded slot g { s with grants := s.grants.erase slot }

/-- R65, R75: every grant that meets a condition ends, in slot order. -/
def endGrants (f : Grant → Bool) (s : State) : State :=
  (s.grants.filter fun e => f e.2).foldl (fun s e => endGrant e.1 e.2 s) s

/-- R66, R75: RELEASE: the engagement becomes none, and the operator's temporary grants bound to the position just
left end. -/
def release (o : Nat) (s : State) : State :=
  match engagementOf s o with
  | some (p, _) =>
    endGrants (fun g => g.temporary && g.operator == o && g.binding == some p) (setEngagement o none s)
  | none => s

/-- R67: the badge check of a defined operator, with its effect on the record and its refusal. -/
def badgeCheck (o : Nat) (badge : Word) (s : State) : State × Option (Cause × Nat) :=
  match operator? s o with
  | none => (s, none)
  | some r =>
    if r.locked then (s, some (.locked, o))
    else if r.badge = badge then (modOperator o (fun r => { r with failures := 0 }) s, none)
    else if r.failures < 2 then
      (modOperator o (fun r => { r with failures := r.failures + 1 }) s, some (.badge, r.failures + 1))
    else (modOperator o (fun r => { r with locked := true, failures := 0 }) s, some (.badge, 3))

/-! ### PCU: handovers -/

/-- R121: the HANDOVER notices of a change, read from the context as it stands. -/
def handoverNotices (p : Pos) (change : HandoverChange) (items : Nat) (reason : Option EndReason) (s : State) : State :=
  notifyBoth p (.handover p change (s.positions.get p).holder (s.positions.get p).incoming items reason) s

/-- R122: a handover ends without acceptance. -/
def endHandover (p : Pos) (reason : EndReason) (ender : Option Nat) (s : State) : State :=
  let c := s.positions.get p
  let incoming := c.incoming.getD 0
  let s := modPos p (fun c => { c with timer := none, state := .staffed, incoming := none }) s
  let s := if c.state = .review then modPos p (fun c => { c with items := [] }) (release incoming s) else s
  let s := append .handoverEnded (some p) ender none (endReasonCode reason * 256 + phaseCode c.state * 128 + incoming) s
  handoverNotices p .ended 0 (some reason) s

/-! ### Serving a request (R164, R84, R165) -/

/-- A request's body is judged by checks in order and, where all hold, acted on. -/
def judged (checks : List Check) (s : State) (act : State → State × Answer) : State × Answer :=
  match firstRefusal checks with
  | some (c, v) => (s, .refused c v)
  | none => act s

/-- R85: the ACCESS_REFUSED entry of a refusal at a console, where its cause calls for one. -/
def accessRefused (p : Pos) (o : Nat) (k : Kind) (alarm : Option Nat) (c : Cause) (v : Nat) (s : State) : State :=
  match accessCauseCode? c with
  | none => s
  | some code =>
    let index := if alarm.isSome then alarm else if c = .noGrant ∧ v < 16 then some v else none
    append .accessRefused (some p) (some o) index
      (code * 256 + kindCode k + if c = .badge ∧ v = 3 then 32768 else 0) s

/-- R85 for the answer of a request: a refusal of a console request writes its entry before the reply. -/
def journalRefusal (h : Header) (k : Kind) (alarm : Option Nat) (a : Answer) (s : State) : State :=
  match h.link, a with
  | .console p, .refused c v => accessRefused p h.op k alarm c v s
  | _, _ => s

/-- R164, R165: a good request frame is judged by the LIU, acted on by its owner block, and answered. `alarm` is the
alarm that an alarm action names (R85). -/
def serve (k : Kind) (h : Header) (alarm : Option Nat) (body : State → State × Answer) (s : State) :
    Host.Outcome State Fault Refusal :=
  let s := takeFrame h.link s
  let r := judged (liuChecks k h s) s body
  .next (settle (reply h k r.2 (journalRefusal h k alarm r.2 r.1)))

/-- A console request: its body is given the position whose console link carries it. R164 has refused the plant link
(WRONG_LINK) before the body is reached. -/
def atConsole (h : Header) (body : Pos → State → State × Answer) (s : State) : State × Answer :=
  match h.link with
  | .console p => body p s
  | .plant => (s, .refused .wrongLink 0)

/-- A request that is taken on the plant link without an access check and on P0's console link with the one of a
supervisor request (Table 4-3). -/
def supervisorUnlessPlant (h : Header) (s : State) : List Check :=
  match h.link with
  | .plant => []
  | .console _ => supervisorChecks s h.op

/-- A badge request (R77, R67): the state condition and step 1, then the badge check, then the remaining checks on the
state the badge check left. -/
def badgeRequest (before : List Check) (o : Nat) (badge : Word) (after : State → List Check)
    (act : State → State × Answer) (s : State) : State × Answer :=
  judged (before ++ [definedCheck s o]) s fun s =>
    match badgeCheck o badge s with
    | (s', some (c, v)) => (s', .refused c v)
    | (s', none) => judged (after s') s' act

/-- An event inside the part that takes no reply. -/
def event (act : State → State) (s : State) : Host.Outcome State Fault Refusal := .next (settle (act s))

/-- Section 0.5.2: a timer expires when its count has reached zero (log 1). -/
def isDue (remaining : Option Nat) : Bool := remaining == some 0

end Sys2Proof.Machine
end

