-- ==== Sys2Proof/Machine/Access.lean ====
section
/-! DEFINITION. Chapter 4: operator records, grants, unlocking, and reading an operator. -/

namespace Sys2Proof.Machine

/-! ### DEFINE_OPERATOR (R65) -/

/-- R65, R70, R86: an operator id lies in 1 to 64. -/
def operatorIdCheck (o : Nat) : Check := ⟨decide (1 ≤ o) && decide (o ≤ 64), .malformed, o⟩

/-- R65: the checks; the present value is yes or no. -/
def operatorChecks (s : State) (o present level : Nat) : List Check :=
  [operatorIdCheck o, ⟨decide (level ≤ 3), .malformed, level⟩, ⟨decide (present ≤ 1), .malformed, present⟩,
   ⟨engagementOf s o == none, .operatorEngaged, o⟩]

/-- R65: the record of an operator with present yes: the badge code and level written, unlocked, no failures. -/
def presentRecord (badge : Word) (level : Nat) (old : Option Operator) : Operator :=
  { badge := badge, level := level, locked := false, failures := 0, engagement := old.bind (·.engagement) }

/-- R65: present no removes the record and the operator's grants. -/
def removeOperator (o : Nat) (s : State) : State :=
  endGrants (fun g => g.operator == o) { s with operators := s.operators.erase o }

/-- R65: the effect of a taken DEFINE_OPERATOR. -/
def defineOperator (o present : Nat) (badge : Word) (level : Nat) (s : State) : State :=
  if present = 1 then { s with operators := s.operators.insert o (presentRecord badge level (operator? s o)) }
  else if (operator? s o).isSome then removeOperator o s
  else s

/-- R65: DEFINE_OPERATOR. -/
def execDefineOperator (h : Header) (id present : Nat) (badge : Word) (level : Nat) (s : State) :
    Host.Outcome State Fault Refusal :=
  serve .defineOperator h none (fun s =>
    judged (operatorChecks s id present level) s fun s =>
      (defineOperator id present badge level s, doneWith (be8 id ++ be8 present))) s

/-! ### Grants (R70 to R74) -/

/-- R70, R73: the slot of a present grant equal to a descriptor. -/
def sameGrant? (s : State) (g : Grant) : Option Nat := (s.grants.find? fun e => e.2 == g).map (·.1)

/-- R70 steps 3 and 4, R73 steps 5 and 6: no such grant is present, and the table has an empty slot. -/
def newGrantChecks (s : State) (g : Grant) : List Check :=
  [⟨(sameGrant? s g).isNone, .duplicate, (sameGrant? s g).getD 0⟩,
   ⟨(freeSlot? Config.grantSlots s.grants).isSome, .tableFull, 256⟩]

/-- R69: a new grant takes the lowest-numbered empty slot. -/
def newGrant (g : Grant) (s : State) : State := issueGrant ((freeSlot? Config.grantSlots s.grants).getD 0) g s

/-- The kind of a code that has been judged. -/
def grantKindOf (kind : Nat) : GrantKind := (grantKindOf? kind).getD .operate

/-- R70: the descriptor of a DEFINE_GRANT. -/
def permanentGrant (id kind scope binding : Nat) : Grant :=
  { operator := id, kind := grantKindOf kind, scope := (scopeOf? scope).getD none,
    binding := (bindingOf? binding).getD none, temporary := false }

/-- R70, R73: the kind and the scope are among those the rule names. -/
def kindScopeChecks (kind scope : Nat) : List Check :=
  [⟨(grantKindOf? kind).isSome, .malformed, kind⟩, ⟨(scopeOf? scope).isSome, .malformed, scope⟩]

/-- R70 steps 1 and 2. -/
def defineGrantChecks (s : State) (id kind scope binding : Nat) : List Check :=
  operatorIdCheck id :: kindScopeChecks kind scope ++
    [⟨(bindingOf? binding).isSome, .malformed, binding⟩, definedCheck s id]

/-- R70: DEFINE_GRANT. -/
def execDefineGrant (h : Header) (id kind scope binding : Nat) (s : State) : Host.Outcome State Fault Refusal :=
  serve .defineGrant h none (fun s =>
    let g := permanentGrant id kind scope binding
    judged (defineGrantChecks s id kind scope binding ++ newGrantChecks s g) s fun s =>
      (newGrant g s, doneWith (be8 ((freeSlot? Config.grantSlots s.grants).getD 0)))) s

/-- What the fields of an empty slot read as; every rule judges the slot first. -/
def blankGrant : Grant := { operator := 0, kind := .operate, scope := none, binding := none, temporary := false }

/-- R72, R74: the grant of a slot that has been judged present. -/
def grantIn (s : State) (slot : Nat) : Grant := (s.grants.get? slot).getD blankGrant

/-- R72, R74 steps 1 and 2. -/
def slotChecks (s : State) (slot : Nat) : List Check :=
  [⟨decide (slot < Config.grantSlots), .malformed, slot⟩, ⟨(s.grants.get? slot).isSome, .unknownIndex, slot⟩]

/-- R72 step 3, R74 step 4: the grant is not in use. -/
def inUseCheck (s : State) (slot : Nat) : Check :=
  let lost := inUse? s slot (grantIn s slot)
  ⟨lost.isNone, .grantInUse, lost.getD 0⟩

/-- R69, Table 4-2: a descriptor as read. -/
def grantFields (g : Grant) : List Byte :=
  be8 g.operator ++ be8 (grantKindCode g.kind) ++ be8 (scopeCode g.scope) ++ be8 (bindingCode g.binding) ++
    beBool g.temporary

/-- R72: REVOKE_GRANT. -/
def execRevokeGrant (h : Header) (slot : Nat) (s : State) : Host.Outcome State Fault Refusal :=
  serve .revokeGrant h none (fun s =>
    judged (slotChecks s slot ++ [inUseCheck s slot]) s fun s =>
      let g := grantIn s slot
      (endGrant slot g s, doneWith (be16 slot ++ grantFields g))) s

/-- R73: the descriptor of a GRANT_TEMPORARY, bound to the target's engagement position. -/
def temporaryGrant (s : State) (target kind scope : Nat) : Grant :=
  { operator := target, kind := grantKindOf kind, scope := (scopeOf? scope).getD none,
    binding := (engagementOf s target).map (·.1), temporary := true }

/-- R73 steps 2 to 4. -/
def targetChecks (s : State) (target kind : Nat) : List Check :=
  [⟨grantKindOf? kind != some .supervise, .badState, target⟩, definedCheck s target,
   ⟨(engagementOf s target).isSome, .badState, target⟩]

/-- R73: GRANT_TEMPORARY. Its kind and scope are judged after the access check, as R73 orders them (log 10). -/
def execGrantTemporary (h : Header) (target kind scope : Nat) (s : State) : Host.Outcome State Fault Refusal :=
  serve .grantTemporary h none (fun s =>
    let g := temporaryGrant s target kind scope
    judged (supervisorChecks s h.op ++ kindScopeChecks kind scope ++ targetChecks s target kind ++ newGrantChecks s g) s
      fun s => (newGrant g s,
        doneWith (be8 ((freeSlot? Config.grantSlots s.grants).getD 0) ++ be8 (bindingCode g.binding)))) s

/-- R74: GRANT_END. -/
def execGrantEnd (h : Header) (slot : Nat) (s : State) : Host.Outcome State Fault Refusal :=
  serve .grantEnd h none (fun s =>
    judged (supervisorChecks s h.op ++ slotChecks s slot ++
        [⟨(grantIn s slot).temporary, .badState, slot⟩, inUseCheck s slot]) s fun s =>
      (endGrant slot (grantIn s slot) s, .done [] false)) s

/-! ### OPERATOR_UNLOCK and OPERATOR_READ (R68, R86) -/

/-- R68: the record is unlocked and its failure count set to 0. -/
def unlock (o : Nat) (s : State) : State := modOperator o (fun r => { r with locked := false, failures := 0 }) s

/-- The locked state of an operator. -/
def isLocked (s : State) (o : Nat) : Bool := ((operator? s o).map (·.locked)).getD false

/-- R68: OPERATOR_UNLOCK. An id outside 1 to 64 is judged as one that is not defined: UNKNOWN_OPERATOR after the access check,
as R68 gives, where step 1 of R77 would give MALFORMED. DESIGN CHOICE, unsafe (log 31). -/
def execOperatorUnlock (h : Header) (id : Nat) (s : State) : Host.Outcome State Fault Refusal :=
  serve .operatorUnlock h none (fun s =>
    judged (supervisorChecks s h.op ++ [definedCheck s id]) s fun s =>
      (unlock id s, doneWith (be8 (resultCode (if isLocked s id then .changed else .noChange))))) s

/-- R86, Table 10-10: an engagement, the position and then the role. -/
def engagementFields (e : Option (Pos × Role)) : List Byte :=
  be8Opt (e.map fun x => x.1.num) ++ be8Opt (e.map fun x => roleCode x.2)

/-- R86: the record of an operator, as the leading element gives it. -/
def operatorFields (s : State) (o : Nat) : List Byte :=
  let r := operator? s o
  beBool r.isSome ++ be8Opt (r.map (·.level)) ++ beBool (isLocked s o) ++ be8 ((r.map (·.failures)).getD 0) ++
    engagementFields (engagementOf s o)

/-- R86: OPERATOR_READ. -/
def execOperatorRead (h : Header) (id : Nat) (s : State) : Host.Outcome State Fault Refusal :=
  serve .operatorRead h none (fun s =>
    judged (operatorIdCheck id :: supervisorUnlessPlant h s) s fun s =>
      let held := s.grants.filter fun e => e.2.operator == id
      (s, .done ((operatorFields s id ++ be16 held.length) ::
        held.map fun e => be8 e.1 ++ grantFields e.2) false)) s

end Sys2Proof.Machine
end

