-- ==== Sys2Proof/Machine/Acks.lean ====
section
/-! DEFINITION. Chapter 6: acknowledgement, shelving, latch reset, and reading a shelf list. -/

namespace Sys2Proof.Machine

/-- R77, Table 4-3: the form and the access check of a request that names one alarm: the index, steps 1 and 3, and
steps 4 to 6 for grant kind `k` and a level limit. -/
def alarmActionChecks (s : State) (o i : Nat) (k : GrantKind) (limit : Nat) (p : Pos) : List Check :=
  indexChecks s i ++ [definedCheck s o, holderCheck s o p] ++ alarmChecks s o i k limit p

/-- Table 1-1: the ack level of an alarm. -/
def ackLevelOf (s : State) (i : Nat) : Nat := (alarmAt s i).defn.ackLevel

/-! ### ACK and ACK_LIST (R109, R110) -/

/-- R109: the ATU's refusals of an acknowledgement. -/
def ackRefusal (s : State) (i : Nat) : Option (Cause × Nat) :=
  match ackResult s i with
  | .badState => some (.badState, i)
  | .suppressed => some (.suppressed, i)
  | _ => none

/-- Table 10-11: the outcome of an acknowledgement that the ATU does not refuse. -/
def ackOutcome (s : State) (i : Nat) : Nat := resultCode (if ackResult s i = .acked then .acked else .noChange)

/-- R109: an acknowledgement that passed the access check. -/
def ackAnswer (o : Nat) (p : Pos) (i : Nat) (s : State) : State × Answer :=
  match ackRefusal s i with
  | some (c, v) => (s, .refused c v)
  | none =>
    let t := acknowledge o p i s
    (t, doneWith (be8 (ackOutcome s i) ++ be16 i ++ be8 (lifecycleCode (lifecycleOf t i))))

/-- R109: ACK. -/
def execAck (h : Header) (i : Nat) (s : State) : Host.Outcome State Fault Refusal :=
  serve .ack h (some i) (atConsole h fun p s =>
    judged (alarmActionChecks s h.op i .operate (ackLevelOf s i) p) s (ackAnswer h.op p i)) s

/-- R110: the element of an index whose outcome is a refusal. -/
def refusedElement (i : Nat) (c : Cause) (v : Nat) : List Byte := be16 i ++ be8 (causeCode c) ++ be16 v

/-- R110: one named index is worked through; the elements so far are kept. -/
def ackOne (o : Nat) (p : Pos) (r : State × List (List Byte)) (i : Nat) : State × List (List Byte) :=
  let s := r.1
  if isDefined s i then
    match firstRefusal (alarmChecks s o i .operate (ackLevelOf s i) p) with
    | some (c, v) => (accessRefused p o .ackList (some i) c v s, r.2 ++ [refusedElement i c v])
    | none =>
      match ackRefusal s i with
      | some (c, v) => (s, r.2 ++ [refusedElement i c v])
      | none =>
        let t := acknowledge o p i s
        (t, r.2 ++ [be16 i ++ be8 (ackOutcome s i) ++ be8 (lifecycleCode (lifecycleOf t i))])
  else (s, r.2 ++ [refusedElement i .unknownIndex i])

/-- R110, R176: the count, the length that it announces, and the range of each index. -/
def ackListChecks (len count : Nat) (indices : List Nat) : List Check :=
  [⟨decide (1 ≤ count) && decide (count ≤ 8), .malformed, count⟩, ⟨decide (2 + 2 * count ≤ len), .malformed, len⟩,
   ⟨indices.all (decide <| · ≤ Config.maxAlarmIndex), .malformed,
     (indices.find? (decide <| Config.maxAlarmIndex < ·)).getD 0⟩]

/-- R110: ACK_LIST. -/
def execAckList (h : Header) (count : Nat) (indices : List Nat) (s : State) : Host.Outcome State Fault Refusal :=
  serve .ackList h none (atConsole h fun p s =>
    judged (ackListChecks h.len count indices ++ [definedCheck s h.op, holderCheck s h.op p]) s fun s =>
      let r := indices.foldl (ackOne h.op p) (s, [])
      (r.1, .done r.2 false)) s

/-! ### SHELVE (R112, R113) -/

/-- R112: the conditions of the PLU. ITEMS_FULL has the position as subject (R129). -/
def shelveChecks (s : State) (i : Nat) : List Check :=
  let a := alarmAt s i
  let p := ownerOf s i
  [⟨a.defn.shelvable, .notShelvable, i⟩, ⟨a.dyn.lifecycle != .outOfService, .badState, i⟩,
   ⟨!isSuppressed s i, .suppressed, i⟩,
   ⟨a.dyn.shelved || decide ((s.lists.get p).shelf.length < Config.shelfCapacity), .shelfFull, i⟩,
   ⟨a.dyn.shelved || roomForItem s p, .itemsFull, p.num⟩]

/-- R112: the effective duration. -/
def effectiveDuration (s : State) (i duration : Nat) : Nat := clamp 60 (alarmAt s i).defn.maxShelve duration

/-- R108, R112, R113: the shelf entry that a SHELVE makes or renews. -/
def shelfRecord (s : State) (o i effective : Nat) : ShelfEntry :=
  { alarm := i, operator := o, shelveTime := s.millTime, remaining := effective, effective := effective }

/-- R112 step 2: a shelf entry is inserted at the place its expiry gives it. -/
def putShelf (p : Pos) (o i effective : Nat) (s : State) : State :=
  modLists p (fun v => { v with shelf := insertBy shelfBefore (shelfRecord s o i effective) v.shelf }) s

/-- R113: the alarm's standing entry is taken out, and inserted again as renewed at its new place. -/
def renewShelf (p : Pos) (o i effective : Nat) (s : State) : State :=
  if (shelfEntry? s p i).isSome then
    putShelf p o i effective (modLists p (fun v => { v with shelf := v.shelf.filter fun x => x.alarm != i }) s)
  else s

/-- R112 steps 1 to 5: a SHELVE of an alarm that is not shelved. -/
def firstShelve (o i effective : Nat) (s : State) : State :=
  let p := ownerOf s i
  let s := putShelf p o i effective (modDyn i (fun d => { d with shelved := true }) s)
  let s := append .shelved (some p) (some o) (some i) effective s
  let s := if isListed s i || (alarmAt s i).dyn.escalated then removeReport i .shelved s else s
  shelvedReport p i effective false s

/-- R113: a SHELVE of an alarm that is already shelved. -/
def renewShelve (o i effective : Nat) (s : State) : State :=
  let p := ownerOf s i
  shelvedReport p i effective true (append .shelved (some p) (some o) (some i) effective (renewShelf p o i effective s))

/-- R112, R176: the effective duration of a SHELVE, with its mark. -/
def effectiveFields (duration effective : Nat) : List Byte := be16 effective ++ clampMark duration effective

/-- R112 step 6: the DONE reply of a first SHELVE: the index, the duration with its mark, the lifecycle and the outcome. -/
def shelvedAnswer (s : State) (i duration effective : Nat) : Answer :=
  doneWith (be16 i ++ effectiveFields duration effective ++ be8 (lifecycleCode (lifecycleOf s i)) ++
    be8 (resultCode .shelved))

/-- R113: the DONE reply of a renewing SHELVE: the outcome, and the duration with its mark. -/
def renewedAnswer (duration effective : Nat) : Answer :=
  doneWith (be8 (resultCode .renewed) ++ effectiveFields duration effective)

/-- R112, R113: a SHELVE that passed its conditions. -/
def shelve (o i duration : Nat) (s : State) : State × Answer :=
  let e := effectiveDuration s i duration
  if (alarmAt s i).dyn.shelved then (renewShelve o i e s, renewedAnswer duration e)
  else (firstShelve o i e s, shelvedAnswer s i duration e)

/-- R112, R113: SHELVE. -/
def execShelve (h : Header) (i duration : Nat) (s : State) : Host.Outcome State Fault Refusal :=
  serve .shelve h (some i) (atConsole h fun p s =>
    judged (alarmActionChecks s h.op i .shelve (ackLevelOf s i) p ++ shelveChecks s i) s (shelve h.op i duration)) s

/-! ### The end of a shelve (R115, R117) -/

/-- What the fields of an absent shelf entry read as; the rules act on an entry that stands. -/
def blankShelf : ShelfEntry := { alarm := 0, operator := 0, shelveTime := 0, remaining := 0, effective := 0 }

/-- The alarm's shelf entry at its owning position. -/
def shelfEntryOf (s : State) (i : Nat) : ShelfEntry := (shelfEntry? s (ownerOf s i) i).getD blankShelf

/-- R117: the work of UNSHELVE. -/
def unshelveAlarm (o i : Nat) (s : State) : State :=
  let p := ownerOf s i
  endShelve p i (append .unshelved (some p) (some o) (some i) (shelfEntryOf s i).remaining (leaveShelf p i s))

/-- R117: UNSHELVE. -/
def execUnshelve (h : Header) (i : Nat) (s : State) : Host.Outcome State Fault Refusal :=
  serve .unshelve h (some i) (atConsole h fun p s =>
    judged (alarmActionChecks s h.op i .shelve (ackLevelOf s i) p ++ [⟨(alarmAt s i).dyn.shelved, .badState, i⟩]) s fun s =>
      (unshelveAlarm h.op i s,
        doneWith (be16 i ++ be8 (lifecycleCode (lifecycleOf s i)) ++ beBool (placedAfterShelf s i)))) s

/-- R115: the work of a shelf expiry. -/
def expireShelf (i : Nat) (s : State) : State :=
  let p := ownerOf s i
  endShelve p i (append .shelfExpired (some p) none (some i) (shelfEntryOf s i).effective (leaveShelf p i s))

/-- R115: a shelf entry that is due. -/
def shelfDue (s : State) (i : Nat) : Bool :=
  (s.lists.get (ownerOf s i)).shelf.any fun e => e.alarm == i && e.remaining == 0

/-- R115: SHELF_EXPIRY. -/
def execShelfExpiry (i : Nat) (s : State) : Host.Outcome State Fault Refusal :=
  event (fun s => if shelfDue s i then expireShelf i s else s) s

/-! ### LATCH_RESET (R14, R118) -/

/-- R14, R118: a latched alarm is reset. -/
def resetLatch (o : Nat) (requesting : Pos) (i : Nat) (s : State) : State :=
  let s := modDyn i (AlarmDyn.enter .normal none) s
  lifecycleReport i .latched .normal
    (append .latchReset (some (ownerOf s i)) (some o) (some i) requesting.num s)

/-- R118: LATCH_RESET. -/
def execLatchReset (h : Header) (i : Nat) (s : State) : Host.Outcome State Fault Refusal :=
  serve .latchReset h (some i) (atConsole h fun p s =>
    judged (alarmActionChecks s h.op i .latchReset (min (ackLevelOf s i) 1) p ++
        [⟨lifecycleOf s i == .latched, .badState, i⟩]) s fun s =>
      (resetLatch h.op p i s, doneWith (be16 i ++ be8 (lifecycleCode .normal)))) s

/-! ### SHELF_READ (R120) -/

/-- R120: the element of a shelf entry. -/
def shelfElement (s : State) (e : ShelfEntry) : List Byte :=
  be16 e.alarm ++ be8 e.operator ++ beWord e.shelveTime ++ be16 e.remaining ++ be16 e.effective ++
    be8 (priorityOf s e.alarm) ++ be8 (alarmAt s e.alarm).defn.area ++ be8 (lifecycleCode (lifecycleOf s e.alarm))

/-- R120: SHELF_READ. -/
def execShelfRead (h : Header) (position : Nat) (s : State) : Host.Outcome State Fault Refusal :=
  serve .shelfRead h none (fun s =>
    judged [positionCheck position] s fun s =>
      let es := (s.lists.get ((Pos.ofNum? position).getD .p0)).shelf
      (s, .done (be16 es.length :: es.map (shelfElement s)) false)) s

end Sys2Proof.Machine
end

