-- ==== Sys2Proof/Machine/Alarms.lean ====
section
/-! DEFINITION. Chapter 1 and R180: the commands of the gateway on alarm points. -/

namespace Sys2Proof.Machine

/-! ### DEFINE_ALARM (R2 to R4) -/

/-- R2 step 2: the ranges, in the field order of Table 1-1. -/
def alarmRanges (f : AlarmFields) : List Check :=
  [⟨decide (f.area ≤ 15), .malformed, f.area⟩,
   ⟨decide (1 ≤ f.priority) && decide (f.priority ≤ 4), .malformed, f.priority⟩,
   ⟨(classOf? f.cls).isSome, .malformed, f.cls⟩,
   ⟨decide (f.ackLevel ≤ 3), .malformed, f.ackLevel⟩,
   ⟨decide (f.group ≤ 31), .malformed, f.group⟩]

/-- R4: a redefinition is taken in UNCONFIGURED, and otherwise while the alarm is NORMAL or OUT_OF_SERVICE and not
shelved. -/
def redefinable (s : State) (i : Nat) : Bool :=
  let d := (alarmAt s i).dyn
  s.runState == .unconfigured || ((d.lifecycle == .normal || d.lifecycle == .outOfService) && !d.shelved)

/-- R2: the definition as stored, with the in-service value that R3 or R4 gives it. -/
def storedDefinition (f : AlarmFields) (inService : Bool) : AlarmDef :=
  let cls := (classOf? f.cls).getD .process
  { area := f.area, priority := f.priority, cls := cls, ackLevel := f.ackLevel,
    group := if cls = .safety then 0 else f.group,
    shelvable := if cls = .safety then false else f.shelvable != 0,
    maxShelve := clamp 60 28800 f.maxShelve, reminder := clamp 30 3600 f.reminder,
    escalation := clamp 0 15 f.escalation, inService := inService }

/-- R3: the dynamic record of a new alarm. -/
def newRecord (inService : Bool) : AlarmDyn :=
  { input := .unknown, lifecycle := if inService then .normal else .outOfService, acknowledger := none, shelved := false,
    escalated := false, overflow := false, annTime := none, reminders := 0 }

/-- R3, R4: the alarm that a taken DEFINE_ALARM leaves, from the alarm the index had. -/
def definedAlarm (f : AlarmFields) (unconfigured : Bool) (old : Option Alarm) : Alarm :=
  let requested := f.inService != 0
  match old with
  | none => { defn := storedDefinition f requested, dyn := newRecord requested }
  | some a =>
    if unconfigured then
      { defn := storedDefinition f requested,
        dyn := a.dyn.enter (if requested then .normal else .outOfService) none }
    else
      { defn := storedDefinition f a.defn.inService, dyn := { a.dyn with reminders := 0 } }

/-- R2, R176: the definition as stored, each value followed by its adjustment mark. R2 names every field whose stored
value differs from the requested one, but gives marks only for what a range limit or the SAFETY class changed; the
in-service field that a redefinition in RESYNC or RUNNING keeps (R4) is sent unmarked. DESIGN CHOICE, unsafe (log 26). -/
def definitionMarks (f : AlarmFields) (d : AlarmDef) : List Byte :=
  be16 f.index ++ be8 0 ++ be8 d.area ++ be8 0 ++ be8 d.priority ++ be8 0 ++ be8 (classCode d.cls) ++ be8 0 ++
    be8 d.ackLevel ++ be8 0 ++ be8 d.group ++ forceMark f.group d.group ++
    beBool d.shelvable ++ forceMark (f.shelvable != 0).toNat d.shelvable.toNat ++
    be16 d.maxShelve ++ clampMark f.maxShelve d.maxShelve ++ be16 d.reminder ++ clampMark f.reminder d.reminder ++
    be8 d.escalation ++ clampMark f.escalation d.escalation ++ beBool d.inService ++ be8 0

/-- R2 to R4: DEFINE_ALARM. -/
def execDefineAlarm (h : Header) (f : AlarmFields) (s : State) : Host.Outcome State Fault Refusal :=
  serve .defineAlarm h none (fun s =>
    judged (⟨decide (f.index ≤ Config.maxAlarmIndex), .unknownIndex, f.index⟩ :: alarmRanges f ++
            [⟨!isDefined s f.index || redefinable s f.index, .badState, f.index⟩]) s fun s =>
      let a := definedAlarm f (s.runState == .unconfigured) (alarm? s f.index)
      ({ s with alarms := s.alarms.insert f.index a }, doneWith (definitionMarks f a.defn))) s

/-! ### GROUP_MASK (R17 to R20) -/

/-- The number of groups of a group set. -/
def groupCount (groups : Word) : Nat := (List.range 32).countP fun g => groups.getLsbD g

/-- R17: the set is not empty and lies within 1 to 31. -/
def groupSetCheck (groups : Word) : Check := ⟨groups != 0 && !groups.getLsbD 0, .malformed, 0⟩

/-- R18: masking acts on one alarm of a changed group. The number counts the alarms removed from lists (R17): every listed
alarm that leaves, one that was listed by its overflow flag alone included. DESIGN CHOICE, unsafe (log 27). -/
def maskAlarm (changed : Word) (r : State × Nat) (i : Nat) : State × Nat :=
  let s := r.1
  let a := alarmAt s i
  if changed.getLsbD a.defn.group then
    let n := r.2 + (isListed s i).toNat
    match a.dyn.lifecycle, a.dyn.shelved with
    | .raised, false => (removeReport i .suppressed s, n)
    | .returned, false =>
      (lifecycleReport i .returned .normal (removeReport i .normal (modDyn i (AlarmDyn.enter .normal none) s)), n)
    | .returned, true => (lifecycleReport i .returned .normal (modDyn i (AlarmDyn.enter .normal none) s), r.2)
    | _, _ => r
  else r

/-- R19: unmasking acts on one alarm of a changed group. The number counts the alarms placed. -/
def unmaskAlarm (changed : Word) (r : State × Nat) (i : Nat) : State × Nat :=
  let s := r.1
  let a := alarmAt s i
  if changed.getLsbD a.defn.group && (a.dyn.lifecycle == .raised || a.dyn.lifecycle == .returned) && !a.dyn.shelved then
    (placeReport i true s, r.2 + 1)
  else r

/-- R17: the entry of a request that changed at least one group. -/
def suppressionEntry (action : Nat) (changed : Word) (s : State) : State :=
  if changed = 0 then s else append .suppressionChanged none none none (action * 256 + groupCount changed) s

/-- The defined indices, ascending (R20). -/
def definedIndices (s : State) : List Nat := s.alarms.map Prod.fst

/-- R18: GROUP_MASK with action MASK. -/
def execGroupMaskMask (h : Header) (action : Nat) (groups : Word) (s : State) : Host.Outcome State Fault Refusal :=
  serve .groupMask h none (fun s =>
    judged [⟨action == 1, .malformed, action⟩, groupSetCheck groups] s fun s =>
      let changed := groups &&& ~~~s.mask
      let s := suppressionEntry 1 changed { s with mask := s.mask ||| groups }
      let r := (definedIndices s).foldl (maskAlarm changed) (s, 0)
      (r.1, doneWith (beWord r.1.mask ++ be16 r.2 ++ be16 0))) s

/-- R19: GROUP_MASK with action UNMASK. -/
def execGroupMaskUnmask (h : Header) (groups : Word) (s : State) : Host.Outcome State Fault Refusal :=
  serve .groupMask h none (fun s =>
    judged [groupSetCheck groups] s fun s =>
      let changed := groups &&& s.mask
      let s := suppressionEntry 0 changed { s with mask := s.mask &&& ~~~groups }
      let r := (definedIndices s).foldl (unmaskAlarm changed) (s, 0)
      (r.1, doneWith (beWord r.1.mask ++ be16 0 ++ be16 r.2))) s

/-! ### Plant events (R9 to R12, R180) -/

/-- R1: an undefined index is refused with UNKNOWN_INDEX. -/
def definedIndexCheck (s : State) (i : Nat) : Check := ⟨isDefined s i, .unknownIndex, i⟩

/-- R9: the result of an event, CHANGED when the lifecycle changed. -/
def changeResult (before after : Lifecycle) : Result := if before = after then .noChange else .changed

/-- R9: the reply of an ALARM_EVENT and of an ALARM_STATE. -/
def eventAnswer (i : Nat) (before after : State) : Answer :=
  doneWith (be8 (resultCode (changeResult (lifecycleOf before i) (lifecycleOf after i))) ++
    be8 (lifecycleCode (lifecycleOf after i)))

/-- R9, R10: ALARM_EVENT, RAISE. An event byte without a code is refused at form (R176). -/
def execAlarmEventRaise (h : Header) (i event : Nat) (s : State) : Host.Outcome State Fault Refusal :=
  serve .alarmEvent h none (fun s =>
    judged [⟨event == 1, .malformed, event⟩, definedIndexCheck s i] s fun s =>
      (raiseAlarm i true s, eventAnswer i s (raiseAlarm i true s))) s

/-- R9, R11: ALARM_EVENT, CLEAR. -/
def execAlarmEventClear (h : Header) (i : Nat) (s : State) : Host.Outcome State Fault Refusal :=
  serve .alarmEvent h none (fun s =>
    judged [definedIndexCheck s i] s fun s => (clearAlarm i true s, eventAnswer i s (clearAlarm i true s))) s

/-- R180: ALARM_STATE is refused in RUNNING. -/
def resyncCheck (s : State) : Check := ⟨s.runState != .running, .badState, runStateCode s.runState⟩

/-- R180: ALARM_STATE, ACTIVE. A state byte without a code is refused at form (R176). -/
def execAlarmStateActive (h : Header) (i state : Nat) (s : State) : Host.Outcome State Fault Refusal :=
  serve .alarmState h none (fun s =>
    judged [⟨state == 1, .malformed, state⟩, resyncCheck s, definedIndexCheck s i] s fun s =>
      (raiseAlarm i false s, eventAnswer i s (raiseAlarm i false s))) s

/-- R180: ALARM_STATE, INACTIVE. -/
def execAlarmStateInactive (h : Header) (i : Nat) (s : State) : Host.Outcome State Fault Refusal :=
  serve .alarmState h none (fun s =>
    judged [resyncCheck s, definedIndexCheck s i] s fun s =>
      (clearAlarm i false s, eventAnswer i s (clearAlarm i false s))) s

/-! ### Service state (R15, R16) -/

/-- R7: the in-service field follows the lifecycle. -/
def setService (i : Nat) (b : Bool) (s : State) : State :=
  modAlarm i (fun a => { a with defn := { a.defn with inService := b } }) s

/-- R15, R116: an alarm in service is taken out of service. -/
def takeOutOfService (i : Nat) (s : State) : State :=
  let a := alarmAt s i
  let p := ownerOf s i
  let s := setService i false (modDyn i (AlarmDyn.enter .outOfService none) s)
  let s := if a.dyn.shelved then shelfEndedReport p i (leaveShelf p i s) else s
  let s := append .outOfService (some p) none (some i) (lifecycleCode a.dyn.lifecycle) s
  let s := if isListed s i || a.dyn.escalated then removeReport i .outOfService s else s
  lifecycleReport i a.dyn.lifecycle .outOfService s

/-- R15: OUT_OF_SERVICE. -/
def execOutOfService (h : Header) (i : Nat) (s : State) : Host.Outcome State Fault Refusal :=
  serve .outOfService h none (fun s =>
    judged [definedIndexCheck s i] s fun s =>
      if lifecycleOf s i = .outOfService then (s, doneWith (be8 (resultCode .noChange)))
      else (takeOutOfService i s, doneWith (be8 (resultCode .changed)))) s

/-- R16: an alarm out of service returns to service. -/
def returnAlarm (i : Nat) (s : State) : State :=
  let new := if (alarmAt s i).dyn.input = .active then Lifecycle.raised else .normal
  let s := setService i true (modDyn i (AlarmDyn.enter new none) s)
  let s := append .returnedToService (some (ownerOf s i)) none (some i) (lifecycleCode new) s
  let s := if new = .raised ∧ isSuppressed s i = false then placeReport i true s else s
  lifecycleReport i .outOfService new s

/-- R16: RETURN_TO_SERVICE. -/
def execReturnToService (h : Header) (i : Nat) (s : State) : Host.Outcome State Fault Refusal :=
  serve .returnToService h none (fun s =>
    judged [definedIndexCheck s i] s fun s =>
      if lifecycleOf s i = .outOfService then
        let t := returnAlarm i s
        (t, doneWith (be8 (resultCode .changed) ++ be8 (lifecycleCode (lifecycleOf t i))))
      else (s, doneWith (be8 (resultCode .noChange)))) s

/-! ### ALARM_READ (R21) -/

/-- R21: the definition in the order of Table 1-1, the record in the order of Table 1-2, the suppressed condition and
the owning position. -/
def alarmFields (s : State) (i : Nat) : List Byte :=
  let d := (alarmAt s i).defn
  let r := (alarmAt s i).dyn
  be16 i ++ be8 d.area ++ be8 d.priority ++ be8 (classCode d.cls) ++ be8 d.ackLevel ++ be8 d.group ++ beBool d.shelvable ++
    be16 d.maxShelve ++ be16 d.reminder ++ be8 d.escalation ++ beBool d.inService ++
    be8 (inputCode r.input) ++ be8 (lifecycleCode r.lifecycle) ++ be8Opt r.acknowledger ++ beBool r.shelved ++
    beBool r.escalated ++ beBool r.overflow ++ beWordOpt r.annTime ++ be8 r.reminders ++
    beBool (isSuppressed s i) ++ bePos (ownerOf s i)

/-- R21: ALARM_READ. It passes no access check, and an index above 2047 is refused as an undefined one, with
UNKNOWN_INDEX (R1, R21), where R77 step 1 would give a console request MALFORMED. DESIGN CHOICE, unsafe (log 28). -/
def execAlarmRead (h : Header) (i : Nat) (s : State) : Host.Outcome State Fault Refusal :=
  serve .alarmRead h none (fun s => judged [definedIndexCheck s i] s fun s => (s, doneWith (alarmFields s i))) s

end Sys2Proof.Machine
end

