-- ==== Sys2Proof/Machine/Desks.lean ====
section
/-! DEFINITION. Chapter 5: configuring a position, taking and leaving a desk, areas, the bypass register, notes, and
reading a position. -/

namespace Sys2Proof.Machine

/-! ### DEFINE_POSITION (R91, R49) -/

/-- R91: the configuration fields of a context as stored. -/
def PosContext.configured (f : PositionFields) (c : PosContext) : PosContext :=
  { c with staffing := clamp 0 3 f.staffing, offerTimeout := clamp 30 900 f.offer, reviewTimeout := clamp 60 1800 f.review,
           reliefLimit := clamp 300 7200 f.relief, holdTime := clamp 2 60 f.hold }

/-- R49: the load configuration as stored; X is judged against the E just stored. -/
def PosLoad.configured (f : PositionFields) (d : PosLoad) : PosLoad :=
  let e := clamp 1 65535 f.e
  { d with k := clamp 1 255 f.k, e := e, h := clamp 1 65535 f.h, x := if f.x < e then f.x else e - 1 }

/-- R91, R49: a position is configured, and its flood mode evaluated. -/
def configure (p : Pos) (f : PositionFields) (s : State) : State :=
  evaluateFlood p (modLoad p (PosLoad.configured f) (modPos p (PosContext.configured f) s))

/-- R91, R176: every stored value, each followed by its adjustment mark. -/
def positionMarks (s : State) (p : Pos) (f : PositionFields) : List Byte :=
  let c := s.positions.get p
  let d := s.loads.get p
  be8 c.staffing ++ clampMark f.staffing c.staffing ++ be16 c.offerTimeout ++ clampMark f.offer c.offerTimeout ++
    be16 c.reviewTimeout ++ clampMark f.review c.reviewTimeout ++ be16 c.reliefLimit ++ clampMark f.relief c.reliefLimit ++
    be16 c.holdTime ++ clampMark f.hold c.holdTime ++ be16 d.k ++ clampMark f.k d.k ++ be16 d.e ++ clampMark f.e d.e ++
    be16 d.x ++ clampMark f.x d.x ++ be16 d.h ++ clampMark f.h d.h

/-- The position of a number that has been judged. -/
def posOf (n : Nat) : Pos := (Pos.ofNum? n).getD .p0

/-- R91: DEFINE_POSITION. -/
def execDefinePosition (h : Header) (f : PositionFields) (s : State) : Host.Outcome State Fault Refusal :=
  serve .definePosition h none (fun s =>
    judged [positionCheck f.position] s fun s =>
      let t := configure (posOf f.position) f s
      (t, doneWith (positionMarks t (posOf f.position) f))) s

/-! ### SIGN_ON and SIGN_OFF (R93, R94) -/

/-- R77 step 2: the state a request presumes of the position. -/
def stateCheck (s : State) (p : Pos) (st : PosState) : Check := ⟨(s.positions.get p).state == st, .badState, p.num⟩

/-- R93, R148: Table 4-3 steps 3, 5 and 6 of SIGN_ON and RELIEF_TAKE. -/
def takeDeskChecks (s : State) (o : Nat) (p : Pos) : List Check := [freeCheck s o, coverageCheck s o p, staffingCheck s o p]

/-- R93 steps 1 to 3. -/
def signOn (o : Nat) (p : Pos) (s : State) : State :=
  let s := modPos p (fun c => { c with holder := some o, state := .staffed }) s
  append .signOn (some p) (some o) none (levelOf s o) (setEngagement o (some (p, .holder)) s)

/-- R93 step 4. -/
def signOnFields (s : State) (p : Pos) : List Byte :=
  bePos p ++ be16 (areaSet (ownedAreas s p)) ++ be16 (s.lists.get p).ann.length ++ be16 (s.positions.get p).notes.length

/-- R93: SIGN_ON. -/
def execSignOn (h : Header) (badge : Word) (s : State) : Host.Outcome State Fault Refusal :=
  serve .signOn h none (atConsole h fun p s =>
    badgeRequest [stateCheck s p .vacant] h.op badge (fun s => takeDeskChecks s h.op p)
      (fun s => let t := signOn h.op p s; (t, doneWith (signOnFields t p))) s) s

/-- The holder of a position that has one. -/
def holderOf (s : State) (p : Pos) : Nat := (s.positions.get p).holder.getD 0

/-- R94, R124: the relief stack is empty. -/
def noReliefCheck (s : State) (p : Pos) : Check := ⟨(s.positions.get p).relief.isEmpty, .reliefActive, p.num⟩

/-- R94: the checks of SIGN_OFF. -/
def signOffChecks (s : State) (o : Nat) (p : Pos) : List Check :=
  [definedCheck s o, holderCheck s o p, stateCheck s p .staffed, noReliefCheck s p,
   ⟨(ownedAreas s p).isEmpty, .areasOwned, (ownedAreas s p).headD 0⟩]

/-- R94 steps 1 to 3. -/
def signOff (p : Pos) (s : State) : State :=
  let former := holderOf s p
  append .signOff (some p) (some former) none 0
    (release former (modPos p (fun c => { c with holder := none, state := .vacant }) s))

/-- R94: SIGN_OFF. -/
def execSignOff (h : Header) (s : State) : Host.Outcome State Fault Refusal :=
  serve .signOff h none (atConsole h fun p s =>
    judged (signOffChecks s h.op p) s fun s => (signOff p s, doneWith (bePos p))) s

/-! ### AREA_TRANSFER (R96 to R98, R37) -/

/-- R98: the shelf entries of a position whose alarms belong to an area. -/
def areaShelf (s : State) (a : Nat) (p : Pos) : List ShelfEntry :=
  (s.lists.get p).shelf.filter fun e => (alarmAt s e.alarm).defn.area == a

/-- R96 condition 2: the first of two positions that is in handover. -/
def inHandover? (s : State) (source target : Pos) : Option Pos :=
  [source, target].find? fun p => (s.positions.get p).state == .offered || (s.positions.get p).state == .review

/-- R96: the conditions of the PCU. -/
def transferChecks (s : State) (a : Nat) (source target : Pos) : List Check :=
  let moving := areaShelf s a source
  let c := (s.lists.get target).shelf.length
  [⟨target != source, .badState, target.num⟩,
   ⟨(inHandover? s source target).isNone, .badState, ((inHandover? s source target).map Pos.num).getD 0⟩,
   ⟨(s.positions.get target).state != .vacant, .badState, target.num⟩,
   ⟨holdsFor s.grants (holderOf s target) .operate a target, .noGrant, a⟩,
   ⟨decide (c + moving.length ≤ Config.shelfCapacity), .shelfFull,
     ((moving[Config.shelfCapacity - c]?).map (·.alarm)).getD 0⟩]

/-- R98: the area's shelf entries move from one position to another. -/
def moveShelf (a : Nat) (source target : Pos) (s : State) : State :=
  let moving := areaShelf s a source
  let s := modLists source (fun v => { v with shelf := v.shelf.filter fun e => (alarmAt s e.alarm).defn.area != a }) s
  modLists target (fun v => { v with shelf := moving.foldl (fun l e => insertBy shelfBefore e l) v.shelf }) s

/-- R37 step 1: an alarm is listed at a position. The area map no longer gives the area to the source (R97). -/
def listedAt (s : State) (p : Pos) (i : Nat) : Bool := onAnn s p i || onDeferred s p i || (alarmAt s i).dyn.overflow

/-- R37 step 1: the alarms of an area that are listed at the source, in rank order. -/
def collected (s : State) (a : Nat) (source : Pos) : List ListEntry :=
  let listed := s.alarms.filterMap fun e =>
    if e.2.defn.area == a && listedAt s source e.1 then some (ListEntry.mk e.1 (e.2.dyn.annTime.getD 0)) else none
  listed.foldl (fun l e => insertBy (entryBefore s) e l) []

/-- R37 step 1: one alarm leaves the source's lists. -/
def moveOut (source : Pos) (s : State) (e : ListEntry) : State :=
  if onAnn s source e.alarm then
    notify (.console source) (.retract e.alarm .moved) (leaveAnn source e.alarm s)
  else setOverflow e.alarm false (leaveDeferred source e.alarm s)

/-- R37 step 3: one alarm is placed at the target, unweighted, with the annunciation time it held. -/
def moveIn (target : Pos) (s : State) (e : ListEntry) : State := placeOnLists target e.alarm e.time s

/-- R37: the MOVE report. -/
def moveLists (source target : Pos) (moving : List ListEntry) (s : State) : State :=
  let s := restoreLists source (moving.foldl (moveOut source) s)
  judgeHorn target (moving.foldl (moveIn target) s)

/-- R97: the work of a transfer. -/
def transferArea (a : Nat) (source target : Pos) (supervisor : Nat) (s : State) : State :=
  let s := append .areaTransferred (some target) (some supervisor) (some a) source.num { s with areas := s.areas.set a target }
  let s := moveShelf a source target s
  moveLists source target (collected s a source) s

/-- R96: the form and the access check of AREA_TRANSFER. -/
def transferAccess (s : State) (o a target : Nat) : List Check :=
  [⟨decide (a ≤ 15), .malformed, a⟩, positionCheck target, definedCheck s o, holderCheck s o .p0,
   grantCheck s o .supervise a .p0]

/-- R96, R97: AREA_TRANSFER. -/
def execAreaTransfer (h : Header) (area target : Nat) (s : State) : Host.Outcome State Fault Refusal :=
  serve .areaTransfer h none (fun s =>
    let source := areaOwner s area
    let t := posOf target
    judged (transferAccess s h.op area target ++ transferChecks s area source t) s fun s =>
      (transferArea area source t h.op s,
        doneWith (bePos source ++ bePos t ++ be16 (collected s area source).length ++ be16 (areaShelf s area source).length))) s

/-! ### The bypass register (R99 to R103) -/

/-- R100, R102: the slot and entry of an area and interlock number. -/
def bypass? (s : State) (area interlock : Nat) : Option (Nat × Bypass) :=
  s.bypasses.find? fun e => e.2.area == area && e.2.interlock == interlock

/-- R100, R102: form and access. -/
def bypassAccess (s : State) (o area interlock : Nat) (p : Pos) : List Check :=
  [⟨decide (area ≤ 15), .malformed, area⟩, ⟨decide (1 ≤ interlock) && decide (interlock ≤ 999), .malformed, interlock⟩,
   definedCheck s o, holderCheck s o p, areaCheck s o area p, grantCheck s o .bypass area p]

/-- R100: the conditions of the PCU. -/
def bypassChecks (s : State) (area interlock : Nat) : List Check :=
  [⟨(bypass? s area interlock).isNone, .duplicate, ((bypass? s area interlock).map (·.1)).getD 0⟩,
   ⟨(freeSlot? Config.bypassSlots s.bypasses).isSome, .registerFull, 16⟩,
   ⟨roomForItem s (areaOwner s area), .itemsFull, (areaOwner s area).num⟩]

/-- R100 steps 1 to 3. -/
def declareBypass (o area interlock stored slot : Nat) (s : State) : State :=
  let p := areaOwner s area
  let b : Bypass := { area := area, interlock := interlock, operator := o, declared := s.millTime, duration := stored,
                      due := stored, overdue := false }
  let s := append .bypassDeclared (some p) (some o) (some area) interlock { s with bypasses := s.bypasses.insert slot b }
  if inReview s p then appendItem p .bypass slot interlock s else s

/-- R100: BYPASS_DECLARE. -/
def execBypassDeclare (h : Header) (area interlock duration : Nat) (s : State) : Host.Outcome State Fault Refusal :=
  serve .bypassDeclare h none (atConsole h fun p s =>
    judged (bypassAccess s h.op area interlock p ++ bypassChecks s area interlock) s fun s =>
      let stored := clamp 300 86400 duration
      let slot := (freeSlot? Config.bypassSlots s.bypasses).getD 0
      (declareBypass h.op area interlock stored slot s, doneWith (be8 slot ++ be32 stored ++ clampMark duration stored))) s

/-- Table 5-3: the fields of an entry. -/
def bypassFields (b : Bypass) : List Byte :=
  be8 b.area ++ be16 b.interlock ++ be8 b.operator ++ beWord b.declared ++ be32 b.duration ++ be32 b.due ++ beBool b.overdue

/-- R102 steps 1 to 3. -/
def endBypass (o slot : Nat) (b : Bypass) (s : State) : State :=
  let p := areaOwner s b.area
  let s := append .bypassEnded (some p) (some o) (some b.area) (b.interlock + if b.overdue then 32768 else 0)
    { s with bypasses := s.bypasses.erase slot }
  if inReview s p then resolveItem p .bypass slot s else s

/-- What an entry that the register does not hold reads as; R102 judges it first. -/
def blankBypass : Bypass :=
  { area := 0, interlock := 0, operator := 0, declared := 0, duration := 0, due := 0, overdue := false }

/-- R102: BYPASS_END. -/
def execBypassEnd (h : Header) (area interlock : Nat) (s : State) : Host.Outcome State Fault Refusal :=
  serve .bypassEnd h none (atConsole h fun p s =>
    judged (bypassAccess s h.op area interlock p ++ [⟨(bypass? s area interlock).isSome, .unknownIndex, interlock⟩]) s fun s =>
      let e := (bypass? s area interlock).getD (0, blankBypass)
      (endBypass h.op e.1 e.2 s, doneWith (bypassFields e.2))) s

/-- R101: the work of a due expiry. -/
def expireBypass (slot : Nat) (b : Bypass) (s : State) : State :=
  let p := areaOwner s b.area
  let s := { s with bypasses := s.bypasses.insert slot { b with overdue := true, due := 0 } }
  let s := append .bypassDue (some p) none (some b.area) b.interlock s
  notifyBoth p (.bypassDue slot b.area b.interlock b.operator b.declared b.duration) s

/-- R101: a slot whose due timer has reached zero and has not expired before. -/
def dueBypass? (s : State) (slot : Nat) : Option Bypass :=
  (s.bypasses.get? slot).filter fun b => b.due == 0 && !b.overdue

/-- R101: DUE_EXPIRY. -/
def execDueExpiry (slot : Nat) (s : State) : Host.Outcome State Fault Refusal :=
  event (fun s =>
    match dueBypass? s slot with
    | some b => expireBypass slot b s
    | none => s) s

/-- R103: BYPASS_READ. -/
def execBypassRead (h : Header) (s : State) : Host.Outcome State Fault Refusal :=
  serve .bypassRead h none (fun s =>
    (s, .done (be16 s.bypasses.length ::
      s.bypasses.map fun e => be8 e.1 ++ bypassFields e.2 ++ bePos (areaOwner s e.2.area)) false)) s

/-! ### Notes (R104) -/

/-- R104: a character of a text. -/
def isTextByte (b : Byte) : Bool := decide (0x20 ≤ b.toNat) && decide (b.toNat ≤ 0x7E)

/-- R104, R176: the length, the length that it announces, and the characters. -/
def textChecks (len length : Nat) (text : List Byte) : List Check :=
  [⟨decide (length ≤ 48), .malformed, length⟩, ⟨decide (3 + length ≤ len), .malformed, len⟩,
   ⟨text.all isTextByte, .malformed, text.findIdx fun b => !isTextByte b⟩]

/-- R104: access and the conditions of the PCU. -/
def noteChecks (s : State) (o : Nat) (p : Pos) : List Check :=
  [definedCheck s o, holderCheck s o p,
   ⟨decide ((s.positions.get p).notes.length < Config.noteCapacity), .notesFull, 8⟩,
   ⟨roomForItem s p, .itemsFull, p.num⟩]

/-- R104 steps 1 to 3. -/
def addNote (o : Nat) (p : Pos) (n : Note) (s : State) : State :=
  let place := (s.positions.get p).notes.length
  let s := modPos p (fun c => { c with notes := c.notes ++ [n] }) s
  let s := append .noteAdded (some p) (some o) none n.code s
  if inReview s p then appendItem p .note place n.code s else s

/-- R104: NOTE_ADD. -/
def execNoteAdd (h : Header) (code length : Nat) (text : List Byte) (s : State) : Host.Outcome State Fault Refusal :=
  serve .noteAdd h none (atConsole h fun p s =>
    judged (textChecks h.len length text ++ noteChecks s h.op p) s fun s =>
      (addNote h.op p { code := code, text := text } s, doneWith (be8 (s.positions.get p).notes.length))) s

/-! ### POSITION_READ (R105) -/

/-- R105: the fields before the frames of the relief stack. -/
def contextFields (s : State) (p : Pos) : List Byte :=
  let c := s.positions.get p
  be8 (posStateCode c.state) ++ beOperator c.holder ++ beOperator c.incoming ++ be8 c.staffing ++ be16 c.offerTimeout ++
    be16 c.reviewTimeout ++ be16 c.reliefLimit ++ be16 c.holdTime ++ be16Opt c.timer ++ be16 (areaSet (ownedAreas s p)) ++
    be16 c.relief.length

/-- R105: the element of a relief frame. -/
def reliefElement (f : ReliefFrame) : List Byte :=
  be8 f.operator ++ beWord f.start ++ be16 f.remaining ++ beBool f.overdue

/-- R105, Table 10-10: the element of a note. -/
def noteElement (n : Note) : List Byte := be8 n.code ++ be8 n.text.length ++ n.text

/-- R105: the elements of a position's context. -/
def contextElements (s : State) (p : Pos) : List (List Byte) :=
  let c := s.positions.get p
  contextFields s p :: c.relief.map reliefElement ++ be16 c.notes.length :: c.notes.map noteElement ++ [be16 c.items.length]

/-- R105: POSITION_READ. -/
def execPositionRead (h : Header) (position : Nat) (s : State) : Host.Outcome State Fault Refusal :=
  serve .positionRead h none (fun s =>
    judged [positionCheck position] s fun s => (s, .done (contextElements s (posOf position)) false)) s

end Sys2Proof.Machine
end

