-- ==== Sys2Proof/Machine/Handover.lean ====
section
/-! DEFINITION. Chapter 7: the offer, the take and the build of the item list, confirmation, acceptance, and the endings
of a handover. -/

namespace Sys2Proof.Machine

/-! ### HANDOVER_OFFER and its timeout (R124, R125) -/

/-- R124: the checks of an offer. -/
def offerChecks (s : State) (o incoming : Nat) (p : Pos) : List Check :=
  [definedCheck s o, holderCheck s o p, stateCheck s p .staffed, noReliefCheck s p, definedCheck s incoming,
   freeCheck s incoming]

/-- R124 steps 1 to 4. -/
def offer (p : Pos) (incoming : Nat) (s : State) : State :=
  let s := modPos p (fun c => { c with incoming := some incoming, state := .offered, timer := some c.offerTimeout }) s
  let s := append .handoverOffered (some p) (s.positions.get p).holder none incoming s
  handoverNotices p .offered 0 none s

/-- R124: HANDOVER_OFFER. -/
def execHandoverOffer (h : Header) (incoming : Nat) (s : State) : Host.Outcome State Fault Refusal :=
  serve .handoverOffer h none (atConsole h fun p s =>
    judged (offerChecks s h.op incoming p) s fun s =>
      (offer p incoming s, doneWith (bePos p ++ be8 incoming ++ be16 (s.positions.get p).offerTimeout))) s

/-- R125, R143: the handover timer of a position in a state has expired. -/
def handoverDue (s : State) (p : Pos) (st : PosState) : Bool :=
  (s.positions.get p).state == st && isDue (s.positions.get p).timer

/-- R125: OFFER_TIMEOUT. -/
def execOfferTimeout (p : Pos) (s : State) : Host.Outcome State Fault Refusal :=
  event (fun s => if handoverDue s p .offered then endHandover p .timeout none s else s) s

/-- R143: REVIEW_TIMEOUT. -/
def execReviewTimeout (p : Pos) (s : State) : Host.Outcome State Fault Refusal :=
  event (fun s => if handoverDue s p .review then endHandover p .timeout none s else s) s

/-! ### HANDOVER_TAKE (R126, R127) and the build (R130) -/

/-- R130: the alarms of a priority on the annunciation list, the deferred list or in the overflow set. -/
def unackCount (s : State) (p : Pos) (priority : Nat) : Nat :=
  let v := s.lists.get p
  v.ann.countP (fun e => priorityOf s e.alarm == priority) + v.deferred.countP (fun e => priorityOf s e.alarm == priority) +
    (overflowSet s p).countP (fun e => priorityOf s e.alarm == priority)

/-- R130: the alarms in LATCHED whose area the position owns. -/
def latchedCount (s : State) (p : Pos) : Nat :=
  s.alarms.countP fun e => e.2.dyn.lifecycle == .latched && areaOwner s e.2.defn.area == p

/-- R130: the kind, subject and count of every item, in the order of the build. -/
def buildList (s : State) (p : Pos) : List (ItemKind × Nat × Nat) :=
  let summaries := [1, 2, 3, 4].map (fun n => (ItemKind.unack n, n, unackCount s p n)) ++ [(.latched, p.num, latchedCount s p)]
  let flood := if (s.loads.get p).flood then [(ItemKind.flood, p.num, (s.loads.get p).load)] else []
  let bypasses := (s.bypasses.filter fun e => areaOwner s e.2.area == p).map fun e => (ItemKind.bypass, e.1, e.2.interlock)
  let shelf := (s.lists.get p).shelf.map fun e => (ItemKind.shelf, e.alarm, e.effective)
  let notes := (s.positions.get p).notes.mapIdx fun n note => (ItemKind.note, n, note.code)
  summaries.filter (fun x => x.2.2 != 0) ++ flood ++ bypasses ++ shelf ++ notes

/-- R130: the items of a take, numbered from 0, open, not marked as arrived during review. -/
def buildItems (s : State) (p : Pos) : List Item :=
  (buildList s p).mapIdx fun n x =>
    { number := n, kind := x.1, subject := x.2.1, count := x.2.2, confirmed := false, resolved := false, arrived := false }

/-- R127 steps 1 to 6. -/
def take (o : Nat) (p : Pos) (s : State) : State :=
  let s := modPos p (fun c => { c with timer := none, state := .review }) s
  let s := setEngagement o (some (p, .incoming)) s
  let items := buildItems s p
  let s := modPos p (fun c => { c with items := items, timer := some c.reviewTimeout }) s
  let s := append .handoverTaken (some p) (some o) none items.length s
  handoverNotices p .taken items.length none s

/-- R127 step 7. -/
def takeFields (s : State) (p : Pos) : List Byte :=
  bePos p ++ beOperator (s.positions.get p).holder ++ be16 (s.positions.get p).items.length ++
    be16 (s.positions.get p).reviewTimeout

/-- R126, R127: HANDOVER_TAKE. An engaged operator, the incoming of another review or a stacked operator, who is not the one
named here is refused with NOT_INCOMING, in the order of R79 and R126, where R123 and R150 speak of OPERATOR_ENGAGED. DESIGN
CHOICE, unsafe (log 29). -/
def execHandoverTake (h : Header) (badge : Word) (s : State) : Host.Outcome State Fault Refusal :=
  serve .handoverTake h none (atConsole h fun p s =>
    badgeRequest [stateCheck s p .offered] h.op badge
      (fun s => [namedCheck s h.op p, freeCheck s h.op, staffingCheck s h.op p])
      (fun s => let t := take h.op p s; (t, doneWith (takeFields t p))) s) s

/-! ### Items (R138, R139) -/

/-- R138, R139: the number of open items and the lowest open item number. -/
def openFields (items : List Item) : List Byte := be16 (items.countP Item.isOpen) ++ be8Opt (lowestOpen? items)

/-- R138: ITEM_READ. -/
def execItemRead (h : Header) (position start count : Nat) (s : State) : Host.Outcome State Fault Refusal :=
  serve .itemRead h none (fun s =>
    judged [positionCheck position, ⟨decide (1 ≤ count) && decide (count ≤ 32), .malformed, count⟩] s fun s =>
      let c := s.positions.get (posOf position)
      (s, .done ((be8 (posStateCode c.state) ++ be16 c.items.length ++ openFields c.items) ::
        ((c.items.drop start).take count).map itemRecord) false)) s

/-- R139, R176: the count, and the length that it announces. -/
def confirmChecks (s : State) (len o count : Nat) (numbers : List Nat) (p : Pos) : List Check :=
  let length := (s.positions.get p).items.length
  [⟨decide (1 ≤ count) && decide (count ≤ 16), .malformed, count⟩, ⟨decide (2 + count ≤ len), .malformed, len⟩,
   definedCheck s o, incomingCheck s o p,
   ⟨numbers.all (decide <| · < length), .unknownIndex, (numbers.find? (decide <| length ≤ ·)).getD 0⟩]

/-- R139: the confirmed flag of each named open item is set. -/
def confirmItems (numbers : List Nat) (items : List Item) : List Item :=
  items.map fun it => if numbers.contains it.number && it.isOpen then { it with confirmed := true } else it

/-- R139: ITEM_CONFIRM. -/
def execItemConfirm (h : Header) (count : Nat) (numbers : List Nat) (s : State) : Host.Outcome State Fault Refusal :=
  serve .itemConfirm h none (atConsole h fun p s =>
    judged (confirmChecks s h.len h.op count numbers p) s fun s =>
      let before := (s.positions.get p).items
      let after := confirmItems numbers before
      (modPos p (fun c => { c with items := after }) s,
        doneWith (be16 (before.countP Item.isOpen - after.countP Item.isOpen) ++ openFields after))) s

/-! ### HANDOVER_ACCEPT (R140, R141) -/

/-- R140: the checks of an acceptance. -/
def acceptChecks (s : State) (o : Nat) (p : Pos) : List Check :=
  let lowest := lowestOpen? (s.positions.get p).items
  [definedCheck s o, incomingCheck s o p, ⟨lowest.isNone, .itemsOpen, lowest.getD 0⟩, coverageCheck s o p, loadCheck s o p]

/-- R141 steps 1 to 9. -/
def accept (o : Nat) (p : Pos) (s : State) : State :=
  let outgoing := holderOf s p
  let items := (s.positions.get p).items.length
  let s := modPos p (fun c => { c with timer := none, holder := some o, incoming := none, state := .staffed }) s
  let s := release outgoing (setEngagement o (some (p, .holder)) s)
  let s := modPos p (fun c => { c with notes := [], items := [] }) s
  let s := append .handoverAccepted (some p) (some o) none items s
  handoverNotices p .accepted items none s

/-- R140, R141: HANDOVER_ACCEPT. -/
def execHandoverAccept (h : Header) (s : State) : Host.Outcome State Fault Refusal :=
  serve .handoverAccept h none (atConsole h fun p s =>
    judged (acceptChecks s h.op p) s fun s =>
      (accept h.op p s,
        doneWith (bePos p ++ be8 h.op ++ beOperator (s.positions.get p).holder ++ be16 (s.positions.get p).items.length))) s

/-! ### HANDOVER_WITHDRAW and HANDOVER_CANCEL (R142, R144) -/

/-- R142, R144: the position is in handover. -/
def handoverCheck (s : State) (p : Pos) : Check :=
  ⟨(s.positions.get p).state == .offered || (s.positions.get p).state == .review, .badState, p.num⟩

/-- R142, R144: the position and the phase that ended. -/
def endedFields (s : State) (p : Pos) : List Byte := bePos p ++ be8 (phaseCode (s.positions.get p).state)

/-- R142: HANDOVER_WITHDRAW. -/
def execHandoverWithdraw (h : Header) (s : State) : Host.Outcome State Fault Refusal :=
  serve .handoverWithdraw h none (atConsole h fun p s =>
    judged [definedCheck s h.op, partyCheck s h.op p, handoverCheck s p] s fun s =>
      (endHandover p .withdrawn (some h.op) s, doneWith (endedFields s p))) s

/-- R144: HANDOVER_CANCEL. -/
def execHandoverCancel (h : Header) (position : Nat) (s : State) : Host.Outcome State Fault Refusal :=
  serve .handoverCancel h none (fun s =>
    let p := posOf position
    judged (positionCheck position :: supervisorChecks s h.op ++ [handoverCheck s p]) s fun s =>
      (endHandover p .cancelled (some h.op) s, doneWith (endedFields s p))) s

end Sys2Proof.Machine
end

