-- ==== Sys2Proof/Machine/Journal.lean ====
section
/-! DEFINITION. Chapter 9: reading the journal. -/

namespace Sys2Proof.Machine

/-- R159: the sequence of the oldest retained entry, 0 where none is retained. -/
def oldestSequence (s : State) : Word := (s.journal.head?.map (·.sequence)).getD 0

/-- Table 10-6: a journal entry as read. -/
def entryElement (e : Entry) : List Byte :=
  beWord e.sequence ++ beWord e.time ++ be8 (entryKindCode e.kind) ++ be8Opt (e.position.map Pos.num) ++ be8Opt e.operator ++
    be16Opt e.index ++ be16 e.detail

/-- R159: the entries a start sequence gives, and whether the start is behind. Differences of sequences wrap. -/
def placeStart (s : State) (start : Word) : List Entry × Bool :=
  let ahead := start - oldestSequence s
  if ahead.toNat < s.journal.length then (s.journal.drop ahead.toNat, false)
  else if (start - s.nextSeq).toNat < 2147483648 then ([], false)
  else (s.journal, true)

/-- R159: JOURNAL_READ. -/
def execJournalRead (h : Header) (start : Word) (count : Nat) (s : State) : Host.Outcome State Fault Refusal :=
  serve .journalRead h none (fun s =>
    judged (⟨decide (1 ≤ count) && decide (count ≤ 64), .malformed, count⟩ :: supervisorUnlessPlant h s) s fun s =>
      let r := placeStart s start
      (s, .done ((be16 s.journal.length ++ beWord (oldestSequence s) ++ beWord s.nextSeq) ::
        (r.1.take count).map entryElement) r.2)) s

end Sys2Proof.Machine
end

