-- ==== Sys2Proof/Machine/Links.lean ====
section
/-! DEFINITION. Chapter 10: the bytes of a port, frames of unknown kind, the sending of frames, FLOW records, the hold
timer, and the relay. -/

namespace Sys2Proof.Machine

/-! ### Ports (R163, R164) -/

/-- R163: a frame with a LEN above 240 or a wrong CHECK is discarded, and the port waits for SYNC from the byte after
the discarded frame's SYNC. A port that holds no such frame goes on waiting. -/
def discardFrame (bytes : List Byte) : List Byte :=
  match assemble bytes with
  | .tooLong | .badCheck => seekSync bytes.tail
  | _ => bytes

/-- R163: FRAME_DISCARDED: the bytes join those the port holds (log 6). -/
def execFrameDiscarded (l : Link) (bytes : List Byte) (s : State) : Host.Outcome State Fault Refusal :=
  event (modLink l fun k => { k with received := discardFrame (seekSync (k.received ++ bytes)) }) s

/-- R164 step 1: the reply to a good frame whose KIND names no request kind and is not FLOW. -/
def unknownKindReply (kind tag : Byte) : Frame :=
  { kind := kind, tag := tag, last := true, reply := true, limited := false, gap := false,
    body := refusalBody kind.toNat .malformed kind.toNat }

/-- R164 step 1: UNKNOWN_KIND_FRAME. -/
def execUnknownKindFrame (l : Link) (kind tag : Byte) (s : State) : Host.Outcome State Fault Refusal :=
  event (fun s => modLink l (fun k => { k with replies := k.replies ++ [unknownKindReply kind tag] }) (takeFrame l s)) s

/-! ### Sending (R168, R179) -/

/-- R179: the DONE reply of COMMISSION, after whose last frame every port takes its stored rate (log 18). -/
def isCommissionReply (l : Link) (f : Frame) : Bool :=
  l == .plant && f.reply && f.last && f.kind.toNat == kindCode .commission && f.body.head? == some 0

/-- R179: each port takes its stored rate. -/
def changeRates (s : State) : State := { s with links := s.links.map fun _ k => { k with rate := k.storedRate } }

/-- R168: a link has finished sending its frame and is free. -/
def finishFrame (l : Link) (s : State) : State :=
  match (s.links.get l).sending with
  | some f =>
    let s := modLink l (fun k => { k with sending := none }) s
    if isCommissionReply l f then changeRates s else s
  | none => s

/-- R168: FRAME_SENT. The next frame starts as the command settles (log 2). -/
def execFrameSent (l : Link) (s : State) : Host.Outcome State Fault Refusal := event (finishFrame l) s

/-! ### Flow (R171, R173) -/

/-- R171: a HOLD record. -/
def LinkState.takeHold (k : LinkState) : LinkState :=
  if k.flow = .go then { k with flow := .hold, allowance := true } else k

/-- R171: FLOW_HOLD. A FLOW record with an empty body or a value without a code has no effect. -/
def execFlowHold (l : Link) (value : Option Byte) (s : State) : Host.Outcome State Fault Refusal :=
  event (fun s =>
    let s := takeFrame l s
    if value = some 1 then modLink l LinkState.takeHold s else s) s

/-- R171, R173: a GO record makes the flow GO, and stops the hold timer. The allowance, which is not used in GO (Table
10-1), is 0. DESIGN CHOICE, unsafe (log 30). -/
def LinkState.takeGo (k : LinkState) : LinkState := { k with flow := .go, allowance := false, holdTimer := none }

/-- R173: a link's position in its LINK_DOWN and LINK_UP entries. -/
def linkPosition : Link → Option Pos
  | .console p => some p
  | .plant => none

/-- R173: a DOWN link comes UP. -/
def bringUp (l : Link) (s : State) : State :=
  append .linkUp (linkPosition l) none none l.num
    (modLink l (fun k => { k.takeGo with up := true, snapshotDue := k.snapshotDue || l != .plant }) s)

/-- R171, R173: FLOW_GO. -/
def execFlowGo (l : Link) (s : State) : Host.Outcome State Fault Refusal :=
  event (fun s =>
    let s := takeFrame l s
    if (s.links.get l).up then modLink l LinkState.takeGo s else bringUp l s) s

/-! ### The hold timer (R172) -/

/-- R172: what a link going DOWN drops of its own: the queue and a SNAPSHOT in progress. -/
def LinkState.goDown (console : Bool) (k : LinkState) : LinkState :=
  { k with queue := [], snapshot := [], snapshotDue := k.snapshotDue || console }

/-- R172 step 3: a waiting FAULT notice passes to the next link of its own chain. -/
def passFault (l : Link) (s : State) (q : Queued) : State :=
  match q.notice with
  | .fault source => routeFault source (chainAfter l source) s
  | _ => s

/-- R172: a link goes DOWN. -/
def takeDown (l : Link) (s : State) : State :=
  let waiting := (s.links.get l).queue
  let s := modLink l (fun k => { k with up := false, holdTimer := none }) s
  let s := append .linkDown (linkPosition l) none none l.num s
  let s := waiting.foldl (passFault l) s
  routeFault l (faultChain l) (modLink l (LinkState.goDown (l != .plant)) s)

/-- R172: HOLD_TIMER_EXPIRY. -/
def execHoldTimerExpiry (l : Link) (s : State) : Host.Outcome State Fault Refusal :=
  event (fun s => if isDue (s.links.get l).holdTimer then takeDown l s else s) s

/-! ### The relay (R175) -/

/-- R175 step 1: every link is UP. -/
def linksUpCheck (s : State) : Check :=
  let down := Link.all.find? fun l => !(s.links.get l).up
  ⟨down.isNone, .badState, (down.map Link.num).getD 0⟩

/-- R175: the acting supervisor of a request; none for the gateway. -/
def actingSupervisor (h : Header) : Option Nat := if h.link = .plant then none else some h.op

/-- R175: RELAY_RESET. -/
def execRelayReset (h : Header) (s : State) : Host.Outcome State Fault Refusal :=
  serve .relayReset h none (fun s =>
    judged (supervisorUnlessPlant h s ++ [linksUpCheck s]) s fun s =>
      if s.relay then
        (append .relayReset none (actingSupervisor h) none h.link.num { s with relay := false },
          doneWith (be8 (resultCode .changed)))
      else (s, doneWith (be8 (resultCode .noChange)))) s

end Sys2Proof.Machine
end

