-- ==== Sys2Proof/Machine/Lists.lean ====
section
/-! DEFINITION. Chapter 2: LIST_READ, SILENCE and the expiry of a reminder. -/

namespace Sys2Proof.Machine

/-! ### LIST_READ (R45) -/

/-- Table 10-11: the list selectors. -/
inductive Selector
  | annunciation | deferred | overflow | escalation
deriving DecidableEq, Repr

/-- Table 10-11: the selector of a code. -/
def selectorOf? : Nat → Option Selector
  | 0 => some .annunciation | 1 => some .deferred | 2 => some .overflow | 3 => some .escalation | _ => none

/-- R45: the fields every element gives. -/
def listFields (s : State) (i : Nat) (t : Word) : List Byte :=
  be16 i ++ be8 (priorityOf s i) ++ be8 (alarmAt s i).defn.area ++ be8 (lifecycleCode (lifecycleOf s i)) ++ beWord t

/-- R45: the elements of a list of a position, in rank order. -/
def listElements (s : State) (selector : Selector) (p : Pos) : List (List Byte) :=
  match selector with
  | .annunciation => (s.lists.get p).ann.map fun e => listFields s e.alarm e.time ++ beBool e.silenced ++ be16Opt e.reminder
  | .deferred => (s.lists.get p).deferred.map fun e => listFields s e.alarm e.time
  | .overflow => (overflowSet s p).map fun e => listFields s e.alarm e.time
  | .escalation => s.escalation.map fun e =>
      listFields s e.alarm e.time ++ bePos (ownerOf s e.alarm) ++ be8 (alarmAt s e.alarm).dyn.reminders

/-- R45: the selector, the position (ignored for ESCALATION) and the count. -/
def listChecks (selector position count : Nat) : List Check :=
  [⟨(selectorOf? selector).isSome, .malformed, selector⟩,
   ⟨selectorOf? selector == some .escalation || (Pos.ofNum? position).isSome, .malformed, position⟩,
   ⟨decide (1 ≤ count) && decide (count ≤ 32), .malformed, count⟩]

/-- R45: LIST_READ. The length of the list leads; the elements from the start place follow. -/
def execListRead (h : Header) (selector position start count : Nat) (s : State) : Host.Outcome State Fault Refusal :=
  serve .listRead h none (fun s =>
    judged (listChecks selector position count) s fun s =>
      let es := listElements s ((selectorOf? selector).getD .annunciation) ((Pos.ofNum? position).getD .p0)
      (s, .done (be16 es.length :: (es.drop start).take count) false)) s

/-! ### SILENCE (R44) -/

/-- R44: every entry of the annunciation list is silenced, and the horn line is judged. -/
def silenceList (p : Pos) (s : State) : State :=
  judgeHorn p (modLists p (fun v => { v with ann := v.ann.map fun e => { e with silenced := true } }) s)

/-- R44: SILENCE. -/
def execSilence (h : Header) (s : State) : Host.Outcome State Fault Refusal :=
  serve .silence h none (atConsole h fun p s =>
    judged [definedCheck s h.op, holderCheck s h.op p] s fun s =>
      (silenceList p s, doneWith (be16 ((s.lists.get p).ann.countP fun e => !e.silenced)))) s

/-! ### Reminder expiry (R39) -/

/-- R39: the reminder of an alarm that is due: its entry stands at the owning position with a count at zero. -/
def reminderDue (s : State) (i : Nat) : Bool :=
  (s.lists.get (ownerOf s i)).ann.any fun e => e.alarm == i && isDue e.reminder

/-- R39 step 3: whether the alarm escalates. -/
def escalationDue (s : State) (i : Nat) : Bool :=
  let a := alarmAt s i
  a.defn.escalation != 0 && decide (a.defn.escalation ≤ a.dyn.reminders) && !a.dyn.escalated

/-- R39: the work of a reminder's expiry. -/
def expireReminder (i : Nat) (s : State) : State :=
  let p := ownerOf s i
  let s := modDyn i (fun d => { d with reminders := min 15 (d.reminders + 1) }) s
  let s := notify (.console p) (.remind i (alarmAt s i).dyn.reminders) s
  let s := if escalationDue s i then escalate i s else s
  addLoad p (reminderWeight (priorityOf s i)) (setReminder p i (some (alarmAt s i).defn.reminder) s)

/-- R39: REMINDER_EXPIRY. -/
def execReminderExpiry (i : Nat) (s : State) : Host.Outcome State Fault Refusal :=
  event (fun s => if reminderDue s i then expireReminder i s else s) s

end Sys2Proof.Machine
end

