-- ==== Sys2Proof/Machine/Load.lean ====
section
/-! DEFINITION. Chapter 3: LOAD_QUERY and the decay of the load. -/

namespace Sys2Proof.Machine

/-! ### LOAD_QUERY (R59) -/

/-- R59: the positions a selector names, in position order; 255 is ALL (Table 10-10). -/
def selectedPositions (selector : Nat) : List Pos :=
  if selector = 255 then Pos.all else (Pos.ofNum? selector).toList

/-- R59: the element of a position, with the LIMITED flag of its frame. -/
def loadElement (s : State) (p : Pos) : List Byte × Bool :=
  let d := s.loads.get p
  (bePos p ++ be16 d.load ++ beBool d.flood ++ be16 d.k ++ be16 d.e ++ be16 d.x ++ be16 d.h, d.limit)

/-- R59: LIMIT is cleared as the element is formed. -/
def clearLimit (s : State) (p : Pos) : State := modLoad p (fun d => { d with limit := false }) s

/-- R59: LOAD_QUERY. -/
def execLoadQuery (h : Header) (selector : Nat) (s : State) : Host.Outcome State Fault Refusal :=
  serve .loadQuery h none (fun s =>
    let ps := selectedPositions selector
    judged (⟨!ps.isEmpty, .malformed, selector⟩ :: supervisorUnlessPlant h s) s fun s =>
      (ps.foldl clearLimit s, .each (ps.map (loadElement s)))) s

/-! ### Decay (R55) -/

/-- R55: the decrement of a load. -/
def decrement (load k : Nat) : Nat :=
  let d := load * k / 1024
  if d = 0 ∧ 0 < load then 1 else d

/-- R55: a decay expiry; the timer starts its next period of 1 s. -/
def decay (p : Pos) (s : State) : State :=
  let d := s.loads.get p
  let lower := d.load - decrement d.load d.k
  let s := modLoad p (fun d => { d with load := lower, decay := 1 }) s
  if lower = d.load then s else evaluateFlood p s

/-- R55: DECAY_EXPIRY. -/
def execDecayExpiry (p : Pos) (s : State) : Host.Outcome State Fault Refusal :=
  event (fun s => if (s.loads.get p).decay = 0 then decay p s else s) s

end Sys2Proof.Machine
end

