-- ==== Sys2Proof/Machine/Relief.lean ====
section
/-! DEFINITION. Chapter 8: taking relief, returning, clearing a stack, and the relief limit. -/

namespace Sys2Proof.Machine

/-! ### RELIEF_TAKE (R148, R149) -/

/-- R148 steps 7 and 8. -/
def reliefConditions (s : State) (o : Nat) (p : Pos) : List Check :=
  [⟨decide ((s.positions.get p).relief.length < Config.reliefCapacity), .stackFull, p.num⟩, loadCheck s o p]

/-- R149 steps 1 to 5. -/
def takeRelief (o : Nat) (p : Pos) (s : State) : State :=
  let former := holderOf s p
  let frame (c : PosContext) : ReliefFrame :=
    { operator := former, start := s.millTime, remaining := c.reliefLimit, overdue := false }
  let s := modPos p (fun c => { c with relief := c.relief ++ [frame c] }) s
  let s := setEngagement former (some (p, .stacked)) s
  let s := modPos p (fun c => { c with holder := some o }) s
  append .reliefTaken (some p) (some o) none former (setEngagement o (some (p, .holder)) s)

/-- R149 step 6. -/
def reliefTakenFields (s : State) (p : Pos) : List Byte :=
  bePos p ++ be8 (s.positions.get p).relief.length ++ be8 (holderOf s p) ++ be16 (s.positions.get p).reliefLimit

/-- R148, R149: RELIEF_TAKE. -/
def execReliefTake (h : Header) (badge : Word) (s : State) : Host.Outcome State Fault Refusal :=
  serve .reliefTake h none (atConsole h fun p s =>
    badgeRequest [stateCheck s p .staffed] h.op badge
      (fun s => takeDeskChecks s h.op p ++ reliefConditions s h.op p)
      (fun s => (takeRelief h.op p s, doneWith (reliefTakenFields s p))) s) s

/-! ### RELIEF_RETURN (R151) -/

/-- R151: the number of the frame that names an operator. -/
def frameOf? (s : State) (p : Pos) (o : Nat) : Nat := (s.positions.get p).relief.findIdx fun f => f.operator == o

/-- R151 steps 2 and 3: one operator is released, with a RELIEF_RETURNED entry. -/
def returnRelease (p : Pos) (detail : Nat) (s : State) (o : Nat) : State :=
  append .reliefReturned (some p) (some o) none detail (release o s)

/-- R151: the operators a return releases: the holder, and the frames above `f` from the top down. -/
def returnReleased (s : State) (p : Pos) (f : Nat) : List Nat :=
  holderOf s p :: (((s.positions.get p).relief.drop (f + 1)).reverse.map (·.operator))

/-- R151: the overdue flag of a frame. -/
def frameOverdue (s : State) (p : Pos) (f : Nat) : Bool := (((s.positions.get p).relief[f]?).map (·.overdue)).getD false

/-- R151 steps 1 to 5. -/
def returnRelief (o : Nat) (p : Pos) (s : State) : State :=
  let f := frameOf? s p o
  let detail := o + if frameOverdue s p f then 32768 else 0
  let s := (returnReleased s p f).foldl (returnRelease p detail) s
  let s := modPos p (fun c => { c with relief := c.relief.take f, holder := some o }) s
  setEngagement o (some (p, .holder)) s

/-- R151: the access check after the badge check. -/
def returnChecks (s : State) (o : Nat) (p : Pos) : List Check :=
  [stackedCheck s o p, coverageCheck s o p, staffingCheck s o p]

/-- R151 step 6. -/
def returnFields (s : State) (o : Nat) (p : Pos) : List Byte :=
  let f := frameOf? s p o
  bePos p ++ be8 o ++ be16 (returnReleased s p f).length ++ be16 f

/-- R151: RELIEF_RETURN. The incoming of a review is refused with NOT_HOLDER, as R79 and R151 give it, where R123 speaks of
OPERATOR_ENGAGED. DESIGN CHOICE, unsafe (log 29). -/
def execReliefReturn (h : Header) (badge : Word) (s : State) : Host.Outcome State Fault Refusal :=
  serve .reliefReturn h none (atConsole h fun p s =>
    badgeRequest [] h.op badge (fun s => returnChecks s h.op p)
      (fun s => (returnRelief h.op p s, doneWith (returnFields s h.op p))) s) s

/-! ### RELIEF_CLEAR (R152) -/

/-- R152 step 2: one operator is released, with a RELIEF_CLEARED entry. -/
def clearRelease (p : Pos) (supervisor : Nat) (s : State) (o : Nat) : State :=
  append .reliefCleared (some p) (some o) none supervisor (release o s)

/-- R152 steps 1 to 3. -/
def clearRelief (p : Pos) (supervisor : Nat) (s : State) : State :=
  let stacked := (s.positions.get p).relief.reverse.map (·.operator)
  modPos p (fun c => { c with relief := [] }) (stacked.foldl (clearRelease p supervisor) s)

/-- R152: RELIEF_CLEAR. -/
def execReliefClear (h : Header) (position : Nat) (s : State) : Host.Outcome State Fault Refusal :=
  serve .reliefClear h none (fun s =>
    let p := posOf position
    judged (positionCheck position :: supervisorChecks s h.op ++
        [⟨!(s.positions.get p).relief.isEmpty, .badState, p.num⟩]) s fun s =>
      (clearRelief p h.op s,
        doneWith (bePos p ++ be16 (s.positions.get p).relief.length ++ beOperator (s.positions.get p).holder))) s

/-! ### The relief limit (R147) -/

/-- R147: a frame whose limit timer has reached zero and has not expired before. -/
def dueFrame? (s : State) (p : Pos) (n : Nat) : Option ReliefFrame :=
  ((s.positions.get p).relief[n]?).filter fun f => f.remaining == 0 && !f.overdue

/-- R147: the work of a relief limit's expiry. -/
def expireRelief (p : Pos) (n : Nat) (f : ReliefFrame) (s : State) : State :=
  let s := modPos p (fun c => { c with relief := c.relief.set n { f with overdue := true, remaining := 0 } }) s
  let s := append .reliefOverdue (some p) (some f.operator) none n s
  notifyBoth p (.reliefOverdue p n f.operator f.start (s.positions.get p).holder) s

/-- R147: RELIEF_LIMIT_EXPIRY. -/
def execReliefLimitExpiry (p : Pos) (frame : Nat) (s : State) : Host.Outcome State Fault Refusal :=
  event (fun s =>
    match dueFrame? s p frame with
    | some f => expireRelief p frame f s
    | none => s) s

end Sys2Proof.Machine
end

