-- ==== Sys2Proof/Machine/Start.lean ====
section
/-! DEFINITION. Chapter 11: cold start, the one-second step, commissioning, the end of resynchronization, warm restart,
mill time and STATUS. -/

namespace Sys2Proof.Machine

/-- R178 and the rules it names: power is applied. The commands that wait are the senders', not the part's (log 4). -/
def execColdStart (s : State) : Host.Outcome State Fault Refusal :=
  .next { State.reset with free := s.free, pending := s.pending }

/-- Section 0.5.2: a running down-counter counts one second; it stays at 0 until its expiry is taken (log 1). -/
def countDown (t : Option Nat) : Option Nat := t.map (· - 1)

/-- One second at the PLU: the reminders and the shelf expiries (R38, R108). -/
def PosLists.tick (v : PosLists) : PosLists :=
  { v with ann := v.ann.map fun e => { e with reminder := countDown e.reminder },
           shelf := v.shelf.map fun e => { e with remaining := e.remaining - 1 } }

/-- One second at the PCU: the handover timer and the relief limits (R121, R147). -/
def PosContext.tick (c : PosContext) : PosContext :=
  { c with timer := countDown c.timer, relief := c.relief.map fun f => { f with remaining := f.remaining - 1 } }

/-- R178: mill time rises by 1, wrapping; section 0.5.2: every running duration counts down by one second (log 1). -/
def tick (s : State) : State :=
  { s with millTime := s.millTime + 1,
           lists := s.lists.map fun _ v => v.tick,
           loads := s.loads.map fun _ d => { d with decay := d.decay - 1 },
           positions := s.positions.map fun _ c => c.tick,
           bypasses := s.bypasses.map fun e => (e.1, { e.2 with due := e.2.due - 1 }),
           links := s.links.map fun _ k => { k with holdTimer := countDown k.holdTimer } }

/-- R178: one second passes. -/
def execOneSecondStep (s : State) : Host.Outcome State Fault Refusal := event tick s

/-- R183: TIME_SET. -/
def execTimeSet (h : Header) (time : Word) (s : State) : Host.Outcome State Fault Refusal :=
  serve .timeSet h none (fun s =>
    (append .timeSet none none none s.timeSet.toNat { s with millTime := time, timeSet := true },
      doneWith (beWord s.millTime ++ beWord time))) s

/-- R184: the fields of one position in a STATUS reply. -/
def statusPosition (s : State) (p : Pos) : List Byte :=
  be8 (posStateCode (s.positions.get p).state) ++ beOperator (s.positions.get p).holder ++ be16 (s.loads.get p).load ++
    beBool (s.loads.get p).flood ++ beBool (!(s.links.get (.console p)).up)

/-- R184: the results of STATUS, in the order the rule lists them. -/
def statusFields (s : State) : List Byte :=
  be8 (runStateCode s.runState) ++ be8 (startKindCode s.startKind) ++ be16 s.restarts ++ beBool s.timeSet ++
    beWord s.millTime ++ beBool s.relay ++ beBool (!s.links.plant.up) ++ Pos.all.flatMap (statusPosition s)

/-- R184: STATUS. -/
def execStatus (h : Header) (s : State) : Host.Outcome State Fault Refusal :=
  serve .status h none (fun s => (s, doneWith (statusFields s))) s

/-- R179: the stored rate codes, one for each link in number order. -/
def storeRates (rates : List Nat) (s : State) : State :=
  { s with links := s.links.map fun l k => { k with storedRate := rates.getD l.num 0 } }

/-- R179: COMMISSION. -/
def execCommission (h : Header) (hold : Nat) (rates : List Nat) (s : State) : Host.Outcome State Fault Refusal :=
  serve .commission h none (fun s =>
    judged [⟨rates.all (decide <| · ≤ 3), .malformed, (rates.find? (decide <| 3 < ·)).getD 0⟩,
            ⟨s.runState == .unconfigured, .badState, runStateCode s.runState⟩] s fun s =>
      let stored := clamp 2 60 hold
      (storeRates rates { s with plantHold := stored, runState := .resync },
        doneWith (be16 stored ++ clampMark hold stored))) s

/-- R181: INACTIVE is given to an UNKNOWN input. -/
def AlarmDyn.endResync (d : AlarmDyn) : AlarmDyn := if d.input = .unknown then { d with input := .inactive } else d

/-- R181: RESYNC_END. -/
def execResyncEnd (h : Header) (s : State) : Host.Outcome State Fault Refusal :=
  serve .resyncEnd h none (fun s =>
    judged [⟨s.runState == .resync, .badState, runStateCode s.runState⟩] s fun s =>
      ({ s with alarms := s.alarms.map fun e => (e.1, { e.2 with dyn := e.2.dyn.endResync }), runState := .running },
        doneWith (be16 (s.alarms.countP fun e => e.2.dyn.input == .unknown)))) s

/-- R23: the restart change of a dynamic record. -/
def AlarmDyn.restart (d : AlarmDyn) : AlarmDyn :=
  { d with input := .unknown, lifecycle := if d.lifecycle = .outOfService then .outOfService else .normal,
           acknowledger := none, escalated := false, overflow := false, annTime := none, reminders := 0 }

/-- R145: a position in OFFERED or REVIEW has its handover dropped. -/
def dropHandover (s : State) (p : Pos) : State :=
  let c := s.positions.get p
  if c.state = .offered ∨ c.state = .review then
    let s := modPos p (fun c => { c with timer := none, state := .staffed, incoming := none }) s
    if c.state = .review then modPos p (fun c => { c with items := [] }) (release (c.incoming.getD 0) s) else s
  else s

/-- R162, R182 step 4: a link at warm restart. The allowance, which Table 10-1 gives as not used, is 0. DESIGN CHOICE,
unsafe (log 30). -/
def LinkState.restart (console : Bool) (k : LinkState) : LinkState :=
  { k with flow := .go, up := true, allowance := false, queue := [], snapshotDue := console, holdTimer := none, snapshot := [] }

/-- R182 step 3: the restart changes of the blocks: the ATU by R23, the PLU by R47, the LDU by R51, the PCU by R107,
R145 and R153, and the ACU by R88. -/
def restartBlocks (s : State) : State :=
  let s := { s with
    alarms := s.alarms.map fun e => (e.1, { e.2 with dyn := e.2.dyn.restart }),
    lists := s.lists.map fun _ v => { v with ann := [], deferred := [], horn := false },
    escalation := [],
    loads := s.loads.map fun _ d => { d with load := 0, flood := false, limit := false } }
  Pos.all.foldl dropHandover s

/-- R182: the work of RESTART before its reply. -/
def warmRestart (s : State) : State :=
  let n := if s.restarts < 65535 then s.restarts + 1 else 65535
  let s := restartBlocks (append .restart none none none n { s with restarts := n, startKind := .warm, runState := .resync })
  { s with links := s.links.map fun l k => k.restart (l != .plant) }

/-- R182: RESTART. -/
def execRestart (h : Header) (s : State) : Host.Outcome State Fault Refusal :=
  serve .restart h none (fun s => let t := warmRestart s; (t, doneWith (be16 t.restarts))) s

end Sys2Proof.Machine
end

