-- ==== Sys2Proof/Machine/Dispatch.lean ====
section
/-! DEFINITION. The meaning of every command: one arm for each row of the opcode table. -/

namespace Sys2Proof.Machine

def exec (i : Instr) (s : State) : Host.Outcome State Fault Refusal :=
  match i with
  | .coldStart => Sys2Proof.Machine.execColdStart s
  | .oneSecondStep => Sys2Proof.Machine.execOneSecondStep s
  | .frameDiscarded l bytes => Sys2Proof.Machine.execFrameDiscarded l bytes s
  | .unknownKindFrame l kind tag => Sys2Proof.Machine.execUnknownKindFrame l kind tag s
  | .frameSent l => Sys2Proof.Machine.execFrameSent l s
  | .flowHold l value => Sys2Proof.Machine.execFlowHold l value s
  | .flowGo l => Sys2Proof.Machine.execFlowGo l s
  | .defineAlarm h f => Sys2Proof.Machine.execDefineAlarm h f s
  | .defineOperator h id present badge level => Sys2Proof.Machine.execDefineOperator h id present badge level s
  | .defineGrant h id kind scope binding => Sys2Proof.Machine.execDefineGrant h id kind scope binding s
  | .definePosition h f => Sys2Proof.Machine.execDefinePosition h f s
  | .groupMaskMask h action groups => Sys2Proof.Machine.execGroupMaskMask h action groups s
  | .groupMaskUnmask h groups => Sys2Proof.Machine.execGroupMaskUnmask h groups s
  | .timeSet h time => Sys2Proof.Machine.execTimeSet h time s
  | .status h => Sys2Proof.Machine.execStatus h s
  | .operatorRead h id => Sys2Proof.Machine.execOperatorRead h id s
  | .relayReset h => Sys2Proof.Machine.execRelayReset h s
  | .commission h hold rates => Sys2Proof.Machine.execCommission h hold rates s
  | .alarmEventRaise h index event => Sys2Proof.Machine.execAlarmEventRaise h index event s
  | .alarmEventClear h index => Sys2Proof.Machine.execAlarmEventClear h index s
  | .outOfService h index => Sys2Proof.Machine.execOutOfService h index s
  | .returnToService h index => Sys2Proof.Machine.execReturnToService h index s
  | .revokeGrant h slot => Sys2Proof.Machine.execRevokeGrant h slot s
  | .alarmStateActive h index state => Sys2Proof.Machine.execAlarmStateActive h index state s
  | .alarmStateInactive h index => Sys2Proof.Machine.execAlarmStateInactive h index s
  | .resyncEnd h => Sys2Proof.Machine.execResyncEnd h s
  | .restart h => Sys2Proof.Machine.execRestart h s
  | .alarmRead h index => Sys2Proof.Machine.execAlarmRead h index s
  | .listRead h selector position start count => Sys2Proof.Machine.execListRead h selector position start count s
  | .loadQuery h selector => Sys2Proof.Machine.execLoadQuery h selector s
  | .journalRead h start count => Sys2Proof.Machine.execJournalRead h start count s
  | .positionRead h position => Sys2Proof.Machine.execPositionRead h position s
  | .bypassRead h => Sys2Proof.Machine.execBypassRead h s
  | .shelfRead h position => Sys2Proof.Machine.execShelfRead h position s
  | .itemRead h position start count => Sys2Proof.Machine.execItemRead h position start count s
  | .ack h index => Sys2Proof.Machine.execAck h index s
  | .ackList h count indices => Sys2Proof.Machine.execAckList h count indices s
  | .shelve h index duration => Sys2Proof.Machine.execShelve h index duration s
  | .unshelve h index => Sys2Proof.Machine.execUnshelve h index s
  | .latchReset h index => Sys2Proof.Machine.execLatchReset h index s
  | .silence h => Sys2Proof.Machine.execSilence h s
  | .bypassDeclare h area interlock duration => Sys2Proof.Machine.execBypassDeclare h area interlock duration s
  | .bypassEnd h area interlock => Sys2Proof.Machine.execBypassEnd h area interlock s
  | .noteAdd h code length text => Sys2Proof.Machine.execNoteAdd h code length text s
  | .signOn h badge => Sys2Proof.Machine.execSignOn h badge s
  | .signOff h => Sys2Proof.Machine.execSignOff h s
  | .handoverOffer h incoming => Sys2Proof.Machine.execHandoverOffer h incoming s
  | .handoverTake h badge => Sys2Proof.Machine.execHandoverTake h badge s
  | .itemConfirm h count numbers => Sys2Proof.Machine.execItemConfirm h count numbers s
  | .handoverAccept h => Sys2Proof.Machine.execHandoverAccept h s
  | .handoverWithdraw h => Sys2Proof.Machine.execHandoverWithdraw h s
  | .handoverCancel h position => Sys2Proof.Machine.execHandoverCancel h position s
  | .reliefTake h badge => Sys2Proof.Machine.execReliefTake h badge s
  | .reliefReturn h badge => Sys2Proof.Machine.execReliefReturn h badge s
  | .reliefClear h position => Sys2Proof.Machine.execReliefClear h position s
  | .areaTransfer h area target => Sys2Proof.Machine.execAreaTransfer h area target s
  | .grantTemporary h target kind scope => Sys2Proof.Machine.execGrantTemporary h target kind scope s
  | .grantEnd h slot => Sys2Proof.Machine.execGrantEnd h slot s
  | .operatorUnlock h id => Sys2Proof.Machine.execOperatorUnlock h id s
  | .decayExpiry p => Sys2Proof.Machine.execDecayExpiry p s
  | .reminderExpiry index => Sys2Proof.Machine.execReminderExpiry index s
  | .shelfExpiry index => Sys2Proof.Machine.execShelfExpiry index s
  | .dueExpiry slot => Sys2Proof.Machine.execDueExpiry slot s
  | .reliefLimitExpiry p frame => Sys2Proof.Machine.execReliefLimitExpiry p frame s
  | .offerTimeout p => Sys2Proof.Machine.execOfferTimeout p s
  | .reviewTimeout p => Sys2Proof.Machine.execReviewTimeout p s
  | .holdTimerExpiry l => Sys2Proof.Machine.execHoldTimerExpiry l s

end Sys2Proof.Machine
end

