-- ==== Sys2Proof/Safety.lean ====
section
/-! DEFINITION. The terms in which claims about the part are made: what a step leaves unchanged, the frames a link sends,
the journal entries a step writes, the items and notices that follow from it, when a request passes the LIU, who may act, and
the invariants of the blocks. -/

namespace Sys2Proof.Machine

/-! ### Frames: what a step leaves unchanged -/

/-- The parts of the state, by the block that holds them. `clock` is mill time with its flag; `device` is the run state,
the start record, the relay and the plant link's hold time; `free` and `pending` are the model's own. -/
inductive Part
  | clock | device | links | alarms | mask | lists | escalation | loads | operators | grants | positions | areas
  | bypasses | journal | free | pending
deriving DecidableEq, Repr

/-- Two states agree on a part. -/
def Agrees (s t : State) : Part → Prop
  | .clock => t.millTime = s.millTime ∧ t.timeSet = s.timeSet
  | .device => t.runState = s.runState ∧ t.startKind = s.startKind ∧ t.restarts = s.restarts ∧ t.relay = s.relay ∧
      t.plantHold = s.plantHold
  | .links => t.links = s.links
  | .alarms => t.alarms = s.alarms
  | .mask => t.mask = s.mask
  | .lists => t.lists = s.lists
  | .escalation => t.escalation = s.escalation
  | .loads => t.loads = s.loads
  | .operators => t.operators = s.operators
  | .grants => t.grants = s.grants
  | .positions => t.positions = s.positions
  | .areas => t.areas = s.areas
  | .bypasses => t.bypasses = s.bypasses
  | .journal => t.journal = s.journal ∧ t.nextSeq = s.nextSeq
  | .free => t.free = s.free
  | .pending => t.pending = s.pending

/-- Every part outside a list is unchanged. -/
structure Kept (parts : List Part) (s t : State) : Prop where
  agrees : ∀ p, p ∉ parts → Agrees s t p

/-- The part of an alarm point that the position lists do not write: its definition, input, lifecycle, acknowledger
and shelved flag. -/
def Alarm.settled (a : Alarm) : AlarmDef × Input × Lifecycle × Option Nat × Bool :=
  (a.defn, a.dyn.input, a.dyn.lifecycle, a.dyn.acknowledger, a.dyn.shelved)

/-- Every alarm but one has the definition, input, lifecycle, acknowledger and shelved flag it had. -/
def OtherAlarmsSettled (i : Nat) (s t : State) : Prop :=
  ∀ j, j ≠ i → (alarm? t j).map Alarm.settled = (alarm? s j).map Alarm.settled

/-- Every position context is unchanged but for its item list. -/
def DesksKept (s t : State) : Prop :=
  ∀ q, { t.positions.get q with items := [] } = { s.positions.get q with items := [] }

/-- Every position context but one is unchanged. -/
def OtherDesksKept (p : Pos) (s t : State) : Prop := ∀ q, q ≠ p → t.positions.get q = s.positions.get q

/-- Every operator record but one is unchanged. -/
def OtherOperatorsKept (o : Nat) (s t : State) : Prop := ∀ q, q ≠ o → t.operators.get? q = s.operators.get? q

/-- Every grant slot but one is unchanged. -/
def OtherSlotsKept (n : Nat) (s t : State) : Prop := ∀ m, m ≠ n → t.grants.get? m = s.grants.get? m

/-! ### Which commands may change which part -/

/-- The commands that act on an alarm point and on the lists that hold it. -/
def actsOnAlarms (c : Instr) : Bool :=
  match c with
  | .alarmEventRaise .. | .alarmEventClear .. | .alarmStateActive .. | .alarmStateInactive .. | .groupMaskMask ..
  | .groupMaskUnmask .. | .outOfService .. | .returnToService .. | .ack .. | .ackList .. | .shelve .. | .unshelve ..
  | .shelfExpiry .. | .reminderExpiry .. | .restart .. => true
  | _ => false

/-- The commands that may change a part; every other command leaves it. The links, the journal and the model's counter
of free values are judged by other claims. -/
def Part.changedBy (part : Part) (c : Instr) : Bool :=
  match part, c with
  | .links, _ | .journal, _ | .free, _ => true
  | .pending, _ => false
  | _, .coldStart => true
  | .clock, .oneSecondStep | .clock, .timeSet .. => true
  | .device, .commission .. | .device, .resyncEnd .. | .device, .restart .. | .device, .relayReset ..
  | .device, .holdTimerExpiry .. => true
  | .mask, .groupMaskMask .. | .mask, .groupMaskUnmask .. => true
  | .areas, .areaTransfer .. => true
  | .bypasses, .oneSecondStep | .bypasses, .bypassDeclare .. | .bypasses, .bypassEnd .. | .bypasses, .dueExpiry .. => true
  | .operators, .defineOperator .. | .operators, .operatorUnlock .. | .operators, .signOn .. | .operators, .signOff ..
  | .operators, .handoverTake .. | .operators, .handoverAccept .. | .operators, .handoverWithdraw ..
  | .operators, .handoverCancel .. | .operators, .reviewTimeout .. | .operators, .reliefTake ..
  | .operators, .reliefReturn .. | .operators, .reliefClear .. | .operators, .restart .. => true
  | .grants, .defineOperator .. | .grants, .defineGrant .. | .grants, .revokeGrant .. | .grants, .grantTemporary ..
  | .grants, .grantEnd .. | .grants, .signOff .. | .grants, .handoverAccept .. | .grants, .handoverWithdraw ..
  | .grants, .handoverCancel .. | .grants, .reviewTimeout .. | .grants, .reliefReturn .. | .grants, .reliefClear ..
  | .grants, .restart .. => true
  | .loads, .oneSecondStep | .loads, .definePosition .. | .loads, .loadQuery .. | .loads, .decayExpiry ..
  | .loads, .reminderExpiry .. | .loads, .alarmEventRaise .. | .loads, .groupMaskUnmask .. | .loads, .returnToService ..
  | .loads, .unshelve .. | .loads, .shelfExpiry .. | .loads, .restart .. => true
  | .escalation, .restart .. | .escalation, .reminderExpiry .. | .escalation, .ack .. | .escalation, .ackList ..
  | .escalation, .shelve .. | .escalation, .outOfService .. | .escalation, .groupMaskMask .. => true
  | .alarms, .defineAlarm .. | .alarms, .definePosition .. | .alarms, .decayExpiry .. | .alarms, .areaTransfer ..
  | .alarms, .resyncEnd .. | .alarms, .latchReset .. => true
  | .lists, .oneSecondStep | .lists, .definePosition .. | .lists, .decayExpiry .. | .lists, .areaTransfer ..
  | .lists, .silence .. => true
  | .positions, .oneSecondStep | .positions, .definePosition .. | .positions, .decayExpiry .. | .positions, .latchReset ..
  | .positions, .bypassDeclare .. | .positions, .bypassEnd .. | .positions, .noteAdd .. | .positions, .signOn ..
  | .positions, .signOff .. | .positions, .handoverOffer .. | .positions, .handoverTake .. | .positions, .itemConfirm ..
  | .positions, .handoverAccept .. | .positions, .handoverWithdraw .. | .positions, .handoverCancel ..
  | .positions, .offerTimeout .. | .positions, .reviewTimeout .. | .positions, .reliefTake .. | .positions, .reliefReturn ..
  | .positions, .reliefClear .. | .positions, .reliefLimitExpiry .. => true
  | .alarms, c | .lists, c | .positions, c => actsOnAlarms c
  | _, _ => false

/-! ### Links -/

/-- The frames a link is sending or has waiting as replies, in the order in which they leave. -/
def outgoing (s : State) (l : Link) : List Frame := (s.links.get l).sending.toList ++ (s.links.get l).replies

/-- The flow, the condition and the rates of every link are unchanged. -/
def LinesKept (s t : State) : Prop :=
  ∀ l, (t.links.get l).flow = (s.links.get l).flow ∧ (t.links.get l).up = (s.links.get l).up ∧
    (t.links.get l).rate = (s.links.get l).rate ∧ (t.links.get l).storedRate = (s.links.get l).storedRate

/-- On a link nothing is added to the frames it sends but, where it was free, one frame that is not a reply: a notice, or
the next frame of a SNAPSHOT that was in progress. -/
def OnlyNoticeStarts (s t : State) (l : Link) : Prop :=
  outgoing t l = outgoing s l ∨
    (outgoing s l = [] ∧ ∃ f, (f.reply = false ∨ f ∈ (s.links.get l).snapshot) ∧ outgoing t l = [f])

/-- The frames of an answer join what the requesting link sends, and no other link sends a reply for it. -/
def Replied (k : Kind) (h : Header) (a : Answer) (s t : State) : Prop :=
  outgoing t h.link = outgoing s h.link ++ answerFrames k h.tag a ∧ ∀ l, l ≠ h.link → OnlyNoticeStarts s t l

/-- No link sends a reply for the step. -/
def NoReply (s t : State) : Prop := ∀ l, OnlyNoticeStarts s t l

/-! ### The journal -/

/-- The fields of a journal entry that the writing rule gives. -/
structure Line where
  kind : EntryKind
  position : Option Pos
  operator : Option Nat
  index : Option Nat
  detail : Nat
deriving DecidableEq, Repr

/-- The state after entries are appended in order. -/
def writeLines (ls : List Line) (s : State) : State :=
  ls.foldl (fun s e => append e.kind e.position e.operator e.index e.detail s) s

/-- The step appended exactly these entries, at the mill time it began with. -/
def Journaled (ls : List Line) (s t : State) : Prop :=
  t.journal = (writeLines ls s).journal ∧ t.nextSeq = (writeLines ls s).nextSeq

/-- The step appended these entries first, and perhaps others after them. -/
def JournaledFirst (ls : List Line) (s t : State) : Prop := ∃ more, Journaled (ls ++ more) s t

/-! ### Who may act -/

/-- R164 steps 2 to 4: the request's body is long enough, its kind is taken on the link and in the run state. -/
abbrev Passes (k : Kind) (h : Header) (s : State) : Prop :=
  fixedLength k ≤ h.len ∧ linkAllowed (linkRule k) h.link = true ∧ runStateAllowed k h.link s.runState = true

/-- R79: the operator is the holder of a position. -/
abbrev Holds (s : State) (o : Nat) (p : Pos) : Prop := engagementOf s o = some (p, .holder)

/-- Table 4-3, last row: the operator holds P0 and SUPERVISE there. -/
abbrev Supervises (s : State) (o : Nat) : Prop := Holds s o .p0 ∧ holdsAt s.grants o .supervise .p0 = true

/-- A request of the gateway, or of the supervisor at P0. -/
abbrev FromGatewayOrSupervisor (h : Header) (s : State) : Prop := h.link = .plant ∨ Supervises s h.op

/-- R80 to R82: at position `p` the operator may act on an alarm with a grant of kind `k` and a level limit. -/
abbrev MayAct (s : State) (o i : Nat) (k : GrantKind) (limit : Nat) (p : Pos) : Prop :=
  i ≤ 2047 ∧ isDefined s i = true ∧ Holds s o p ∧
    (ownerOf s i = p ∨ (p = .p0 ∧ holdsFor s.grants o .supervise (alarmAt s i).defn.area .p0 = true)) ∧
    holdsFor s.grants o k (alarmAt s i).defn.area p = true ∧ levelOf s o ≤ limit

/-- R67: a defined operator who is not locked gives the badge code of the record. -/
abbrev BadgePasses (s : State) (o : Nat) (badge : Word) : Prop :=
  ((operator? s o).any fun r => !r.locked && r.badge == badge) = true

/-- R71, R82: the operator covers the position and its level is within the staffing level. -/
abbrev MayTakeDesk (s : State) (o : Nat) (p : Pos) : Prop :=
  engagementOf s o = none ∧ uncovered? s s.grants o p = none ∧ levelOf s o ≤ (s.positions.get p).staffing

/-- R60, R83: the load does not keep the operator from taking the position. -/
abbrev LoadAllows (s : State) (o : Nat) (p : Pos) : Prop :=
  (s.loads.get p).load < (s.loads.get p).h ∨ holdsAt s.grants o .supervise p = true

/-- R129: room for an item that is not a summary item is judged only in REVIEW. -/
abbrev HasRoom (s : State) (p : Pos) : Prop := (s.positions.get p).state = .review → hasFreePlace (s.positions.get p).items = true

/-! ### Where an alarm stands -/

/-- R26: an alarm that stands on the annunciation list of its owning position is neither deferred nor in overflow, and one
that is deferred is not in overflow. -/
abbrev OnePlace (s : State) (i : Nat) : Prop :=
  (onAnn s (ownerOf s i) i = true → onDeferred s (ownerOf s i) i = false ∧ (alarmAt s i).dyn.overflow = false) ∧
    (onDeferred s (ownerOf s i) i = true → (alarmAt s i).dyn.overflow = false)

/-- R19, R26: an alarm in RAISED or RETURNED that is not shelved. -/
def Alarm.isOpen (a : Alarm) : Bool :=
  (a.dyn.lifecycle == .raised || a.dyn.lifecycle == .returned) && !a.dyn.shelved

/-- R28: an alarm that goes to overflow has its flag set, and keeps its lifecycle and its escalated flag. -/
def Overflows (i : Nat) (s r : State) : Prop :=
  ∀ a, alarm? s i = some a → ∃ b, alarm? r i = some b ∧ b.dyn.overflow = true ∧ b.settled = a.settled ∧
    b.dyn.escalated = a.dyn.escalated

/-- R28: the deferred insertion of an alarm with a time at a position, from `s` to `r`: it joins a list with room; it takes
the place of the lowest entry, which goes to overflow, where it outranks that entry; otherwise it goes to overflow. An alarm
that joins has its overflow flag clear. -/
def DeferredTakes (p : Pos) (i : Nat) (time : Word) (s r : State) : Prop :=
  let d := (s.lists.get p).deferred
  let after := (r.lists.get p).deferred
  (d.length < 256 → after.length = d.length + 1 ∧ ⟨i, time⟩ ∈ after ∧ (alarmAt r i).dyn.overflow = false) ∧
  ∀ low, 256 ≤ d.length → d.getLast? = some low →
    (outranks (rankOf s i time) (rankOf s low.alarm low.time) = true → low.alarm ≠ i →
      ⟨i, time⟩ ∈ after ∧ (∀ e ∈ after, e.alarm ≠ low.alarm) ∧ (alarmAt r i).dyn.overflow = false ∧
        Overflows low.alarm s r) ∧
    (outranks (rankOf s i time) (rankOf s low.alarm low.time) = false → after = d ∧ Overflows i s r)

/-! ### The items of a review (section 7.4.3) -/

/-- R128, R137: one change of an item list: an item appended at its end, or an item changed in place. -/
inductive ItemChange
  | appended (it : Item)
  | changed (it : Item)
deriving DecidableEq, Repr

/-- The item as the change leaves it. -/
def ItemChange.item : ItemChange → Item
  | .appended it | .changed it => it

/-- An item list after one change. -/
def ItemChange.apply (items : List Item) : ItemChange → List Item
  | .appended it => items ++ [it]
  | .changed it => items.map fun x => if x.number = it.number then it else x

/-- What reports do to an item list: the changes they make, in order. -/
abbrev ItemWork := List Item → List ItemChange

/-- An item list after the changes. -/
def ItemWork.result (w : ItemWork) (items : List Item) : List Item := (w items).foldl ItemChange.apply items

/-- One report after another. -/
def ItemWork.andThen (w v : ItemWork) : ItemWork := fun items => w items ++ v (w.result items)

/-- Reports that change no item. -/
def noItems : ItemWork := fun _ => []

/-- The work of a report that is made only where a condition holds. -/
def ItemWork.onlyIf (c : Bool) (w : ItemWork) : ItemWork := if c then w else noItems

/-- R128: an appended item takes the next number, is open, and is marked as arrived during review. -/
def appendedItem (items : List Item) (k : ItemKind) (subject count : Nat) : ItemChange :=
  .appended ⟨items.length, k, subject, count, false, false, true⟩

/-- R128, R131 to R133: an item rises by 1 and is reopened. What 65535 rises to is given by `wrapped`, one value for each
kind (log 7). -/
def risenItem (wrapped : ItemKind → Nat) (it : Item) : ItemChange :=
  .changed { it with count := if it.count < 65535 then it.count + 1 else wrapped it.kind,
                     confirmed := false, resolved := false, arrived := true }

/-- R131, R133: the summary item of a kind rises by 1, or is appended with count 1. -/
def summaryRises (wrapped : ItemKind → Nat) (k : ItemKind) (subject : Nat) : ItemWork := fun items =>
  match items.find? fun it => it.kind == k with
  | some it => [risenItem wrapped it]
  | none => [appendedItem items k subject 1]

/-- R131, R133: the summary item of a kind falls by 1, and is resolved at 0. -/
def summaryFalls (k : ItemKind) : ItemWork := fun items =>
  match items.find? fun it => it.kind == k with
  | some it => [.changed { it with count := it.count - 1, resolved := it.resolved || it.count - 1 == 0 }]
  | none => []

/-- The unresolved item of a kind with a subject. -/
def unresolved? (items : List Item) (k : ItemKind) (subject : Nat) : Option Item :=
  items.find? fun it => it.kind == k && it.subject == subject && !it.resolved

/-- R132, R134: the unresolved item of a kind with a subject is resolved. -/
def itemResolved (k : ItemKind) (subject : Nat) : ItemWork := fun items =>
  match unresolved? items k subject with
  | some it => [.changed { it with resolved := true }]
  | none => []

/-- R132: the ARRIVAL item of an alarm rises by 1, or is appended where the list has a free place. -/
def arrivalRises (wrapped : ItemKind → Nat) (i : Nat) : ItemWork := fun items =>
  match unresolved? items .arrival i with
  | some it => [risenItem wrapped it]
  | none => if hasFreePlace items then [appendedItem items .arrival i 1] else []

/-- R131, R132: a PLACED report of an alarm. -/
def itemsPlaced (wrapped : ItemKind → Nat) (priority i : Nat) : ItemWork :=
  (summaryRises wrapped (.unack priority) priority).andThen ((arrivalRises wrapped i).onlyIf (priority == 1))

/-- R131: a REMOVED report of an alarm. -/
def itemsRemoved (priority : Nat) : ItemWork := summaryFalls (.unack priority)

/-- R132, R133: a LIFECYCLE report of an alarm at position `p`. -/
def itemsLifecycle (wrapped : ItemKind → Nat) (p : Pos) (i : Nat) (old new : Lifecycle) : ItemWork :=
  ((itemResolved .arrival i).onlyIf (!(new == .raised || new == .returned))).andThen
    (if new = .latched then summaryRises wrapped .latched p.num else (summaryFalls .latched).onlyIf (old == .latched))

/-- R134: a SHELVED report of a first shelve. -/
def itemsShelved (i effective : Nat) : ItemWork := fun items => [appendedItem items .shelf i effective]

/-- R134: a SHELVED report of a renewal. -/
def itemsRenewed (i effective : Nat) : ItemWork := fun items =>
  match unresolved? items .shelf i with
  | some it => [.changed { it with count := effective, confirmed := false, resolved := false, arrived := true }]
  | none => []

/-- R136: the FLOOD report of a change of flood mode at a position, if there was one. -/
def itemsFlood (p : Pos) (s t : State) : ItemWork :=
  ItemWork.onlyIf ((t.loads.get p).flood != (s.loads.get p).flood) fun items =>
    let d := t.loads.get p
    match items.find? fun it => it.kind == .flood with
    | some it => [.changed (if d.flood then { it with count := d.load, confirmed := false, resolved := false, arrived := true }
        else { it with resolved := true })]
    | none => if d.flood then [appendedItem items .flood p.num d.load] else []

/-- The items of position `p` follow the reports where it is in REVIEW, and no other item changes. -/
def ItemsFollow (p : Pos) (w : ItemWork) (s t : State) : Prop :=
  ∀ q, (t.positions.get q).items =
    if q = p ∧ (s.positions.get q).state = .review then w.result (s.positions.get q).items else (s.positions.get q).items

/-! ### The notices that a command produces -/

/-- R167: the notices that a command produces for each link join its queue in order. Said where the link is UP, is sending,
has no SNAPSHOT due or in progress and has room for them all. What becomes of a notice elsewhere is said of every
notice (R167, R169). -/
def Announced (told : Link → List Notice) (s t : State) : Prop :=
  ∀ l, let k := s.links.get l
    k.up = true → k.sending ≠ none → k.snapshotDue = false → k.snapshot = [] → k.queue.length + (told l).length ≤ 32 →
      (t.links.get l).queue.map (·.notice) = k.queue.map (·.notice) ++ told l

/-- Notices for a position's console. -/
def atDesk (p : Pos) (ns : List Notice) (l : Link) : List Notice := if l = .console p then ns else []

/-- Notices for a position's console and for P0's. -/
def atBoth (p : Pos) (ns : List Notice) (l : Link) : List Notice := if l = .console p ∨ l = .console .p0 then ns else []

/-- R137: an ITEM notice for each change of an item of a position in REVIEW. -/
def itemNotices (p : Pos) (w : ItemWork) (s : State) : List Notice :=
  if (s.positions.get p).state = .review then (w (s.positions.get p).items).map fun c => .item c.item else []

/-- R43: the HORN notice of a horn line that changed. -/
def hornNotices (p : Pos) (s t : State) : List Notice :=
  if (t.lists.get p).horn = (s.lists.get p).horn then [] else [.horn p (t.lists.get p).horn]

/-- R57, R58: the LOAD notice of a flood mode that changed. -/
def loadNotices (p : Pos) (s t : State) : List Notice :=
  let d := t.loads.get p
  if d.flood = (s.loads.get p).flood then [] else [.load p d.load d.flood d.limit]

/-- R27: the ANNUNCIATE notice of an alarm at a position. -/
def annunciation (s : State) (p : Pos) (i : Nat) (time : Word) (lc : Lifecycle) : Notice :=
  .annunciate i (priorityOf s i) (alarmAt s i).defn.area lc time p

/-- R27, R28: the notices of a placement at a position. -/
def placementNotices (p : Pos) (i : Nat) (time : Word) (lc : Lifecycle) (s : State) : List Notice :=
  let ann := (s.lists.get p).ann
  if (s.loads.get p).flood = true ∧ priorityOf s i = 4 then []
  else if ann.length < 128 then [annunciation s p i time lc]
  else match ann.getLast? with
    | some low => if outranks (rankOf s i time) (rankOf s low.alarm low.time) then
        [.retract low.alarm .displaced, annunciation s p i time lc] else []
    | none => []

/-- R32, R33: the notices of a departure of an alarm from the annunciation list, where it stood there: the RETRACT, and the
ANNUNCIATE of the entry promoted into its room. -/
def departureNotices (p : Pos) (i : Nat) (reason : Reason) (s : State) : List Notice :=
  if onAnn s p i then
    .retract i reason ::
      (((s.lists.get p).deferred.find? fun e => !((s.loads.get p).flood && priorityOf s e.alarm == 4)).toList.map fun e =>
        annunciation s p e.alarm e.time (lifecycleOf s e.alarm))
  else []

/-- R42: the ESCALATE notice LEFT of an alarm that was escalated. -/
def leftEscalation (i : Nat) (reason : Reason) (s : State) : List Notice :=
  if (alarmAt s i).dyn.escalated then
    [.escalate i (priorityOf s i) (alarmAt s i).defn.area (ownerOf s i) (some reason)] else []

/-! ### Grants that end -/

/-- R76, R157: the entry of a grant. -/
def grantLine (k : EntryKind) (slot : Nat) (g : Grant) : Line :=
  ⟨k, g.binding, some g.operator, g.scope, g.temporary.toNat * 4096 + grantKindCode g.kind * 256 + slot⟩

/-- R76: the GRANT_ENDED entries of the grants that meet a condition, in slot order. -/
def endedLines (f : Grant → Bool) (s : State) : List Line :=
  (s.grants.filter fun e => f e.2).map fun e => grantLine .grantEnded e.1 e.2

/-- Exactly the grants that meet a condition have left the table. -/
def GrantsEnded (f : Grant → Bool) (s t : State) : Prop :=
  ∀ n g, t.grants.get? n = some g ↔ s.grants.get? n = some g ∧ f g = false

/-- R75: a temporary grant of an operator, bound to a position. -/
def boundTemporary (o : Nat) (p : Pos) (g : Grant) : Bool := g.temporary && g.operator == o && g.binding == some p

/-- R122: position `p`, in handover to `incoming`, has gone back to its holder: a review's items are gone and its
incoming is released with the temporary grants bound here; the entry names who ended it and why, and the HANDOVER notices
with change ENDED go to the position's console and to P0's (R121). -/
def HandoverGone (p : Pos) (incoming : Nat) (reason : EndReason) (ender : Option Nat) (s t : State) : Prop :=
  (let c := s.positions.get p
   t.positions.get p = ⟨.staffed, c.holder, none, c.staffing, c.offerTimeout, c.reviewTimeout, c.reliefLimit, c.holdTime,
     c.notes, c.relief, if c.state = .review then [] else c.items, none⟩) ∧
  ((s.positions.get p).state = .offered → t.operators = s.operators ∧ t.grants = s.grants ∧
    Journaled [⟨.handoverEnded, some p, ender, none, endReasonCode reason * 256 + incoming⟩] s t) ∧
  ((s.positions.get p).state = .review → engagementOf t incoming = none ∧ OtherOperatorsKept incoming s t ∧
    GrantsEnded (boundTemporary incoming p) s t ∧
    Journaled (endedLines (boundTemporary incoming p) s ++
      [⟨.handoverEnded, some p, ender, none, endReasonCode reason * 256 + 128 + incoming⟩]) s t) ∧
  Announced (atBoth p [.handover p .ended (s.positions.get p).holder none 0 (some reason)]) s t ∧
  OtherDesksKept p s t ∧ LinesKept s t ∧ Kept [.operators, .grants, .positions, .journal, .links] s t

/-! ### Invariants -/

/-- R48, R56: the load state of one position. -/
def PosLoad.Sound (d : PosLoad) : Prop :=
  d.load ≤ 65535 ∧ 1 ≤ d.k ∧ d.k ≤ 255 ∧ d.x < d.e ∧ d.e ≤ 65535 ∧ 1 ≤ d.h ∧ d.h ≤ 65535 ∧
    (d.flood = true → d.x < d.load) ∧ (d.flood = false → d.load < d.e)

/-- R56: the load state of every position. -/
def LoadInv (s : State) : Prop := ∀ p, (s.loads.get p).Sound

/-- R24, R25: entries in rank order, with no alarm twice. -/
def InRankOrder (s : State) (l : List ListEntry) : Prop :=
  l.Pairwise (fun a b => outranks (rankOf s a.alarm a.time) (rankOf s b.alarm b.time) = true) ∧ (l.map (·.alarm)).Nodup

/-- Table 2-1: the alarm and annunciation time of an entry of an annunciation list. -/
def AnnEntry.listed (e : AnnEntry) : ListEntry := ⟨e.alarm, e.time⟩

/-- R108: a shelf list runs by expiry remaining and then by index, with no alarm twice. Entries whose timers have both
reached 0 may wait for their expiries in either order (log 1). -/
def InShelfOrder (l : List ShelfEntry) : Prop :=
  l.Pairwise (fun a b => a.remaining ≤ b.remaining ∧ (a.remaining = b.remaining → 0 < a.remaining → a.alarm < b.alarm)) ∧
    (l.map (·.alarm)).Nodup

/-- R26: what has a place at its owning position: an alarm in RAISED or RETURNED that is neither shelved nor suppressed. -/
def isPlaced (s : State) (i : Nat) (a : Alarm) : Bool := a.isOpen && !isSuppressed s i

/-- R26, R32, R40, R108: one defined alarm and the lists. It stands in exactly one of the three places of its owning position,
with an annunciation time, where it is to be placed, and otherwise in none, with none. Its escalated flag is set exactly
while it is on the escalation list, where only a placed alarm stands; its shelved flag exactly while it is on the shelf list
of its owning position. An alarm out of service is not shelved, and in UNCONFIGURED none is raised or shelved (R4). -/
def InItsPlace (s : State) (i : Nat) (a : Alarm) : Prop :=
  [onAnn s (ownerOf s i) i, onDeferred s (ownerOf s i) i, a.dyn.overflow].count true = (isPlaced s i a).toNat ∧
    a.dyn.annTime.isSome = isPlaced s i a ∧
    (a.dyn.escalated = true ↔ ∃ e ∈ s.escalation, e.alarm = i) ∧ (a.dyn.escalated = true → isPlaced s i a = true) ∧
    (a.dyn.shelved = true ↔ ∃ e ∈ (s.lists.get (ownerOf s i)).shelf, e.alarm = i) ∧
    (a.dyn.lifecycle = .outOfService → a.dyn.shelved = false) ∧
    (s.runState = .unconfigured → (a.dyn.lifecycle = .normal ∨ a.dyn.lifecycle = .outOfService) ∧ a.dyn.shelved = false)

/-- R167 to R173: one link. The queue holds at most 32 notices and none while DOWN. A link that is due a SNAPSHOT has at
most one list notice waiting (the one that R169 case 2 lets join), and so has a link with a SNAPSHOT in progress among
the notices that joined before its start, by the model's mark (log 22). The allowance belongs to HOLD: that it is 0 in GO is
the model's choice (log 30). The hold timer runs exactly while its three conditions hold. -/
def LinkState.Sound (k : LinkState) : Prop :=
  k.queue.length ≤ 32 ∧ (k.up = false → k.queue = []) ∧
    (k.snapshotDue = true → k.queue.countP (fun q => q.notice.isList) ≤ 1) ∧
    (k.snapshot ≠ [] → k.queue.countP (fun q => q.notice.isList && !q.since) ≤ 1) ∧
    (k.allowance = true → k.flow = .hold) ∧ k.holdTimer.isSome = k.holdRuns

/-- R169: what the plant link holds: FAULT notices alone, and no snapshot. -/
def PlantSound (k : LinkState) : Prop :=
  k.snapshotDue = false ∧ k.snapshot = [] ∧ ∀ q ∈ k.queue, ∃ l, q.notice = .fault l

/-- R167 to R173: every link. -/
def LinkInv (s : State) : Prop := (∀ l, (s.links.get l).Sound) ∧ PlantSound s.links.plant

/-- R154: at most 4096 entries, whose sequences are consecutive and end just before the next sequence. -/
def JournalInv (s : State) : Prop :=
  s.journal.length ≤ 4096 ∧
    ∀ n (hn : n < s.journal.length), s.journal[n].sequence = s.nextSeq - BitVec.ofNat 32 (s.journal.length - n)

/-- R128: items are numbered from 0 in list order. -/
abbrev Numbered (items : List Item) : Prop := ∀ n (hn : n < items.length), items[n].number = n

/-- R25, R40, R69, R95, R99, R104, R108, R129, R146: the capacities of the lists and tables, the numbering of items
(R128), and the canonical form of the tables. -/
def CapacityInv (s : State) : Prop :=
  (∀ p, (s.lists.get p).ann.length ≤ 128 ∧ (s.lists.get p).deferred.length ≤ 256 ∧ (s.lists.get p).shelf.length ≤ 32) ∧
    s.escalation.length ≤ 64 ∧
    (∀ p, (s.positions.get p).notes.length ≤ 8 ∧ (s.positions.get p).relief.length ≤ 2 ∧
      (s.positions.get p).items.length + heldPlaces (s.positions.get p).items ≤ 96 ∧
      Numbered (s.positions.get p).items) ∧
    s.areas.length = 16 ∧
    s.alarms.wf = true ∧ s.operators.wf = true ∧ s.grants.wf = true ∧ s.bypasses.wf = true ∧
    (∀ e ∈ s.grants, e.1 < 256) ∧ (∀ e ∈ s.bypasses, e.1 < 16)

/-- R90, R121, R146: one position context. It has a holder exactly when it is not VACANT, and an incoming and a running
handover timer exactly in OFFERED and REVIEW; items stand only in REVIEW, and relief frames only in STAFFED. -/
def PosContext.Sound (c : PosContext) : Prop :=
  (c.holder = none ↔ c.state = .vacant) ∧ (c.incoming.isSome ↔ c.state = .offered ∨ c.state = .review) ∧
    (c.timer.isSome ↔ c.state = .offered ∨ c.state = .review) ∧ (c.items ≠ [] → c.state = .review) ∧
    (c.relief ≠ [] → c.state = .staffed)

/-- R90: every position context. -/
def DeskInv (s : State) : Prop := ∀ p, (s.positions.get p).Sound

/-- R66: an operator serves at a position in a role: as its holder, as the incoming of its review, or in a frame of its
relief stack. -/
def Serves (s : State) (p : Pos) (o : Nat) : Role → Prop
  | .holder => (s.positions.get p).holder = some o
  | .incoming => (s.positions.get p).state = .review ∧ (s.positions.get p).incoming = some o
  | .stacked => ∃ f ∈ (s.positions.get p).relief, f.operator = o

/-- R66, R71, R90: the engagements that the ACU holds are those of the PCU, no operator stands twice in a relief stack, and the
holder of every position covers it. -/
def EngagementInv (s : State) : Prop :=
  DeskInv s ∧ s.grants.wf = true ∧ (∀ o p role, engagementOf s o = some (p, role) ↔ Serves s p o role) ∧
    (∀ p, ((s.positions.get p).relief.map (·.operator)).Nodup) ∧
    ∀ p o a, (s.positions.get p).holder = some o → a < 16 → areaOwner s a = p → holdsFor s.grants o .operate a p = true

/-- R1, R2: the ranges of a stored definition, and what the SAFETY class forces. -/
def AlarmDef.Sound (d : AlarmDef) : Prop :=
  d.area ≤ 15 ∧ 1 ≤ d.priority ∧ d.priority ≤ 4 ∧ d.ackLevel ≤ 3 ∧ d.group ≤ 31 ∧ 60 ≤ d.maxShelve ∧
    d.maxShelve ≤ 28800 ∧ 30 ≤ d.reminder ∧ d.reminder ≤ 3600 ∧ d.escalation ≤ 15 ∧
    (d.cls = .safety → d.group = 0 ∧ d.shelvable = false)

/-- R5 to R7: one alarm point. It has an acknowledger exactly in HELD and LATCHED, it is in service exactly outside
OUT_OF_SERVICE, and its reminder count is at most 15. -/
def Alarm.Sound (a : Alarm) : Prop :=
  a.defn.Sound ∧ (a.dyn.acknowledger.isSome ↔ a.dyn.lifecycle = .held ∨ a.dyn.lifecycle = .latched) ∧
    (a.defn.inService = false ↔ a.dyn.lifecycle = .outOfService) ∧ a.dyn.reminders ≤ 15

/-- R1 to R7: every defined alarm. -/
def AlarmInv (s : State) : Prop := ∀ e ∈ s.alarms, e.1 ≤ 2047 ∧ e.2.Sound

/-- R38, R43: the annunciation list of a position. A reminder runs exactly for a RAISED entry, and in flood mode only for one
of priority 1 or 2. The horn line sounds exactly while an unsilenced RAISED entry of priority 1 or 2 stands there. -/
def DeskSounds (s : State) (p : Pos) : Prop :=
  (∀ e ∈ (s.lists.get p).ann, (e.reminder.isSome = true ↔
    lifecycleOf s e.alarm = .raised ∧ ((s.loads.get p).flood = false ∨ priorityOf s e.alarm ≤ 2))) ∧
    ((s.lists.get p).horn = true ↔ ∃ e ∈ (s.lists.get p).ann,
      e.silenced = false ∧ priorityOf s e.alarm ≤ 2 ∧ lifecycleOf s e.alarm = .raised)

/-- R24 to R26, R38, R40, R43, R108: the alarms and the lists agree. The lists are in order with no alarm twice; an entry names
a defined alarm of the list's position (of any position, on the escalation list) with the annunciation time it holds; every
defined alarm is in its place; and the reminders and the horn lines follow the lists. -/
def PlaceInv (s : State) : Prop :=
  CapacityInv s ∧ AlarmInv s ∧
    (∀ p, InRankOrder s ((s.lists.get p).ann.map (·.listed)) ∧ InRankOrder s (s.lists.get p).deferred ∧
      InShelfOrder (s.lists.get p).shelf) ∧
    InRankOrder s s.escalation ∧
    (∀ p, ∀ e ∈ (s.lists.get p).ann.map (·.listed) ++ (s.lists.get p).deferred,
      ownerOf s e.alarm = p ∧ ∃ a, alarm? s e.alarm = some a ∧ a.dyn.annTime = some e.time) ∧
    (∀ e ∈ s.escalation, ∃ a, alarm? s e.alarm = some a ∧ a.dyn.annTime = some e.time) ∧
    (∀ p, ∀ e ∈ (s.lists.get p).shelf, isDefined s e.alarm = true ∧ ownerOf s e.alarm = p) ∧
    (∀ i a, alarm? s i = some a → InItsPlace s i a) ∧
    ∀ p, DeskSounds s p

end Sys2Proof.Machine
end

