-- ==== Sys2Proof/WellFormed.lean ====
section
/-! DEFINITION. When a command's fields are those of a frame or event: each number in the width Table 10-8 and Table
10-10 give it. Ranges that a rule judges with a refusal are NOT asked here: such a command is well formed and is
refused by its meaning. -/

namespace Sys2Proof

/-- A one-byte field. -/
def isByte (n : Nat) : Bool := n < 256

/-- A two-byte field. -/
def isHalf (n : Nat) : Bool := n < 65536

/-- The header of a good frame: LEN at most 240 (R163), the acting operator one byte. -/
def Header.wf (h : Header) : Bool := decide (h.len ≤ maxBody) && isByte h.op

/-- The widths of the fields of DEFINE_ALARM (Table 10-8). -/
def AlarmFields.wf (f : AlarmFields) : Bool :=
  isHalf f.index && isByte f.area && isByte f.priority && isByte f.cls && isByte f.ackLevel && isByte f.group &&
    isByte f.shelvable && isHalf f.maxShelve && isHalf f.reminder && isByte f.escalation && isByte f.inService

/-- The widths of the fields of DEFINE_POSITION (Table 10-8). -/
def PositionFields.wf (f : PositionFields) : Bool :=
  isByte f.position && isByte f.staffing && isHalf f.offer && isHalf f.review && isHalf f.relief && isHalf f.hold &&
    isHalf f.k && isHalf f.e && isHalf f.x && isHalf f.h

/-- The widths of a command's fields; where two rows share a KIND, the row that carries the coded byte does not carry
the other row's code (Table 10-11); a variable part holds what the body had room for (R176). -/
def Instr.wf : Instr → Bool
  | .coldStart | .oneSecondStep | .frameDiscarded _ _ | .frameSent _ | .flowGo _ | .decayExpiry _
  | .offerTimeout _ | .reviewTimeout _ | .holdTimerExpiry _ => true
  | .unknownKindFrame _ kind _ => kindOf? kind.toNat == none && kind.toNat != flowCode
  | .flowHold _ v => v != some 0
  | .defineAlarm h f => h.wf && f.wf
  | .defineOperator h id present _ level => h.wf && isByte id && isByte present && isByte level
  | .defineGrant h id kind scope binding => h.wf && isByte id && isByte kind && isByte scope && isByte binding
  | .definePosition h f => h.wf && f.wf
  | .groupMaskMask h action _ => h.wf && isByte action && action != 0
  | .commission h hold rates => h.wf && isHalf hold && rates.length == 8 && rates.all isByte
  | .alarmEventRaise h i event => h.wf && isHalf i && isByte event && event != 0
  | .alarmStateActive h i st => h.wf && isHalf i && isByte st && st != 0
  | .status h | .relayReset h | .resyncEnd h | .restart h | .bypassRead h | .silence h | .signOff h
  | .handoverAccept h | .handoverWithdraw h | .groupMaskUnmask h _ | .timeSet h _ | .signOn h _ | .handoverTake h _
  | .reliefTake h _ | .reliefReturn h _ => h.wf
  | .operatorRead h n | .loadQuery h n | .positionRead h n | .shelfRead h n | .handoverOffer h n
  | .handoverCancel h n | .reliefClear h n | .operatorUnlock h n => h.wf && isByte n
  | .alarmEventClear h n | .outOfService h n | .returnToService h n | .revokeGrant h n | .alarmStateInactive h n
  | .alarmRead h n | .ack h n | .unshelve h n | .latchReset h n | .grantEnd h n => h.wf && isHalf n
  | .listRead h selector position start count =>
      h.wf && isByte selector && isByte position && isHalf start && isByte count
  | .journalRead h _ count => h.wf && isByte count
  | .itemRead h p start count => h.wf && isByte p && isByte start && isByte count
  | .ackList h count indices =>
      h.wf && isByte count && indices.all isHalf && indices.length == min count ((h.len - 2) / 2)
  | .shelve h i d => h.wf && isHalf i && isHalf d
  | .bypassDeclare h area interlock d => h.wf && isByte area && isHalf interlock && decide (d < 4294967296)
  | .bypassEnd h area interlock => h.wf && isByte area && isHalf interlock
  | .noteAdd h code len text => h.wf && isByte code && isByte len && text.length == min len (h.len - 3)
  | .itemConfirm h count numbers =>
      h.wf && isByte count && numbers.all isByte && numbers.length == min count (h.len - 2)
  | .areaTransfer h area target => h.wf && isByte area && isByte target
  | .grantTemporary h target kind scope => h.wf && isByte target && isByte kind && isByte scope
  | .reminderExpiry n | .shelfExpiry n => decide (n ≤ 2047)
  | .dueExpiry n => decide (n < 16)
  | .reliefLimitExpiry _ n => decide (n < 2)

end Sys2Proof
end

