-- ==== Sys2Proof/Certificates/Slice0/Obligations.lean ====
section
/-! DEFINITION. The statements for the provers. Where a statement gives the bytes of a DONE reply, the widths and the order
that the manual leaves open are the model's (logs 8 and 9). `Kept ps s t` says that every part of the state outside `ps` is unchanged;
`Replied k h a s t` says that the frames of the answer `a`, and no other reply, join what the requesting link sends;
`Journaled ls s t` says that exactly the entries `ls` were appended. -/

open Sys2Proof Sys2Proof.Machine

/-! ### The machine -/

/-- A step runs the command at the front of the queue, on the state with the queue's rest. On an empty queue the block
idles (the model's choice, log 3), and a word of the table, which has no bits, puts no command in the queue (log 4). -/
def Obligations.StepRunsTheFrontCommand : Prop :=
  (∀ (c : Instr) (rest : List Instr) (s : State),
    step { s with pending := c :: rest } = exec c { s with pending := rest }) ∧
  ∀ (s : State) (nbits w : Nat), step { s with pending := [] } = .next { s with pending := [] } ∧ s.withFetchWord nbits w = s

/-- R46, R106: what cold start leaves at the PLU and the PCU. -/
def Obligations.ColdStartLeavesListsAndDesksEmpty : Prop :=
  ∀ s : State, ∃ t, exec .coldStart s = .next t ∧
    t.escalation = [] ∧ t.alarms = [] ∧
    (∀ p, (t.lists.get p).ann = [] ∧ (t.lists.get p).deferred = [] ∧ (t.lists.get p).shelf = [] ∧
      (t.lists.get p).horn = false) ∧
    (∀ p, (t.positions.get p).state = .vacant ∧ (t.positions.get p).holder = none ∧ (t.positions.get p).incoming = none ∧
      (t.positions.get p).staffing = 3 ∧ (t.positions.get p).offerTimeout = 300 ∧ (t.positions.get p).reviewTimeout = 900 ∧
      (t.positions.get p).reliefLimit = 1800 ∧ (t.positions.get p).holdTime = 10 ∧ (t.positions.get p).notes = [] ∧
      (t.positions.get p).relief = [] ∧ (t.positions.get p).items = [] ∧ (t.positions.get p).timer = none) ∧
    (∀ a, areaOwner t a = .p0) ∧ t.bypasses = [] ∧ ∀ o, engagementOf t o = none

/-- Cold start gives the machine of reset: the clock, the run state, the start record, the links, the relay, the loads,
the tables and the journal at the values that R22, R50, R87, R160, R162 and R178 state. The rest of `t = reset` is the
model's choice: no reply, SNAPSHOT, frame or byte in progress, an allowance of 0, stored rates of 9600 bit/s and a full first
decay second (log 24), and that the queue of commands and the counter of free values stand (log 4). -/
def Obligations.ColdStartGivesTheStateOfReset : Prop :=
  ∀ s : State, ∃ t, exec .coldStart s = .next t ∧ t = { State.reset with free := s.free, pending := s.pending } ∧
    t.millTime = 0 ∧ t.timeSet = false ∧ t.runState = .unconfigured ∧ t.startKind = .cold ∧ t.restarts = 0 ∧
    t.relay = false ∧ t.plantHold = 10 ∧ t.mask = 0 ∧ t.operators = [] ∧ t.grants = [] ∧ t.journal = [] ∧ t.nextSeq = 1 ∧
    (∀ p, (t.loads.get p).load = 0 ∧ (t.loads.get p).flood = false ∧ (t.loads.get p).limit = false ∧
      (t.loads.get p).k = 16 ∧ (t.loads.get p).e = 24000 ∧ (t.loads.get p).x = 12000 ∧ (t.loads.get p).h = 16000) ∧
    ∀ l, (t.links.get l).flow = .go ∧ (t.links.get l).up = true ∧ (t.links.get l).queue = [] ∧
      (t.links.get l).snapshotDue = false ∧ (t.links.get l).holdTimer = none ∧ (t.links.get l).rate = 0

/-- One second: mill time rises by 1, wrapping, and every running duration counts down by one second (log 1); no list, no
flow and no condition of a link changes, and no reply is sent. R171: the hold timer of a link counts down too, while the
link is UP and in HOLD with notices waiting (said where the link starts no notice frame at the end of the second, log 2);
a link that is DOWN or in GO has none. -/
def Obligations.OneSecondStepCountsTheClockAndTheDurations : Prop :=
  ∀ s : State, ∃ t, exec .oneSecondStep s = .next t ∧
    t.millTime = s.millTime + 1 ∧ t.timeSet = s.timeSet ∧
    (∀ p, (t.lists.get p).ann = (s.lists.get p).ann.map (fun e => { e with reminder := e.reminder.map (· - 1) }) ∧
      (t.lists.get p).shelf = (s.lists.get p).shelf.map (fun e => { e with remaining := e.remaining - 1 }) ∧
      (t.lists.get p).deferred = (s.lists.get p).deferred ∧ (t.lists.get p).horn = (s.lists.get p).horn ∧
      t.loads.get p = { s.loads.get p with decay := (s.loads.get p).decay - 1 } ∧
      t.positions.get p = { s.positions.get p with
        timer := (s.positions.get p).timer.map (· - 1),
        relief := (s.positions.get p).relief.map (fun f => { f with remaining := f.remaining - 1 }) }) ∧
    t.bypasses = s.bypasses.map (fun e => (e.1, { e.2 with due := e.2.due - 1 })) ∧
    (∀ l n, (s.links.get l).holdTimer = some n → (s.links.get l).up = true → (s.links.get l).flow = .hold →
      (s.links.get l).queue ≠ [] ∨ (s.links.get l).snapshotDue = true →
      (s.links.get l).sending ≠ none ∨ (s.links.get l).replies ≠ [] ∨ (s.links.get l).allowance = false →
      (t.links.get l).holdTimer = some (n - 1)) ∧
    (∀ l, (s.links.get l).up = false ∨ (s.links.get l).flow = .go → (t.links.get l).holdTimer = none) ∧
    LinesKept s t ∧ NoReply s t ∧ Kept [.clock, .lists, .loads, .positions, .bypasses, .links] s t

/-! ### Invariants that every step keeps -/

/-- The eight invariants hold after reset. That the allowance of a link in GO is 0 there, which Table 10-1 gives as not used,
and that no SNAPSHOT is in progress, is the model's choice (logs 24 and 30). -/
def Obligations.InvariantsHoldAtReset : Prop :=
  LoadInv State.reset ∧ LinkInv State.reset ∧ JournalInv State.reset ∧ CapacityInv State.reset ∧ DeskInv State.reset ∧
    AlarmInv State.reset ∧ EngagementInv State.reset ∧ PlaceInv State.reset

/-- R56: every load stays within 0 to 65535, a position in flood mode has L above X, one outside it has L below E. -/
def Obligations.LoadInvIsKept : Prop := ∀ s t : State, LoadInv s → step s = .next t → LoadInv t

/-- R167 to R173: the queues, the snapshots, the allowance and the hold timer of every link. That the allowance belongs to
HOLD (it is 0 in GO, after RESTART and after GO) is the model's choice (log 30), and that a waiting notice carries a mark that
it joined during a SNAPSHOT is the model's reading (log 22). -/
def Obligations.LinkInvIsKept : Prop := ∀ s t : State, LinkInv s → step s = .next t → LinkInv t

/-- R154: at most 4096 retained entries with consecutive sequences. -/
def Obligations.JournalInvIsKept : Prop := ∀ s t : State, JournalInv s → step s = .next t → JournalInv t

/-- No list or table outgrows its capacity, and items keep their numbers. (That the lists are in order and hold no alarm twice
is kept together with the alarms' places: `AlarmInvIsKept`.) -/
def Obligations.CapacityInvIsKept : Prop := ∀ s t : State, CapacityInv s → step s = .next t → CapacityInv t

/-- R90, R121: holder, incoming, timer, items and relief stack agree with the state of the position. R66, R71: with them, the
engagement of every operator matches the PCU, and the holder of every position covers it. -/
def Obligations.DeskInvIsKept : Prop :=
  (∀ s t : State, DeskInv s → step s = .next t → DeskInv t) ∧
    ∀ s t : State, EngagementInv s → step s = .next t → EngagementInv t

/-- R6: an acknowledger exactly in HELD and LATCHED; the ranges of every definition; SAFETY forces its fields. With them
and the capacities (R24 to R26, R40, R108): every list in order with no alarm twice, every alarm in RAISED or RETURNED that is
neither shelved nor suppressed in exactly one of the three places and every other in none, the escalated flag exactly on
the escalation list, the shelved flag exactly on the shelf list. R38: a reminder runs exactly for an annunciation entry of a
RAISED alarm, in flood mode only of priority 1 or 2. R43: the horn line of a position sounds exactly while its annunciation
list holds an unsilenced entry of a RAISED alarm of priority 1 or 2. -/
def Obligations.AlarmInvIsKept : Prop :=
  (∀ s t : State, AlarmInv s → step s = .next t → AlarmInv t) ∧
    ∀ s t : State, PlaceInv s → step s = .next t → PlaceInv t

/-! ### Rules of the whole machine -/

/-- Every command gives a next state (no rule of the manual stops the part), in which each part of the state is changed
only by the commands whose rules write it (`Part.changedBy`): the suppression mask only by GROUP_MASK and cold start, the
area map only by AREA_TRANSFER and cold start, and so on. -/
def Obligations.OnlyTheNamedCommandsChangeAPart : Prop :=
  ∀ (c : Instr) (s : State), ∃ t, exec c s = .next t ∧ ∀ part : Part, part.changedBy c = false → Agrees s t part

/-- A request frame gets exactly one reply, on its own link; a command that is no request gets none. -/
def Obligations.EveryRequestIsAnsweredOnce : Prop :=
  (∀ (c : Instr) (k : Kind) (h : Header) (fields : List Byte) (s : State), requestFields c = some (k, h, fields) →
    ∃ t a, exec c s = .next t ∧ Replied k h a s t ∧ answerFrames k h.tag a ≠ []) ∧
  (∀ (c : Instr) (s t : State), exec c s = .next t → requestFields c = none → c ≠ .coldStart → (∀ l, c ≠ .frameSent l) →
    (∀ l k tag, c ≠ .unknownKindFrame l k tag) → NoReply s t)

/-- R84: a refused request changes nothing but what the rules state: the failure count and the lock of the acting
operator (R67) and one ACCESS_REFUSED entry (R85). -/
def Obligations.RefusedRequestsChangeNothingElse : Prop :=
  ∀ (c : Instr) (k : Kind) (h : Header) (fields : List Byte) (s t : State) (f : Frame),
    requestFields c = some (k, h, fields) → exec c s = .next t → outgoing t h.link = outgoing s h.link ++ [f] →
    f.body.head? = some 1 →
      Kept [.links, .journal, .operators] s t ∧ LinesKept s t ∧ OtherOperatorsKept h.op s t ∧
      (t.operators.get? h.op).map (fun r => { r with failures := 0, locked := false }) =
        (s.operators.get? h.op).map (fun r => { r with failures := 0, locked := false }) ∧
      ∃ ls, Journaled ls s t ∧ ls.length ≤ 1 ∧ ∀ e ∈ ls, e.kind = .accessRefused ∧ e.operator = some h.op

/-- R164 steps 2 to 4, in order: a request that fails one is refused with its cause, and nothing else happens. By Table
11-1, in UNCONFIGURED the ten configuration kinds pass on the plant link and nothing passes on a console link; in RESYNC
and RUNNING every kind passes the run state. The links of each kind are those of its owning rule, and the length of its fixed
fields, the acting operator's byte included, that of Table 10-8. -/
def Obligations.TheLiuRefusesInOrder : Prop :=
  (∀ k : Kind, runStateAllowed k .plant .unconfigured = true ↔
    k = .defineAlarm ∨ k = .defineOperator ∨ k = .defineGrant ∨ k = .definePosition ∨ k = .groupMask ∨ k = .timeSet ∨
      k = .status ∨ k = .operatorRead ∨ k = .relayReset ∨ k = .commission) ∧
  (∀ (k : Kind) (p : Pos), runStateAllowed k (.console p) .unconfigured = false) ∧
  (∀ (k : Kind) (l : Link), linkAllowed (linkRule k) l = true ↔
    (k ∈ [Kind.status, .alarmRead, .listRead, .positionRead, .bypassRead, .shelfRead, .itemRead]) ∨
    (k ∈ [Kind.defineAlarm, .defineOperator, .defineGrant, .definePosition, .groupMask, .timeSet, .commission, .alarmEvent,
        .outOfService, .returnToService, .revokeGrant, .alarmState, .resyncEnd, .restart] ∧ l = .plant) ∨
    (k ∈ [Kind.operatorRead, .relayReset, .loadQuery, .journalRead] ∧ (l = .plant ∨ l = .console .p0)) ∨
    (k ∈ [Kind.handoverCancel, .reliefClear, .areaTransfer, .grantTemporary, .grantEnd, .operatorUnlock] ∧
      l = .console .p0) ∨
    (k ∈ [Kind.ack, .ackList, .shelve, .unshelve, .latchReset, .silence, .bypassDeclare, .bypassEnd, .noteAdd, .signOn,
        .signOff, .handoverOffer, .handoverTake, .itemConfirm, .handoverAccept, .handoverWithdraw, .reliefTake,
        .reliefReturn] ∧ ∃ p, l = .console p)) ∧
  (∀ k : Kind, fixedLength k =
    match k with
    | .status | .relayReset | .resyncEnd | .restart | .bypassRead | .silence | .signOff | .handoverAccept
    | .handoverWithdraw => 1
    | .operatorRead | .loadQuery | .positionRead | .shelfRead | .ackList | .handoverOffer | .itemConfirm | .handoverCancel
    | .reliefClear | .operatorUnlock => 2
    | .outOfService | .returnToService | .revokeGrant | .alarmRead | .ack | .unshelve | .latchReset | .noteAdd
    | .areaTransfer | .grantEnd => 3
    | .alarmEvent | .alarmState | .itemRead | .bypassEnd | .grantTemporary => 4
    | .defineGrant | .timeSet | .shelve | .signOn | .handoverTake | .reliefTake | .reliefReturn => 5
    | .groupMask | .listRead | .journalRead => 6
    | .defineOperator | .bypassDeclare => 8
    | .commission => 11
    | .defineAlarm => 15
    | .definePosition => 19) ∧
  (∀ (k : Kind) (l : Link), runStateAllowed k l .resync = true ∧ runStateAllowed k l .running = true) ∧
  ∀ (c : Instr) (k : Kind) (h : Header) (fields : List Byte) (s : State), requestFields c = some (k, h, fields) →
    (h.len < fixedLength k → ∃ t, exec c s = .next t ∧ Replied k h (.refused .malformed h.len) s t ∧ Kept [.links] s t) ∧
    (fixedLength k ≤ h.len → linkAllowed (linkRule k) h.link = false →
      ∃ t, exec c s = .next t ∧ Replied k h (.refused .wrongLink (kindCode k)) s t ∧ Kept [.links] s t) ∧
    (fixedLength k ≤ h.len → linkAllowed (linkRule k) h.link = true → runStateAllowed k h.link s.runState = false →
      ∃ t, exec c s = .next t ∧ Replied k h (.refused .unconfigured 0) s t ∧ Kept [.links] s t)

/-! ### Frames (R163, R176) -/

/-- The words of a well-formed request or FLOW record, received as a good frame, are that command again. -/
def Obligations.DecodeOfEncodeIsTheCommand : Prop :=
  ∀ (c : Instr) (l : Link) (f : Frame), c.wf = true → encodeFrame c = some (l, f) →
    (∀ k h fields, requestFields c = some (k, h, fields) → h.len = f.body.length) → decodeFrame l f = c

/-- R163: the bytes of a frame, and whatever follows them, are received as that frame; the check over the characters
"123456789" is the manual's; and a frame written out byte by byte, TIME_SET to 21400 with TAG 7 from the gateway, is that
command. -/
def Obligations.AWholeFrameIsReceived : Prop :=
  (∀ (f : Frame) (rest : List Byte), f.body.length ≤ 240 → assemble (wireBytes f ++ rest) = .good f rest) ∧
  crc [0x31, 0x32, 0x33, 0x34, 0x35, 0x36, 0x37, 0x38, 0x39] = 0x29B1#16 ∧
  decodeFrame .plant { kind := 6, tag := 7, last := true, reply := false, limited := false, gap := false,
                       body := [0x00, 0x00, 0x00, 0x53, 0x98] } =
    .timeSet { link := .plant, tag := 7, len := 5, op := 0 } 21400

/-- R163: a frame with a LEN above 240 or a wrong CHECK is discarded: the port waits for SYNC from the byte after the
discarded frame's SYNC, no reply is sent and nothing outside the port changes. Bytes that end no such frame wait. That
FRAME_DISCARDED brings the bytes, which join those the port holds, and that it discards nothing where they open with an
unfinished frame, is the model's choice (log 6).
R164 step 1: a good frame whose KIND names no request kind is refused with MALFORMED and the KIND as subject: one frame
with that KIND, the request's TAG, LAST and REPLY. -/
def Obligations.BadAndUnknownFramesAreTurnedAway : Prop :=
  (∀ (l : Link) (kind tag : Byte) (s : State), ∃ t, exec (.unknownKindFrame l kind tag) s = .next t ∧
    outgoing t l = outgoing s l ++
      [(⟨kind, tag, /- last -/ true, /- reply -/ true, false, false, [1, 1, 0, kind, 0, kind]⟩ : Frame)] ∧
    (∀ m, m ≠ l → OnlyNoticeStarts s t m) ∧ LinesKept s t ∧ Kept [.links] s t) ∧
  (∀ (l : Link) (bytes : List Byte) (s : State),
    assemble (seekSync ((s.links.get l).received ++ bytes)) = .badCheck ∨
      assemble (seekSync ((s.links.get l).received ++ bytes)) = .tooLong →
    ∃ t, exec (.frameDiscarded l bytes) s = .next t ∧
      (t.links.get l).received = seekSync (seekSync ((s.links.get l).received ++ bytes)).tail ∧
      (∀ m, m ≠ l → (t.links.get m).received = (s.links.get m).received) ∧
      NoReply s t ∧ LinesKept s t ∧ Kept [.links] s t) ∧
  (∀ (l : Link) (bytes : List Byte) (s : State),
    assemble (seekSync ((s.links.get l).received ++ bytes)) = .waiting →
    ∃ t, exec (.frameDiscarded l bytes) s = .next t ∧
      (t.links.get l).received = seekSync ((s.links.get l).received ++ bytes) ∧ NoReply s t ∧ Kept [.links] s t)

/-! ### Links (R167 to R175) -/

/-- R167, R169: how a notice joins the queue of a link. -/
def Obligations.ANoticeJoinsAQueue : Prop :=
  ∀ (k : LinkState) (console : Bool) (n : Notice), let j := k.join console n
    (k.up = false → j = k) ∧
    (k.up = true → n.isList = true → k.snapshotDue = true → j = k) ∧
    (k.up = true → ¬(n.isList = true ∧ k.snapshotDue = true) → k.queue.length < 32 →
      j.queue.map (·.notice) = k.queue.map (·.notice) ++ [n] ∧ j.snapshotDue = k.snapshotDue) ∧
    (k.up = true → ¬(n.isList = true ∧ k.snapshotDue = true) → 32 ≤ k.queue.length →
      (∃ q ∈ k.queue, q.notice.isList = true) →
      j.queue.map (·.notice) = (k.queue.map (·.notice)).filter (fun m => !m.isList) ++ (if n.isList then [] else [n]) ∧
        j.snapshotDue = (k.snapshotDue || console)) ∧
    (k.up = true → ¬(n.isList = true ∧ k.snapshotDue = true) → 32 ≤ k.queue.length →
      (∀ q ∈ k.queue, q.notice.isList = false) →
      j.queue.map (·.notice) = (k.queue.map (·.notice)).tail ++ [n] ∧ j.snapshotDue = (k.snapshotDue || console)) ∧
    j = { k with queue := j.queue, snapshotDue := j.snapshotDue }

/-- R168: a link that has finished a frame starts the next: a waiting reply; otherwise, as flow allows, the next frame of a
SNAPSHOT in progress, a due SNAPSHOT or the notice at the head of the queue, each of which uses the allowance of HOLD;
otherwise nothing. (The frame sent is not a COMMISSION reply.) R170: a SNAPSHOT clears SNAPSHOT_DUE, and its frames are the
summary and then the annunciation entries, 16 to a frame in rank order, with LAST on the last; where its frame used the
allowance and frames remain, it is abandoned (log 22): SNAPSHOT_DUE is set again and the list notices that joined since its
start are discarded. That the frames of the one in progress go ahead of a due one is the model's choice (log 25).
R179: after the last frame of the COMMISSION reply (told by the frame sent, log 18) every port runs at its stored rate. -/
def Obligations.TheNextFrameStarts : Prop :=
  (∀ (s : State) (f : Frame), s.links.plant.sending = some f → f.kind = 10 → f.reply = true → f.last = true →
    f.body.head? = some 0 →
    ∃ t, exec (.frameSent .plant) s = .next t ∧ Kept [.links] s t ∧
      ∀ l, (t.links.get l).rate = (s.links.get l).storedRate ∧ (t.links.get l).storedRate = (s.links.get l).storedRate ∧
        (t.links.get l).flow = (s.links.get l).flow ∧ (t.links.get l).up = (s.links.get l).up) ∧
  ∀ (l : Link) (s : State) (sent : Frame), (s.links.get l).sending = some sent → isCommissionReply l sent = false →
    ∃ t, exec (.frameSent l) s = .next t ∧ LinesKept s t ∧ Kept [.links] s t ∧
      (∀ f rest, (s.links.get l).replies = f :: rest →
        (t.links.get l).sending = some f ∧ (t.links.get l).replies = rest ∧ (t.links.get l).queue.length ≤ (s.links.get l).queue.length) ∧
      ((s.links.get l).replies = [] → (s.links.get l).mayNotify = false → (t.links.get l).sending = none) ∧
      (∀ f rest, (s.links.get l).replies = [] → (s.links.get l).mayNotify = true → (s.links.get l).snapshot = f :: rest →
        (t.links.get l).sending = some f ∧
        ((s.links.get l).flow = .hold → (t.links.get l).allowance = false) ∧
        ((s.links.get l).flow = .go ∨ rest = [] → (t.links.get l).snapshot = rest ∧
          (t.links.get l).snapshotDue = (s.links.get l).snapshotDue ∧ (t.links.get l).queue = (s.links.get l).queue) ∧
        ((s.links.get l).flow = .hold → rest ≠ [] → (t.links.get l).snapshot = [] ∧ (t.links.get l).snapshotDue = true ∧
          (t.links.get l).queue = (s.links.get l).queue.filter (fun q => !(q.notice.isList && q.since)))) ∧
      (∀ p, l = .console p → (s.links.get l).replies = [] → (s.links.get l).mayNotify = true → (s.links.get l).snapshot = [] →
        (s.links.get l).snapshotDue = true →
        let ann := (s.lists.get p).ann
        (t.links.get l).sending = some (snapshotFrame ann.isEmpty (snapshotSummary s p)) ∧
        (t.links.get l).queue.map (·.notice) = (s.links.get l).queue.map (·.notice) ∧
        ((s.links.get l).flow = .hold → (t.links.get l).allowance = false) ∧
        ((s.links.get l).flow = .hold → ann ≠ [] → (t.links.get l).snapshot = [] ∧ (t.links.get l).snapshotDue = true) ∧
        ((s.links.get l).flow = .go ∨ ann = [] → (t.links.get l).snapshotDue = false ∧
          (t.links.get l).snapshot.length = (ann.length + 15) / 16 ∧
          ∀ n (hn : n < (t.links.get l).snapshot.length), (t.links.get l).snapshot[n] =
            snapshotFrame (decide (n + 1 = (t.links.get l).snapshot.length)) (((ann.drop (16 * n)).take 16).flatMap fun e =>
              be16 e.alarm ++ be8 (priorityOf s e.alarm) ++ be8 (alarmAt s e.alarm).defn.area ++
                be8 (lifecycleCode (lifecycleOf s e.alarm)) ++ beWord e.time ++ bePos p ++ beBool e.silenced ++
                be16Opt e.reminder))) ∧
      (∀ q rest, (s.links.get l).replies = [] → (s.links.get l).mayNotify = true → (s.links.get l).snapshot = [] →
        (s.links.get l).snapshotDue = false → (s.links.get l).queue = q :: rest →
        (t.links.get l).sending = some (noticeFrame q.notice) ∧ (t.links.get l).queue = rest ∧
          ((s.links.get l).flow = .hold → (t.links.get l).allowance = false)) ∧
      ((s.links.get l).replies = [] → (s.links.get l).snapshot = [] → (s.links.get l).snapshotDue = false →
        (s.links.get l).queue = [] → (t.links.get l).sending = none)

/-- R171: a HOLD record takes a link in GO to HOLD with an allowance of one further notice frame (the link is sending, so
none starts at once); a link in HOLD, and any other value, keep flow and allowance. R171, R173: a GO record makes the flow
GO and stops the hold timer; on a DOWN link it brings the link UP, writes LINK_UP and makes a console link due for a
snapshot (again while the link is sending). -/
def Obligations.FlowRecordsHoldAndFreeTheLink : Prop :=
  (∀ (l : Link) (s : State), (s.links.get l).sending ≠ none →
    ∃ t, exec (.flowGo l) s = .next t ∧
      (t.links.get l).flow = .go ∧ (t.links.get l).up = true ∧ (t.links.get l).holdTimer = none ∧
      (∀ m, m ≠ l → (t.links.get m).flow = (s.links.get m).flow ∧ (t.links.get m).up = (s.links.get m).up) ∧
      NoReply s t ∧
      ((s.links.get l).up = true → (t.links.get l).snapshotDue = (s.links.get l).snapshotDue ∧ Kept [.links] s t) ∧
      ((s.links.get l).up = false →
        (l ≠ .plant → (t.links.get l).snapshotDue = true) ∧
        Journaled [⟨.linkUp, (match l with | .console p => some p | .plant => none), none, none, l.num⟩] s t ∧
        Kept [.links, .journal] s t)) ∧
  (∀ (l : Link) (s : State), (s.links.get l).flow = .go → (s.links.get l).sending ≠ none →
    ∃ t, exec (.flowHold l (some 1)) s = .next t ∧
      (t.links.get l).flow = .hold ∧ (t.links.get l).allowance = true ∧ (t.links.get l).up = (s.links.get l).up ∧
      (∀ m, m ≠ l → (t.links.get m).flow = (s.links.get m).flow ∧ (t.links.get m).up = (s.links.get m).up) ∧
      NoReply s t ∧ Kept [.links] s t) ∧
  (∀ (l : Link) (value : Option Byte) (s : State), value ≠ some 1 ∨ (s.links.get l).flow = .hold →
    (s.links.get l).sending ≠ none →
    ∃ t, exec (.flowHold l value) s = .next t ∧ (t.links.get l).allowance = (s.links.get l).allowance ∧
      LinesKept s t ∧ NoReply s t ∧ Kept [.links] s t)

/-- R172, R174, R175: a link whose hold timer has expired (log 1) goes DOWN with its flow kept and its queue gone, with a
LINK_DOWN entry. The FAULT notices that waited in its queue pass to the next link of their own chains, which is the plant
link for those of P1 to P6 waiting at P0 and none for every other, and its own FAULT notice goes to the first UP link of its
chain; they join that link's queue in order, where it has room. The relay is energised, with one RELAY_ENERGISED entry
for the first of the notices that find no UP link, where it was not energised before. -/
def Obligations.AHeldLinkGoesDown : Prop :=
  faultChain (.console .p0) = [.plant] ∧ faultChain .plant = [.console .p0] ∧
  (∀ p, p ≠ .p0 → faultChain (.console p) = [.console .p0, .plant]) ∧
  ∀ (l : Link) (s : State), (s.links.get l).holdTimer = some 0 →
    ∃ t, exec (.holdTimerExpiry l) s = .next t ∧
      let waiting := (s.links.get l).queue.filterMap fun q => match q.notice with | .fault x => some x | _ => none
      let passed := waiting.filter fun x =>
        decide (l = .console .p0 ∧ x ≠ .plant ∧ x ≠ .console .p0 ∧ (s.links.get .plant).up = true)
      let toRelay := waiting.filter (fun x => !passed.contains x) ++
        if (faultChain l).any (fun x => (s.links.get x).up) then [] else [l]
      (t.links.get l).up = false ∧ (t.links.get l).flow = (s.links.get l).flow ∧ (t.links.get l).queue = [] ∧
      (t.links.get l).holdTimer = none ∧ (t.links.get l).snapshot = [] ∧ (l ≠ .plant → (t.links.get l).snapshotDue = true) ∧
      (∀ m, m ≠ l → (t.links.get m).flow = (s.links.get m).flow ∧ (t.links.get m).up = (s.links.get m).up) ∧
      Journaled (⟨.linkDown, (match l with | .console p => some p | .plant => none), none, none, l.num⟩ ::
        (if s.relay then [] else toRelay.head?.toList.map fun x => ⟨.relayEnergised, none, none, none, x.num⟩)) s t ∧
      t.relay = (s.relay || !toRelay.isEmpty) ∧
      (∀ m, (faultChain l).find? (fun x => (s.links.get x).up) = some m → m ≠ l → (s.links.get m).sending ≠ none →
        (s.links.get m).snapshot = [] → (s.links.get m).queue.length + (s.links.get l).queue.length < 32 →
        (t.links.get m).queue.map (·.notice) =
          (s.links.get m).queue.map (·.notice) ++ passed.map Notice.fault ++ [.fault l]) ∧
      t.runState = s.runState ∧ t.startKind = s.startKind ∧ t.restarts = s.restarts ∧ t.plantHold = s.plantHold ∧
      NoReply s t ∧ Kept [.links, .journal, .device] s t

/-- R175: RELAY_RESET with every link UP: an energised relay is de-energised with its entry; a relay at rest gives
NO_CHANGE. With a link DOWN it is refused with BAD_STATE and the lowest DOWN link. -/
def Obligations.RelayResetDeEnergises : Prop :=
  (∀ (h : Header) (s : State), Passes .relayReset h s → FromGatewayOrSupervisor h s → (∀ l, (s.links.get l).up = true) →
    s.relay = true →
    ∃ t, exec (.relayReset h) s = .next t ∧ t.relay = false ∧ Replied .relayReset h (doneWith (be8 1)) s t ∧
      Journaled [⟨.relayReset, none, (if h.link = .plant then none else some h.op), none, h.link.num⟩] s t ∧
      t.runState = s.runState ∧ t.plantHold = s.plantHold ∧ t.restarts = s.restarts ∧ t.startKind = s.startKind ∧
      LinesKept s t ∧ Kept [.links, .journal, .device] s t) ∧
  (∀ (h : Header) (s : State), Passes .relayReset h s → FromGatewayOrSupervisor h s → (∀ l, (s.links.get l).up = true) →
    s.relay = false →
    ∃ t, exec (.relayReset h) s = .next t ∧ Replied .relayReset h (doneWith (be8 255)) s t ∧ LinesKept s t ∧ Kept [.links] s t) ∧
  (∀ (h : Header) (s : State) (l : Link), Passes .relayReset h s → FromGatewayOrSupervisor h s →
    (s.links.get l).up = false → (∀ m, m.num < l.num → (s.links.get m).up = true) →
    ∃ t, exec (.relayReset h) s = .next t ∧ Replied .relayReset h (.refused .badState l.num) s t ∧ Kept [.links] s t)

/-! ### Commissioning, the clock and restart (chapter 11) -/

/-- R179, R181: COMMISSION stores the plant link's hold time, clamped to 2 to 60, and the rates, and opens RESYNC;
RESYNC_END gives INACTIVE to every UNKNOWN input, counts them, and opens RUNNING. -/
def Obligations.CommissionAndResyncEndOpenThePart : Prop :=
  (∀ (h : Header) (hold : Nat) (rates : List Nat) (s : State), Passes .commission h s → s.runState = .unconfigured →
    (∀ r ∈ rates, r ≤ 3) →
    ∃ t, exec (.commission h hold rates) s = .next t ∧
      t.runState = .resync ∧ t.plantHold = (if hold < 2 then 2 else if 60 < hold then 60 else hold) ∧
      Replied .commission h (doneWith (be16 t.plantHold ++ be8 (if t.plantHold = hold then 0 else 1))) s t ∧
      (∀ l, (t.links.get l).storedRate = rates.getD l.num 0 ∧ (t.links.get l).rate = (s.links.get l).rate ∧
        (t.links.get l).up = (s.links.get l).up ∧ (t.links.get l).flow = (s.links.get l).flow) ∧
      t.relay = s.relay ∧ t.restarts = s.restarts ∧ t.startKind = s.startKind ∧ Kept [.links, .device] s t) ∧
  (∀ (h : Header) (s : State), Passes .resyncEnd h s → s.runState = .resync →
    ∃ t, exec (.resyncEnd h) s = .next t ∧ t.runState = .running ∧
      (∀ i, alarm? t i = (alarm? s i).map fun a =>
        { a with dyn := { a.dyn with input := if a.dyn.input = .unknown then .inactive else a.dyn.input } }) ∧
      Replied .resyncEnd h (doneWith (be16 (s.alarms.countP fun e => e.2.dyn.input == .unknown))) s t ∧
      t.relay = s.relay ∧ t.restarts = s.restarts ∧ t.startKind = s.startKind ∧ t.plantHold = s.plantHold ∧
      LinesKept s t ∧ Kept [.links, .device, .alarms] s t)

/-- R182 and the rules it names: the restart count, start kind and run state; NORMAL with input UNKNOWN for every alarm
in service, with its shelved flag kept; empty lists but for the shelves; loads at 0 outside flood; handovers dropped;
links UP and GO with empty queues, each console link due for a SNAPSHOT (R162), which a free link starts at once; a RESTART
entry first, and none other where no position is in REVIEW. R88: the incoming of each position in REVIEW is released (said
where each is engaged there), and its temporary grants bound there end, each with its entry after the RESTART entry (in the
order of log 15). -/
def Obligations.RestartRestoresTheParts : Prop :=
  ∀ (h : Header) (s : State), Passes .restart h s →
    ∃ t, exec (.restart h) s = .next t ∧
      t.runState = .resync ∧ t.startKind = .warm ∧ t.restarts = (if s.restarts < 65535 then s.restarts + 1 else 65535) ∧
      t.relay = s.relay ∧ t.plantHold = s.plantHold ∧
      Replied .restart h (doneWith (be16 t.restarts)) s t ∧
      JournaledFirst [⟨.restart, none, none, none, t.restarts⟩] s t ∧
      ((∀ p, (s.positions.get p).state ≠ .review) →
        Journaled [⟨.restart, none, none, none, t.restarts⟩] s t ∧ t.operators = s.operators ∧ t.grants = s.grants) ∧
      (s.grants.wf = true →
        (∀ p, (s.positions.get p).state = .review →
          ∃ o, (s.positions.get p).incoming = some o ∧ engagementOf s o = some (p, .incoming)) →
        let gone := fun (p : Pos) (g : Grant) =>
          (s.positions.get p).state == .review && boundTemporary ((s.positions.get p).incoming.getD 0) p g
        (∀ p o, (s.positions.get p).state = .review → (s.positions.get p).incoming = some o →
          operator? t o = (operator? s o).map (fun r => { r with engagement := none })) ∧
        (∀ o, (∀ p, (s.positions.get p).state = .review → (s.positions.get p).incoming ≠ some o) →
          t.operators.get? o = s.operators.get? o) ∧
        GrantsEnded (fun g => Pos.all.any fun p => gone p g) s t ∧
        Journaled (⟨.restart, none, none, none, t.restarts⟩ :: Pos.all.flatMap fun p => endedLines (gone p) s) s t) ∧
      (∀ p, ((s.links.get (.console p)).sending ≠ none ∨ (s.links.get (.console p)).replies ≠ [] →
          (t.links.get (.console p)).snapshotDue = true) ∧
        ((s.links.get (.console p)).sending = none → (s.links.get (.console p)).replies = [] →
          (t.links.get (.console p)).sending = some (snapshotFrame true (snapshotSummary t p)))) ∧
      (∀ i, alarm? t i = (alarm? s i).map fun a =>
        { defn := a.defn,
          dyn := { input := .unknown, lifecycle := if a.dyn.lifecycle = .outOfService then .outOfService else .normal,
                   acknowledger := none, shelved := a.dyn.shelved, escalated := false, overflow := false, annTime := none,
                   reminders := 0 } }) ∧
      t.escalation = [] ∧
      (∀ p, t.lists.get p = { ann := [], deferred := [], shelf := (s.lists.get p).shelf, horn := false } ∧
        t.loads.get p = { s.loads.get p with load := 0, flood := false, limit := false } ∧
        t.positions.get p =
          match (s.positions.get p).state with
          | .offered => { s.positions.get p with state := .staffed, incoming := none, timer := none }
          | .review => { s.positions.get p with state := .staffed, incoming := none, timer := none, items := [] }
          | _ => s.positions.get p) ∧
      (∀ l, (t.links.get l).flow = .go ∧ (t.links.get l).up = true ∧ (t.links.get l).queue = [] ∧
        (t.links.get l).holdTimer = none ∧ (t.links.get l).rate = (s.links.get l).rate) ∧
      Kept [.device, .links, .alarms, .lists, .escalation, .loads, .operators, .grants, .positions, .journal] s t

/-- R183: TIME_SET writes the clock and its flag, and a TIME_SET entry that carries the new mill time and whether the
flag was set before. -/
def Obligations.TimeSetWritesTheClock : Prop :=
  ∀ (h : Header) (time : Word) (s : State), Passes .timeSet h s →
    ∃ t, exec (.timeSet h time) s = .next t ∧ t.millTime = time ∧ t.timeSet = true ∧
      Replied .timeSet h (doneWith (beWord s.millTime ++ beWord time)) s t ∧
      Journaled [⟨.timeSet, none, none, none, s.timeSet.toNat⟩] { s with millTime := time } t ∧
      LinesKept s t ∧ Kept [.clock, .links, .journal] s t

/-! ### Reads -/

/-- The nine read requests that change no state answer from the state as it stands: STATUS (R184), ALARM_READ (R21),
LIST_READ (R45), JOURNAL_READ (R159), POSITION_READ (R105), BYPASS_READ (R103), SHELF_READ (R120), ITEM_READ (R138) and
OPERATOR_READ (R86). -/
def Obligations.ReadsAnswerFromTheStateAndChangeNothing : Prop :=
  ∀ (h : Header) (s : State),
    (Passes .status h s → ∃ t, exec (.status h) s = .next t ∧ Kept [.links] s t ∧ LinesKept s t ∧
      Replied .status h (doneWith (statusFields s)) s t) ∧
    (∀ i, Passes .alarmRead h s → isDefined s i = true → ∃ t, exec (.alarmRead h i) s = .next t ∧ Kept [.links] s t ∧
      LinesKept s t ∧ Replied .alarmRead h (doneWith (alarmFields s i)) s t) ∧
    (∀ (p : Pos) (selector position start count : Nat), Passes .listRead h s → selector ≤ 3 → selector = 3 ∨ position = p.num →
      1 ≤ count → count ≤ 32 →
      ∃ t, exec (.listRead h selector position start count) s = .next t ∧ Kept [.links] s t ∧ LinesKept s t ∧
        ∃ es, es = listElements s ((selectorOf? selector).getD .annunciation) ((Pos.ofNum? position).getD .p0) ∧
          Replied .listRead h (.done (be16 es.length :: (es.drop start).take count) false) s t) ∧
    (∀ start count, Passes .journalRead h s → FromGatewayOrSupervisor h s → 1 ≤ count → count ≤ 64 →
      ∃ t, exec (.journalRead h start count) s = .next t ∧ Kept [.links] s t ∧ LinesKept s t ∧
        Replied .journalRead h (.done
          ((be16 s.journal.length ++ beWord ((s.journal.head?.map (·.sequence)).getD 0) ++ beWord s.nextSeq) ::
            ((placeStart s start).1.take count).map entryElement) (placeStart s start).2) s t) ∧
    (∀ p : Pos, Passes .positionRead h s → ∃ t, exec (.positionRead h p.num) s = .next t ∧ Kept [.links] s t ∧
      LinesKept s t ∧ Replied .positionRead h (.done (contextElements s p) false) s t) ∧
    (Passes .bypassRead h s → ∃ t, exec (.bypassRead h) s = .next t ∧ Kept [.links] s t ∧ LinesKept s t ∧
      Replied .bypassRead h (.done (be16 s.bypasses.length ::
        s.bypasses.map fun e => be8 e.1 ++ bypassFields e.2 ++ bePos (areaOwner s e.2.area)) false) s t) ∧
    (∀ p : Pos, Passes .shelfRead h s → ∃ t, exec (.shelfRead h p.num) s = .next t ∧ Kept [.links] s t ∧ LinesKept s t ∧
      Replied .shelfRead h (.done (be16 (s.lists.get p).shelf.length ::
        (s.lists.get p).shelf.map (shelfElement s)) false) s t) ∧
    (∀ (p : Pos) (start count : Nat), Passes .itemRead h s → 1 ≤ count → count ≤ 32 →
      ∃ t, exec (.itemRead h p.num start count) s = .next t ∧ Kept [.links] s t ∧ LinesKept s t ∧
        Replied .itemRead h (.done ((be8 (posStateCode (s.positions.get p).state) ++ be16 (s.positions.get p).items.length ++
            openFields (s.positions.get p).items) ::
          (((s.positions.get p).items.drop start).take count).map itemRecord) false) s t) ∧
    (∀ o, Passes .operatorRead h s → FromGatewayOrSupervisor h s → 1 ≤ o → o ≤ 64 →
      ∃ t, exec (.operatorRead h o) s = .next t ∧ Kept [.links] s t ∧ LinesKept s t ∧
        Replied .operatorRead h (.done ((operatorFields s o ++ be16 (s.grants.filter fun e => e.2.operator == o).length) ::
          (s.grants.filter fun e => e.2.operator == o).map fun e => be8 e.1 ++ grantFields e.2) false) s t)

/-- R159: where a start sequence stands: retained (the entries from it on), ahead (none), or behind (the entries from the
oldest on, with GAP). -/
def Obligations.AStartIsRetainedAheadOrBehind : Prop :=
  ∀ (s : State) (start : Word), JournalInv s →
    (∀ n, n < s.journal.length → start = s.nextSeq - BitVec.ofNat 32 (s.journal.length - n) →
      placeStart s start = (s.journal.drop n, false)) ∧
    ((start - s.nextSeq).toNat < 2147483648 → placeStart s start = ([], false)) ∧
    (2147483648 ≤ (start - s.nextSeq).toNat → s.journal.length < (s.nextSeq - start).toNat →
      placeStart s start = (s.journal, true))

/-- R59: LOAD_QUERY answers one frame for each selected position, in position order, with LIMITED as LIMIT stood, and
clears LIMIT. -/
def Obligations.LoadQueryReadsAndClearsLimit : Prop :=
  ∀ (h : Header) (selector : Nat) (s : State), Passes .loadQuery h s → FromGatewayOrSupervisor h s →
    selector ≤ 6 ∨ selector = 255 →
    ∃ t, exec (.loadQuery h selector) s = .next t ∧
      Replied .loadQuery h (.each ((Pos.all.filter fun p => selector == 255 || selector == p.num).map fun p =>
        (bePos p ++ be16 (s.loads.get p).load ++ beBool (s.loads.get p).flood ++ be16 (s.loads.get p).k ++
          be16 (s.loads.get p).e ++ be16 (s.loads.get p).x ++ be16 (s.loads.get p).h, (s.loads.get p).limit))) s t ∧
      (∀ p, t.loads.get p =
        if selector = 255 ∨ selector = p.num then { s.loads.get p with limit := false } else s.loads.get p) ∧
      LinesKept s t ∧ Kept [.links, .loads] s t

/-! ### Load (chapter 3) -/

/-- R54 and R56: an addition. The true sum up to 65535 becomes the load; above it the load is 65535 and LIMIT is set; then
flood mode is evaluated. Nothing else of the load state changes, and no other position's. The addition of its own sends no
notice and writes no entry: where flood mode stands, nothing outside the loads changes. -/
def Obligations.AnAdditionSaturatesAndIsEvaluated : Prop :=
  ∀ (p : Pos) (w : Nat) (s : State), let d := s.loads.get p; let e := (addLoad p w s).loads.get p
    (d.load + w ≤ 65535 → e.load = d.load + w ∧ e.limit = d.limit) ∧
    (65535 < d.load + w → e.load = 65535 ∧ e.limit = true) ∧
    (e.flood = if d.flood then decide (d.x < e.load) else decide (d.e ≤ e.load)) ∧
    e.k = d.k ∧ e.e = d.e ∧ e.x = d.x ∧ e.h = d.h ∧ e.decay = d.decay ∧
    (e.flood = d.flood → Kept [.loads] s (addLoad p w s)) ∧
    ∀ q, q ≠ p → (addLoad p w s).loads.get q = s.loads.get q

/-- R55: a decay expiry (log 1) takes off floor(L × k / 1024), at least 1 while L is above 0, starts the next period and
evaluates flood mode if L changed; LIMIT stands. A change of flood mode writes its entry with the L after it. R57, R58: it
sends LOAD to the position's console and to P0's; an exit announces the entries it sweeps from the deferred list, in order
(said where no alarm stands there twice), and the horn line if it changed. R136: at a position in REVIEW the FLOOD item
follows. -/
def Obligations.DecayTakesOffItsShare : Prop :=
  ∀ (p : Pos) (s : State), (s.loads.get p).decay = 0 →
    ∃ t, exec (.decayExpiry p) s = .next t ∧
      (let d := s.loads.get p; let e := t.loads.get p
        (d.load = 0 → e.load = 0 ∧ e.flood = d.flood) ∧
        (0 < d.load → e.load = d.load - max 1 (d.load * d.k / 1024)) ∧
        (e.load ≠ d.load → e.flood = if d.flood then decide (d.x < e.load) else decide (d.e ≤ e.load)) ∧
        (e.flood = d.flood → t.journal = s.journal ∧ t.lists = s.lists ∧ t.alarms = s.alarms ∧ t.positions = s.positions) ∧
        (d.flood = true → e.flood = false → Journaled [⟨.floodLeft, some p, none, none, e.load⟩] s t) ∧
        (d.flood = false → e.flood = true → Journaled [⟨.floodEntered, some p, none, none, e.load⟩] s t) ∧
        e.limit = d.limit ∧ e.k = d.k ∧ e.e = d.e ∧ e.x = d.x ∧ e.h = d.h ∧ e.decay = 1) ∧
      (∀ q, q ≠ p → t.loads.get q = s.loads.get q ∧ t.lists.get q = s.lists.get q) ∧
      ItemsFollow p (itemsFlood p s t) s t ∧
      (((s.lists.get p).deferred.map (·.alarm)).Nodup →
        let swept := if (s.loads.get p).flood = true ∧ (t.loads.get p).flood = false then
          (s.lists.get p).deferred.take (128 - (s.lists.get p).ann.length) else []
        Announced (fun l => atBoth p (loadNotices p s t) l ++
          atDesk p (swept.map (fun e => annunciation s p e.alarm e.time (lifecycleOf s e.alarm)) ++ hornNotices p s t ++
            itemNotices p (itemsFlood p s t) s) l) s t) ∧
      (∀ i, (alarm? t i).map Alarm.settled = (alarm? s i).map Alarm.settled) ∧ DesksKept s t ∧
      NoReply s t ∧ LinesKept s t ∧ Kept [.loads, .links, .journal, .lists, .alarms, .positions] s t

/-! ### Alarm points (chapter 1, R180) -/

/-- R2 to R4: DEFINE_ALARM stores its fields with their ranges clamped and what SAFETY forces. A new index gets a fresh
record; a definition replaced in UNCONFIGURED takes the lifecycle of its new in-service value and keeps its input; one
replaced in RESYNC or RUNNING keeps its record with the reminder count at 0, and its in-service value. The reply leads
with the index (log 9), and its mark of an in-service value that was kept is 0: the model's choice (log 26). -/
def Obligations.DefineAlarmStoresTheDefinition : Prop :=
  ∀ (h : Header) (f : AlarmFields) (cls : AlarmClass) (s : State), Passes .defineAlarm h s →
    f.index ≤ 2047 → f.area ≤ 15 → 1 ≤ f.priority → f.priority ≤ 4 → classOf? f.cls = some cls → f.ackLevel ≤ 3 → f.group ≤ 31 →
    (∀ a, alarm? s f.index = some a → s.runState = .unconfigured ∨
      (a.dyn.shelved = false ∧ (a.dyn.lifecycle = .normal ∨ a.dyn.lifecycle = .outOfService))) →
    ∃ t a, exec (.defineAlarm h f) s = .next t ∧ alarm? t f.index = some a ∧
      (a.defn.area = f.area ∧ a.defn.priority = f.priority ∧ a.defn.cls = cls ∧ a.defn.ackLevel = f.ackLevel ∧
        a.defn.group = (if cls = .safety then 0 else f.group) ∧
        a.defn.shelvable = (if cls = .safety then false else f.shelvable != 0) ∧
        a.defn.maxShelve = max 60 (min 28800 f.maxShelve) ∧ a.defn.reminder = max 30 (min 3600 f.reminder) ∧
        a.defn.escalation = min 15 f.escalation) ∧
      (alarm? s f.index = none → a.defn.inService = (f.inService != 0) ∧
        a.dyn = { input := .unknown, lifecycle := if f.inService = 0 then .outOfService else .normal, acknowledger := none,
                  shelved := false, escalated := false, overflow := false, annTime := none, reminders := 0 }) ∧
      (∀ b, alarm? s f.index = some b → s.runState = .unconfigured → a.defn.inService = (f.inService != 0) ∧
        a.dyn = { b.dyn with lifecycle := if f.inService = 0 then .outOfService else .normal, acknowledger := none,
                             reminders := 0 }) ∧
      (∀ b, alarm? s f.index = some b → s.runState ≠ .unconfigured →
        a.defn.inService = b.defn.inService ∧ a.dyn = { b.dyn with reminders := 0 }) ∧
      Replied .defineAlarm h (doneWith (definitionMarks f a.defn)) s t ∧
      (∀ j, j ≠ f.index → alarm? t j = alarm? s j) ∧ LinesKept s t ∧ Kept [.alarms, .links] s t

/-- R9, R10, R12: a RAISE takes NORMAL, LATCHED and RETURNED to RAISED, records ACTIVE and writes ALARM_RAISED; where the
alarm is not withheld its arrival weight is added at its owning position, and from NORMAL and LATCHED it is listed
with the mill time as annunciation time. R31: from RETURNED it keeps its place and its annunciation time; an annunciation
entry is unsilenced, its reminder starts at the full interval where R38 calls for it, and the horn line is judged. R27, R29,
R31, R43, R57: the notices are those of the placement (an UPDATE from RETURNED), HORN, LOAD where flood mode was entered
(said where the load state is sound), and ITEM. R131 to R133, R136: the items of a reviewing owner follow the FLOOD, PLACED and
LIFECYCLE reports. In the other lifecycles only the input is recorded. -/
def Obligations.ARaiseRaisesTheAlarm : Prop :=
  (∀ (h : Header) (i : Nat) (a : Alarm) (s : State), Passes .alarmEvent h s → alarm? s i = some a →
    a.dyn.lifecycle = .normal ∨ a.dyn.lifecycle = .latched ∨ a.dyn.lifecycle = .returned →
    ∃ t b, exec (.alarmEventRaise h i 1) s = .next t ∧ alarm? t i = some b ∧
      b.settled = (a.defn, .active, .raised, none, a.dyn.shelved) ∧
      Replied .alarmEvent h (doneWith (be8 1 ++ be8 1)) s t ∧
      JournaledFirst [⟨.alarmRaised, some (ownerOf s i), none, some i, lifecycleCode a.dyn.lifecycle * 256 + a.defn.priority⟩] s t ∧
      (isWithheld s i = true → t.loads = s.loads ∧ t.lists = s.lists) ∧
      (isWithheld s i = false →
        (t.loads.get (ownerOf s i)).load = min 65535 ((s.loads.get (ownerOf s i)).load + arrivalWeight a.defn.priority) ∧
        (a.dyn.lifecycle ≠ .returned → b.dyn.annTime = some s.millTime ∧ isListed t i = true)) ∧
      (isWithheld s i = false → a.dyn.lifecycle = .returned → (s.loads.get (ownerOf s i)).Sound →
        let p := ownerOf s i; let v := s.lists.get p; let w := t.lists.get p
        b.dyn = { a.dyn with input := .active, lifecycle := .raised, acknowledger := none } ∧
        w.deferred = v.deferred ∧ w.shelf = v.shelf ∧
        w.ann.map (fun e => (e.alarm, e.time)) = v.ann.map (fun e => (e.alarm, e.time)) ∧
        (∀ e ∈ w.ann, e.alarm = i → e.silenced = false ∧ e.reminder =
          if (t.loads.get p).flood = false ∨ a.defn.priority ≤ 2 then some a.defn.reminder else none) ∧
        ((t.loads.get p).flood = (s.loads.get p).flood → w.ann.filter (·.alarm != i) = v.ann.filter (·.alarm != i)) ∧
        (onAnn s p i = true → w.horn = hornSounds t p) ∧ (onAnn s p i = false → w.horn = v.horn)) ∧
      (a.defn.Sound → ∃ wrapped, let p := ownerOf s i
        let placed := !isWithheld s i && a.dyn.lifecycle != .returned
        let work := ((itemsFlood p s t).andThen ((itemsPlaced wrapped a.defn.priority i).onlyIf placed)).andThen
          (itemsLifecycle wrapped p i a.dyn.lifecycle .raised)
        ItemsFollow p work s t ∧
        ((s.loads.get p).Sound → Announced (fun l =>
          atDesk p ((if placed then placementNotices p i s.millTime .raised s
            else if isWithheld s i = false ∧ onAnn s p i = true then [.update i .raised false] else []) ++ hornNotices p s t) l ++
          atBoth p (loadNotices p s t) l ++ atDesk p (itemNotices p work s) l) s t)) ∧
      (∀ q, q ≠ ownerOf s i → t.loads.get q = s.loads.get q ∧ t.lists.get q = s.lists.get q) ∧
      OtherAlarmsSettled i s t ∧ DesksKept s t ∧ LinesKept s t ∧
      Kept [.alarms, .lists, .loads, .positions, .journal, .links, .free] s t) ∧
  (∀ (h : Header) (i : Nat) (a : Alarm) (s : State), Passes .alarmEvent h s → alarm? s i = some a →
    a.dyn.lifecycle = .raised ∨ a.dyn.lifecycle = .held ∨ a.dyn.lifecycle = .outOfService →
    ∃ t, exec (.alarmEventRaise h i 1) s = .next t ∧ alarm? t i = some { a with dyn := { a.dyn with input := .active } } ∧
      Replied .alarmEvent h (doneWith (be8 255 ++ be8 (lifecycleCode a.dyn.lifecycle))) s t ∧
      (∀ j, j ≠ i → alarm? t j = alarm? s j) ∧ LinesKept s t ∧ Kept [.alarms, .links] s t)

/-- R9, R11, R12: a CLEAR takes RAISED to RETURNED (NORMAL where the alarm is withheld) and HELD to NORMAL (LATCHED for
SAFETY, with the acknowledger kept), records INACTIVE and writes ALARM_CLEARED; the loads stand. R30: a RETURN keeps the
place, the annunciation time and the silenced marker; the reminder of an annunciation entry stops, an UPDATE notice goes to the
console, and the horn line is judged. R132, R133: the items of a reviewing owner follow the LIFECYCLE report, with their
notices. In the other lifecycles only the input is recorded. -/
def Obligations.AClearReturnsTheAlarm : Prop :=
  (∀ (h : Header) (i : Nat) (a : Alarm) (after : Lifecycle) (s : State), Passes .alarmEvent h s → alarm? s i = some a →
    (a.dyn.lifecycle = .raised ∧ after = (if isWithheld s i then .normal else .returned)) ∨
      (a.dyn.lifecycle = .held ∧ after = (if a.defn.cls = .safety then .latched else .normal)) →
    ∃ t b, exec (.alarmEventClear h i) s = .next t ∧ alarm? t i = some b ∧
      b.settled = (a.defn, .inactive, after, (if after = .latched then a.dyn.acknowledger else none), a.dyn.shelved) ∧
      Replied .alarmEvent h (doneWith (be8 1 ++ be8 (lifecycleCode after))) s t ∧
      Journaled [⟨.alarmCleared, some (ownerOf s i), none, some i, lifecycleCode after * 256 + a.defn.priority⟩] s t ∧
      (∀ q, (t.lists.get q).deferred = (s.lists.get q).deferred ∧ (t.lists.get q).shelf = (s.lists.get q).shelf ∧
        (t.lists.get q).ann = (s.lists.get q).ann.map fun e =>
          if q = ownerOf s i ∧ after = .returned ∧ e.alarm = i then { e with reminder := none } else e) ∧
      b.dyn.annTime = a.dyn.annTime ∧ (after ≠ .normal → b.dyn.reminders = a.dyn.reminders) ∧
      (after = .normal → b.dyn.reminders = 0) ∧
      (let p := ownerOf s i
       (t.lists.get p).horn = if after = .returned ∧ onAnn s p i = true then hornSounds t p else (s.lists.get p).horn) ∧
      (∀ q, q ≠ ownerOf s i → t.lists.get q = s.lists.get q) ∧
      (∃ wrapped, let p := ownerOf s i; let work := itemsLifecycle wrapped p i a.dyn.lifecycle after
        ItemsFollow p work s t ∧
        Announced (atDesk p ((if after = .returned then
            ((s.lists.get p).ann.find? fun e => e.alarm == i).toList.map (fun e => .update i .returned e.silenced) else []) ++
          hornNotices p s t ++ itemNotices p work s)) s t) ∧
      (∀ j, j ≠ i → alarm? t j = alarm? s j) ∧ DesksKept s t ∧ LinesKept s t ∧
      Kept [.alarms, .lists, .positions, .journal, .links, .free] s t) ∧
  (∀ (h : Header) (i : Nat) (a : Alarm) (s : State), Passes .alarmEvent h s → alarm? s i = some a →
    a.dyn.lifecycle ≠ .raised → a.dyn.lifecycle ≠ .held →
    ∃ t, exec (.alarmEventClear h i) s = .next t ∧ alarm? t i = some { a with dyn := { a.dyn with input := .inactive } } ∧
      Replied .alarmEvent h (doneWith (be8 255 ++ be8 (lifecycleCode a.dyn.lifecycle))) s t ∧
      (∀ j, j ≠ i → alarm? t j = alarm? s j) ∧ LinesKept s t ∧ Kept [.alarms, .links] s t)

/-- R180: in RESYNC an ALARM_STATE ACTIVE acts as a RAISE and an INACTIVE as a CLEAR (R10, R11), without weight and without an
entry: the loads and the journal stand. -/
def Obligations.AnAlarmStateIsUnweighted : Prop :=
  (∀ (h : Header) (i : Nat) (a : Alarm) (s : State), Passes .alarmState h s → s.runState = .resync → alarm? s i = some a →
    ∃ t b, exec (.alarmStateActive h i 1) s = .next t ∧ alarm? t i = some b ∧ b.dyn.input = .active ∧
      (a.dyn.lifecycle = .normal ∨ a.dyn.lifecycle = .latched ∨ a.dyn.lifecycle = .returned →
        b.settled = (a.defn, .active, .raised, none, a.dyn.shelved) ∧ Replied .alarmState h (doneWith (be8 1 ++ be8 1)) s t ∧
        (isWithheld s i = true → t.lists = s.lists) ∧
        (isWithheld s i = false → a.dyn.lifecycle ≠ .returned → b.dyn.annTime = some s.millTime ∧ isListed t i = true) ∧
        (isWithheld s i = false → a.dyn.lifecycle = .returned → b.dyn.annTime = a.dyn.annTime ∧
          (t.lists.get (ownerOf s i)).ann = (s.lists.get (ownerOf s i)).ann.map fun e =>
            if e.alarm = i then { e with silenced := false, reminder :=
              if (s.loads.get (ownerOf s i)).flood = false ∨ a.defn.priority ≤ 2 then some a.defn.reminder else none } else e)) ∧
      (a.dyn.lifecycle = .raised ∨ a.dyn.lifecycle = .held ∨ a.dyn.lifecycle = .outOfService →
        b = { a with dyn := { a.dyn with input := .active } } ∧ t.lists = s.lists ∧ t.positions = s.positions ∧
        Replied .alarmState h (doneWith (be8 255 ++ be8 (lifecycleCode a.dyn.lifecycle))) s t) ∧
      OtherAlarmsSettled i s t ∧ DesksKept s t ∧ LinesKept s t ∧ Kept [.alarms, .lists, .positions, .links, .free] s t) ∧
  (∀ (h : Header) (i : Nat) (a : Alarm) (s : State), Passes .alarmState h s → s.runState = .resync → alarm? s i = some a →
    let after := match a.dyn.lifecycle with
      | .raised => if isWithheld s i then .normal else .returned
      | .held => if a.defn.cls = .safety then .latched else .normal
      | lc => lc
    ∃ t b, exec (.alarmStateInactive h i) s = .next t ∧ alarm? t i = some b ∧
      b.settled = (a.defn, .inactive, after,
        (if after = a.dyn.lifecycle ∨ after = .latched then a.dyn.acknowledger else none), a.dyn.shelved) ∧
      Replied .alarmState h (doneWith (be8 (if after = a.dyn.lifecycle then 255 else 1) ++ be8 (lifecycleCode after))) s t ∧
      (∀ q, (t.lists.get q).deferred = (s.lists.get q).deferred ∧ (t.lists.get q).shelf = (s.lists.get q).shelf ∧
        (t.lists.get q).ann = (s.lists.get q).ann.map fun e =>
          if q = ownerOf s i ∧ a.dyn.lifecycle = .raised ∧ after = .returned ∧ e.alarm = i then { e with reminder := none } else e) ∧
      (∀ j, j ≠ i → alarm? t j = alarm? s j) ∧ DesksKept s t ∧ LinesKept s t ∧
      Kept [.alarms, .lists, .positions, .links, .free] s t)

/-- R15, R16: OUT_OF_SERVICE takes an alarm out of every lifecycle, off its shelf, off the escalation list and (where it
stood in one place) off its lists; RETURN_TO_SERVICE brings it to RAISED or NORMAL as its recorded input says. Each writes
its entry, and the items of a reviewing owner follow their reports (R131 to R134, R136). An OUT_OF_SERVICE of an alarm out of
service and a RETURN_TO_SERVICE of one in service answer NO_CHANGE and change nothing. -/
def Obligations.ServiceStateFollowsTheGateway : Prop :=
  (∀ (h : Header) (i : Nat) (a : Alarm) (s : State), Passes .outOfService h s → alarm? s i = some a →
    a.dyn.lifecycle ≠ .outOfService →
    ∃ t b, exec (.outOfService h i) s = .next t ∧ alarm? t i = some b ∧
      b.settled = ({ a.defn with inService := false }, a.dyn.input, .outOfService, none, false) ∧
      b.dyn.escalated = false ∧ b.dyn.reminders = 0 ∧ (isListed s i = true → b.dyn.annTime = none) ∧
      Replied .outOfService h (doneWith (be8 1)) s t ∧
      Journaled [⟨.outOfService, some (ownerOf s i), none, some i, lifecycleCode a.dyn.lifecycle⟩] s t ∧
      (a.dyn.shelved = true → ∀ e ∈ (t.lists.get (ownerOf s i)).shelf, e.alarm ≠ i) ∧
      (∃ wrapped, ItemsFollow (ownerOf s i) ((((itemResolved .shelf i).onlyIf a.dyn.shelved).andThen
        ((itemsRemoved a.defn.priority).onlyIf (isListed s i))).andThen
          (itemsLifecycle wrapped (ownerOf s i) i a.dyn.lifecycle .outOfService)) s t) ∧
      (a.dyn.escalated = true → ∀ e ∈ t.escalation, e.alarm ≠ i) ∧
      (s.alarms.wf = true → OnePlace s i → isListed t i = false) ∧
      (∀ q, q ≠ ownerOf s i → t.lists.get q = s.lists.get q) ∧
      OtherAlarmsSettled i s t ∧ DesksKept s t ∧ LinesKept s t ∧
      Kept [.alarms, .lists, .escalation, .positions, .journal, .links, .free] s t) ∧
  (∀ (h : Header) (i : Nat) (a : Alarm) (s : State), Passes .returnToService h s → alarm? s i = some a →
    a.dyn.lifecycle = .outOfService →
    ∃ t b, exec (.returnToService h i) s = .next t ∧ alarm? t i = some b ∧
      b.settled = ({ a.defn with inService := true }, a.dyn.input,
        (if a.dyn.input = .active then .raised else .normal), none, a.dyn.shelved) ∧
      Replied .returnToService h (doneWith (be8 1 ++ be8 (if a.dyn.input = .active then 1 else 0))) s t ∧
      JournaledFirst [⟨.returnedToService, some (ownerOf s i), none, some i, if a.dyn.input = .active then 1 else 0⟩] s t ∧
      (a.dyn.input ≠ .active ∨ isSuppressed s i = true → t.loads = s.loads ∧ t.lists = s.lists) ∧
      (a.defn.Sound → ∃ wrapped, ItemsFollow (ownerOf s i) (((itemsFlood (ownerOf s i) s t).andThen
        ((itemsPlaced wrapped a.defn.priority i).onlyIf (a.dyn.input == .active && !isSuppressed s i))).andThen
          (itemsLifecycle wrapped (ownerOf s i) i .outOfService (if a.dyn.input = .active then .raised else .normal))) s t) ∧
      (a.dyn.input = .active → isSuppressed s i = false → b.dyn.annTime = some s.millTime ∧ isListed t i = true ∧
        (t.loads.get (ownerOf s i)).load = min 65535 ((s.loads.get (ownerOf s i)).load + arrivalWeight a.defn.priority)) ∧
      OtherAlarmsSettled i s t ∧ DesksKept s t ∧ LinesKept s t ∧
      Kept [.alarms, .lists, .loads, .positions, .journal, .links, .free] s t) ∧
  (∀ (h : Header) (i : Nat) (a : Alarm) (s : State), Passes .outOfService h s → alarm? s i = some a →
    a.dyn.lifecycle = .outOfService →
    ∃ t, exec (.outOfService h i) s = .next t ∧ Replied .outOfService h (doneWith (be8 255)) s t ∧ LinesKept s t ∧
      Kept [.links] s t) ∧
  (∀ (h : Header) (i : Nat) (a : Alarm) (s : State), Passes .returnToService h s → alarm? s i = some a →
    a.dyn.lifecycle ≠ .outOfService →
    ∃ t, exec (.returnToService h i) s = .next t ∧ Replied .returnToService h (doneWith (be8 255)) s t ∧ LinesKept s t ∧
      Kept [.links] s t)

/-- R17, R18: masking adds the named groups to the mask, takes the RETURNED alarms of the newly masked groups to NORMAL,
keeps every other lifecycle and the loads, and writes one entry that counts the groups changed. The alarms of those groups
that are RAISED or RETURNED and not shelved leave the escalation list and (where they stood in one place) their lists, with
their annunciation times; the reply counts those that were listed, in overflow alone included (the model's choice, log 27). -/
def Obligations.MaskingSuppressesTheGroups : Prop :=
  ∀ (h : Header) (groups : Word) (s : State), Passes .groupMask h s → groups ≠ 0 → groups.getLsbD 0 = false →
    ∃ t n, exec (.groupMaskMask h 1 groups) s = .next t ∧ t.mask = s.mask ||| groups ∧
      Replied .groupMask h (doneWith (beWord t.mask ++ be16 n ++ be16 0)) s t ∧
      (∀ i a, alarm? s i = some a → ∃ b, alarm? t i = some b ∧
        b.settled = (a.defn, a.dyn.input,
          (if a.dyn.lifecycle = .returned ∧ (groups &&& ~~~s.mask).getLsbD a.defn.group = true then .normal else a.dyn.lifecycle),
          (if a.dyn.lifecycle = .returned ∧ (groups &&& ~~~s.mask).getLsbD a.defn.group = true then none
            else a.dyn.acknowledger), a.dyn.shelved) ∧
        ((groups &&& ~~~s.mask).getLsbD a.defn.group = true → a.isOpen = true → b.dyn.annTime = none ∧
          b.dyn.escalated = false ∧ (a.dyn.escalated = true → ∀ e ∈ t.escalation, e.alarm ≠ i) ∧
          (s.alarms.wf = true → OnePlace s i → isListed t i = false))) ∧
      (s.alarms.wf = true → n = s.alarms.countP fun e =>
        (groups &&& ~~~s.mask).getLsbD e.2.defn.group && e.2.isOpen && isListed s e.1) ∧
      (groups &&& ~~~s.mask = 0 → Journaled [] s t ∧ t.lists = s.lists ∧ t.alarms = s.alarms) ∧
      (groups &&& ~~~s.mask ≠ 0 → Journaled [⟨.suppressionChanged, none, none, none,
        256 + (List.range 32).countP (fun g => (groups &&& ~~~s.mask).getLsbD g)⟩] s t) ∧
      DesksKept s t ∧ LinesKept s t ∧ Kept [.mask, .alarms, .lists, .escalation, .positions, .journal, .links, .free] s t

/-- R17, R19: unmasking takes the named groups out of the mask; every unshelved RAISED or RETURNED alarm of a group that
was masked is placed, with the mill time as its annunciation time and its arrival weight at its owning position, saturating
with LIMIT; every lifecycle stands; the reply counts the alarms placed. -/
def Obligations.UnmaskingPlacesTheAlarms : Prop :=
  ∀ (h : Header) (groups : Word) (s : State), Passes .groupMask h s → groups ≠ 0 → groups.getLsbD 0 = false →
    let placed := (s.alarms.map Prod.fst).filter fun i =>
      (groups &&& s.mask).getLsbD (alarmAt s i).defn.group && (alarmAt s i).isOpen
    ∃ t n, exec (.groupMaskUnmask h groups) s = .next t ∧ t.mask = s.mask &&& ~~~groups ∧
      Replied .groupMask h (doneWith (beWord t.mask ++ be16 0 ++ be16 n)) s t ∧
      (∀ i a, alarm? s i = some a → ∃ b, alarm? t i = some b ∧ b.settled = a.settled ∧
        ((groups &&& s.mask).getLsbD a.defn.group = true → a.dyn.lifecycle = .raised ∨ a.dyn.lifecycle = .returned →
          a.dyn.shelved = false → b.dyn.annTime = some s.millTime ∧ isListed t i = true)) ∧
      n = placed.length ∧
      (∀ p weights, weights = ((placed.filter fun i => ownerOf s i == p).map fun i => arrivalWeight (priorityOf s i)) →
        (weights = [] → t.loads.get p = s.loads.get p) ∧
        (weights ≠ [] → (t.loads.get p).load = min 65535 ((s.loads.get p).load + weights.sum) ∧
          (t.loads.get p).limit = ((s.loads.get p).limit || decide (65535 < (s.loads.get p).load + weights.sum)))) ∧
      (groups &&& s.mask = 0 → Journaled [] s t ∧ t.lists = s.lists ∧ t.alarms = s.alarms ∧ t.loads = s.loads) ∧
      (groups &&& s.mask ≠ 0 → JournaledFirst [⟨.suppressionChanged, none, none, none,
        (List.range 32).countP (fun g => (groups &&& s.mask).getLsbD g)⟩] s t) ∧
      DesksKept s t ∧ LinesKept s t ∧ Kept [.mask, .alarms, .lists, .loads, .positions, .journal, .links, .free] s t

/-! ### Position lists (chapter 2) -/

/-- R27, R28: a placement, case by case: to deferred insertion in flood for priority 4; into room; in place of the lowest
entry it outranks, which goes to deferred insertion; else to deferred insertion. Deferred insertion (`DeferredTakes`) takes
room, or the place of the lowest entry, which goes to overflow, or ends in overflow itself, in flood and outside it. The
alarm gets the annunciation time of the report. -/
def Obligations.APlacementFollowsItsCases : Prop :=
  ∀ (p : Pos) (i : Nat) (t : Word) (a : Alarm) (s : State), alarm? s i = some a →
    let v := s.lists.get p; let r := placeOnLists p i t s; let w := r.lists.get p
    let flooded := (s.loads.get p).flood = true ∧ a.defn.priority = 4
    (∃ b, alarm? r i = some b ∧ b.dyn.annTime = some t ∧ b.settled = a.settled ∧ b.dyn.escalated = a.dyn.escalated ∧
      b.dyn.reminders = a.dyn.reminders) ∧
    (flooded → w.ann = v.ann ∧ DeferredTakes p i t s r) ∧
    (¬flooded → v.ann.length < 128 →
      w.deferred = v.deferred ∧ w.ann.length = v.ann.length + 1 ∧
      ⟨i, t, false, if a.dyn.lifecycle = .raised ∧ ((s.loads.get p).flood = false ∨ a.defn.priority ≤ 2)
        then some a.defn.reminder else none⟩ ∈ w.ann) ∧
    (∀ low, ¬flooded → 128 ≤ v.ann.length → v.ann.getLast? = some low →
      outranks (priorityOf s i, t.toNat, i) (priorityOf s low.alarm, low.time.toNat, low.alarm) = false →
      w.ann = v.ann ∧ DeferredTakes p i t s r) ∧
    (∀ low, ¬flooded → 128 ≤ v.ann.length → v.ann.getLast? = some low →
      outranks (priorityOf s i, t.toNat, i) (priorityOf s low.alarm, low.time.toNat, low.alarm) = true → low.alarm ≠ i →
      (∃ e ∈ w.ann, e.alarm = i ∧ e.time = t ∧ e.silenced = false) ∧ (∀ e ∈ w.ann, e.alarm ≠ low.alarm) ∧
        DeferredTakes p low.alarm low.time s r) ∧
    w.shelf = v.shelf ∧ w.horn = v.horn ∧
    (∀ j, j ≠ i → (alarm? r j).map (fun b => { b with dyn := { b.dyn with overflow := false } }) =
      (alarm? s j).map (fun b => { b with dyn := { b.dyn with overflow := false } })) ∧
    (∀ q, q ≠ p → r.lists.get q = s.lists.get q) ∧ Kept [.alarms, .lists, .links] s r

/-- R39, R41: a reminder that has expired (log 1) raises the count up to 15 and adds the reminder weight; an alarm that is
then due escalates, with its entry, where the escalation list has room, or where it outranks the lowest entry, which leaves
the list with its flag and its reminder count cleared; else its reminder count is set to 0. One that is not due does not.
REMIND goes to the owning console, ESCALATE to P0's, then LOAD where flood mode was entered (R57; said where the load state is
sound), and the FLOOD item of a reviewing owner follows (R136). -/
def Obligations.AReminderCountsAndEscalates : Prop :=
  ∀ (i : Nat) (a : Alarm) (s : State), alarm? s i = some a →
    (∃ e ∈ (s.lists.get (ownerOf s i)).ann, e.alarm = i ∧ e.reminder = some 0) →
    ∃ t b, exec (.reminderExpiry i) s = .next t ∧ alarm? t i = some b ∧ b.settled = a.settled ∧
      let p := ownerOf s i
      let told := fun (escalation : List Notice) (l : Link) => atDesk p [.remind i (min 15 (a.dyn.reminders + 1))] l ++
        atDesk .p0 escalation l ++ atBoth p (loadNotices p s t) l ++ atDesk p (itemNotices p (itemsFlood p s t) s) l
      let entered : Notice := .escalate i a.defn.priority a.defn.area p none
      ItemsFollow p (itemsFlood p s t) s t ∧
      (t.loads.get (ownerOf s i)).load = min 65535 ((s.loads.get (ownerOf s i)).load + arrivalWeight a.defn.priority / 2) ∧
      (a.defn.escalation = 0 ∨ min 15 (a.dyn.reminders + 1) < a.defn.escalation ∨ a.dyn.escalated = true →
        b.dyn.reminders = min 15 (a.dyn.reminders + 1) ∧ b.dyn.escalated = a.dyn.escalated ∧ t.escalation = s.escalation ∧
        ((s.loads.get p).Sound → Announced (told []) s t)) ∧
      (a.defn.escalation ≠ 0 → a.defn.escalation ≤ min 15 (a.dyn.reminders + 1) → a.dyn.escalated = false →
        s.escalation.length < 64 →
        b.dyn.reminders = min 15 (a.dyn.reminders + 1) ∧ b.dyn.escalated = true ∧
        t.escalation.length = s.escalation.length + 1 ∧ (∃ e ∈ t.escalation, e.alarm = i) ∧
        JournaledFirst [⟨.escalated, some (ownerOf s i), none, some i, min 15 (a.dyn.reminders + 1)⟩] s t ∧
        ((s.loads.get p).Sound → Announced (told [entered]) s t)) ∧
      (∀ low, a.defn.escalation ≠ 0 → a.defn.escalation ≤ min 15 (a.dyn.reminders + 1) → a.dyn.escalated = false →
        64 ≤ s.escalation.length → s.escalation.getLast? = some low →
        (outranks (rankOf s i (a.dyn.annTime.getD 0)) (rankOf s low.alarm low.time) = true → low.alarm ≠ i →
          b.dyn.reminders = min 15 (a.dyn.reminders + 1) ∧ b.dyn.escalated = true ∧
          ⟨i, a.dyn.annTime.getD 0⟩ ∈ t.escalation ∧ (∀ e ∈ t.escalation, e.alarm ≠ low.alarm) ∧
          (∀ e, e.alarm ≠ low.alarm → e ∈ s.escalation → e ∈ t.escalation) ∧
          (∀ x, alarm? s low.alarm = some x → ∃ y, alarm? t low.alarm = some y ∧ y.dyn.escalated = false ∧
            y.dyn.reminders = 0) ∧
          JournaledFirst [⟨.escalated, some (ownerOf s i), none, some i, min 15 (a.dyn.reminders + 1)⟩] s t ∧
          ((s.loads.get p).Sound → Announced (told
            [.escalate low.alarm (priorityOf s low.alarm) (alarmAt s low.alarm).defn.area (ownerOf s low.alarm)
              (some .displaced), entered]) s t)) ∧
        (outranks (rankOf s i (a.dyn.annTime.getD 0)) (rankOf s low.alarm low.time) = false →
          b.dyn.reminders = 0 ∧ b.dyn.escalated = false ∧ t.escalation = s.escalation ∧
          ((s.loads.get p).Sound → Announced (told []) s t))) ∧
      ((t.loads.get (ownerOf s i)).flood = (s.loads.get (ownerOf s i)).flood →
        ∀ e ∈ (t.lists.get (ownerOf s i)).ann, e.alarm = i → e.reminder = some a.defn.reminder) ∧
      (∀ q, q ≠ ownerOf s i → t.loads.get q = s.loads.get q ∧ t.lists.get q = s.lists.get q) ∧
      OtherAlarmsSettled i s t ∧ DesksKept s t ∧ LinesKept s t ∧ NoReply s t ∧
      Kept [.alarms, .lists, .escalation, .loads, .positions, .journal, .links] s t

/-- R44: SILENCE silences every annunciation entry of the holder's position, the horn falls quiet, and the reply counts
the entries that were not silenced. -/
def Obligations.SilenceQuietensTheHorn : Prop :=
  ∀ (h : Header) (p : Pos) (s : State), Passes .silence h s → h.link = .console p → Holds s h.op p →
    ∃ t, exec (.silence h) s = .next t ∧
      t.lists.get p = { s.lists.get p with ann := (s.lists.get p).ann.map (fun e => { e with silenced := true }), horn := false } ∧
      Replied .silence h (doneWith (be16 ((s.lists.get p).ann.countP fun e => !e.silenced))) s t ∧
      (∀ q, q ≠ p → t.lists.get q = s.lists.get q) ∧ LinesKept s t ∧ Kept [.lists, .links] s t

/-! ### Acknowledgement and shelving (chapter 6) -/

/-- R13, R109: ACK takes RAISED to HELD and RETURNED to NORMAL (LATCHED for SAFETY) with the acting operator as
acknowledger, off the escalation list and (where it stood in one place) off the lists, with its entry and the loads as
they stood. R32, R33, R42, R43: its notices are RETRACT with the ANNUNCIATE of the entry promoted, HORN, ESCALATE and ITEM (said
where the list was not over its capacity). R131 to R133: the items of a reviewing owner follow. HELD, NORMAL and LATCHED give NO_CHANGE. -/
def Obligations.AckAcknowledgesTheAlarm : Prop :=
  (∀ (h : Header) (p : Pos) (i : Nat) (a : Alarm) (after : Lifecycle) (s : State), Passes .ack h s → h.link = .console p →
    alarm? s i = some a → MayAct s h.op i .operate a.defn.ackLevel p → isWithheld s i = false →
    (a.dyn.lifecycle = .raised ∧ after = .held) ∨
      (a.dyn.lifecycle = .returned ∧ after = if a.defn.cls = .safety then .latched else .normal) →
    ∃ t b, exec (.ack h i) s = .next t ∧ alarm? t i = some b ∧
      b.settled = (a.defn, a.dyn.input, after, (if after = .normal then none else some h.op), a.dyn.shelved) ∧
      b.dyn.reminders = 0 ∧ b.dyn.escalated = false ∧ b.dyn.annTime = none ∧
      Replied .ack h (doneWith (be8 0 ++ be16 i ++ be8 (lifecycleCode after))) s t ∧
      Journaled [⟨.acknowledged, some (ownerOf s i), some h.op, some i, p.num * 256 + lifecycleCode after⟩] s t ∧
      (a.dyn.escalated = true → ∀ e ∈ t.escalation, e.alarm ≠ i) ∧
      (s.alarms.wf = true → OnePlace s i → isListed t i = false) ∧
      (∃ wrapped, let q := ownerOf s i
        let work := ((itemsRemoved a.defn.priority).onlyIf (isListed s i)).andThen
          (itemsLifecycle wrapped q i a.dyn.lifecycle after)
        ItemsFollow q work s t ∧
        (OnePlace s i → (s.lists.get q).ann.length ≤ 128 → Announced (fun l =>
          atDesk q (departureNotices q i .acknowledged s ++ hornNotices q s t) l ++
          atDesk .p0 (leftEscalation i .acknowledged s) l ++ atDesk q (itemNotices q work s) l) s t)) ∧
      (∀ q, q ≠ ownerOf s i → t.lists.get q = s.lists.get q) ∧
      OtherAlarmsSettled i s t ∧ DesksKept s t ∧ LinesKept s t ∧
      Kept [.alarms, .lists, .escalation, .positions, .journal, .links, .free] s t) ∧
  (∀ (h : Header) (p : Pos) (i : Nat) (a : Alarm) (s : State), Passes .ack h s → h.link = .console p →
    alarm? s i = some a → MayAct s h.op i .operate a.defn.ackLevel p → isWithheld s i = false →
    a.dyn.lifecycle = .held ∨ a.dyn.lifecycle = .normal ∨ a.dyn.lifecycle = .latched →
    ∃ t, exec (.ack h i) s = .next t ∧ Replied .ack h (doneWith (be8 255 ++ be16 i ++ be8 (lifecycleCode a.dyn.lifecycle))) s t ∧
      LinesKept s t ∧ Kept [.links] s t)

/-- R110: ACK_LIST works through the named alarms and answers one element for each, in the order named: the index, the outcome
and the lifecycle after. Where the operator may acknowledge all of them, each goes to the lifecycle that its own ACK gives,
with its ACKNOWLEDGED entry, one that was RAISED with the acting operator as acknowledger and its reminder count at 0; an
index named again, and one that is HELD, NORMAL or LATCHED, gives NO_CHANGE. Where the single named index is undefined or
its alarm may not be acknowledged, the element gives the index, the cause and its subject, and nothing changes but the entry
that R85 calls for. -/
def Obligations.AckListAcknowledgesEachAlarm : Prop :=
  (∀ (h : Header) (p : Pos) (indices : List Nat) (s : State), Passes .ackList h s → h.link = .console p →
    1 ≤ indices.length → indices.length ≤ 8 → 2 + 2 * indices.length ≤ h.len → Holds s h.op p →
    (∀ i ∈ indices, MayAct s h.op i .operate (alarmAt s i).defn.ackLevel p ∧ isWithheld s i = false ∧
      lifecycleOf s i ≠ .outOfService) →
    let after := fun i => match lifecycleOf s i with
      | .raised => .held
      | .returned => if (alarmAt s i).defn.cls = .safety then .latched else .normal
      | lc => lc
    let acked := indices.zipIdx.filter fun x =>
      (lifecycleOf s x.1 == .raised || lifecycleOf s x.1 == .returned) && !(indices.take x.2).contains x.1
    ∃ t es, exec (.ackList h indices.length indices) s = .next t ∧
      es = indices.zipIdx.map (fun x => be16 x.1 ++ be8 (if x ∈ acked then 0 else 255) ++ be8 (lifecycleCode (after x.1))) ∧
      Replied .ackList h (.done es false) s t ∧
      Journaled (acked.map fun x =>
        ⟨.acknowledged, some (ownerOf s x.1), some h.op, some x.1, p.num * 256 + lifecycleCode (after x.1)⟩) s t ∧
      (∀ i ∈ indices, lifecycleOf t i = after i) ∧
      (∀ i ∈ indices, lifecycleOf s i = .raised → (alarmAt t i).dyn.acknowledger = some h.op ∧ (alarmAt t i).dyn.reminders = 0) ∧
      (∀ j, j ∉ indices → (alarm? t j).map Alarm.settled = (alarm? s j).map Alarm.settled) ∧
      DesksKept s t ∧ LinesKept s t ∧ Kept [.alarms, .lists, .escalation, .positions, .journal, .links, .free] s t) ∧
  (∀ (h : Header) (p : Pos) (i : Nat) (s : State), Passes .ackList h s → h.link = .console p → 4 ≤ h.len → i ≤ 2047 →
    Holds s h.op p →
    (alarm? s i = none → ∃ t, exec (.ackList h 1 [i]) s = .next t ∧
      Replied .ackList h (.done [be16 i ++ be8 17 ++ be16 i] false) s t ∧ LinesKept s t ∧ Kept [.links] s t) ∧
    (∀ a, alarm? s i = some a →
      (ownerOf s i ≠ p → ¬(p = .p0 ∧ holdsFor s.grants h.op .supervise a.defn.area .p0 = true) →
        ∃ t, exec (.ackList h 1 [i]) s = .next t ∧
          Replied .ackList h (.done [be16 i ++ be8 10 ++ be16 a.defn.area] false) s t ∧ LinesKept s t ∧ Kept [.links] s t) ∧
      (ownerOf s i = p → holdsFor s.grants h.op .operate a.defn.area p = false →
        ∃ t, exec (.ackList h 1 [i]) s = .next t ∧
          Replied .ackList h (.done [be16 i ++ be8 11 ++ be16 a.defn.area] false) s t ∧
          Journaled [⟨.accessRefused, some p, some h.op, some i, 3 * 256 + 33⟩] s t ∧ LinesKept s t ∧
          Kept [.journal, .links] s t) ∧
      (ownerOf s i = p → holdsFor s.grants h.op .operate a.defn.area p = true → a.defn.ackLevel < levelOf s h.op →
        ∃ t, exec (.ackList h 1 [i]) s = .next t ∧
          Replied .ackList h (.done [be16 i ++ be8 12 ++ be16 i] false) s t ∧
          Journaled [⟨.accessRefused, some p, some h.op, some i, 4 * 256 + 33⟩] s t ∧ LinesKept s t ∧
          Kept [.journal, .links] s t) ∧
      (MayAct s h.op i .operate a.defn.ackLevel p → a.dyn.lifecycle = .outOfService ∨ a.dyn.shelved = true →
        ∃ t, exec (.ackList h 1 [i]) s = .next t ∧
          Replied .ackList h (.done [be16 i ++ be8 18 ++ be16 i] false) s t ∧ LinesKept s t ∧ Kept [.links] s t) ∧
      (MayAct s h.op i .operate a.defn.ackLevel p → a.dyn.lifecycle ≠ .outOfService → a.dyn.shelved = false →
        isSuppressed s i = true →
        ∃ t, exec (.ackList h 1 [i]) s = .next t ∧
          Replied .ackList h (.done [be16 i ++ be8 19 ++ be16 i] false) s t ∧ LinesKept s t ∧ Kept [.links] s t)))

/-- R112: a first SHELVE sets the shelved flag, enters the shelf list with the duration clamped to 60 s and the alarm's
maximum, leaves the lifecycle and the loads, and writes its entry; the alarm leaves the escalation list and (where it stood
in one place) the lists, with its annunciation time. R113: a SHELVE of a shelved alarm renews its entry, with a new operator,
time and duration; no list but the shelf list changes, and no alarm record. R131, R134: at an owner in REVIEW a first SHELVE
lowers the summary of a listed alarm and appends a SHELF item (said where the items are numbered), and a renewal reopens that
item with the new duration; each sends its notices, after those of the departure (R32, said as for ACK). -/
def Obligations.ShelveEntersOrRenewsTheShelf : Prop :=
  (∀ (h : Header) (p : Pos) (i duration : Nat) (a : Alarm) (s : State), Passes .shelve h s → h.link = .console p →
    alarm? s i = some a → MayAct s h.op i .shelve a.defn.ackLevel p → a.defn.shelvable = true →
    a.dyn.lifecycle ≠ .outOfService → isSuppressed s i = false → a.dyn.shelved = false →
    (s.lists.get (ownerOf s i)).shelf.length < 32 → HasRoom s (ownerOf s i) →
    ∃ t b effective, exec (.shelve h i duration) s = .next t ∧
      effective = (if duration < 60 then 60 else if a.defn.maxShelve < duration then a.defn.maxShelve else duration) ∧
      alarm? t i = some b ∧ b.settled = (a.defn, a.dyn.input, a.dyn.lifecycle, a.dyn.acknowledger, true) ∧
      b.dyn.escalated = false ∧ b.dyn.reminders = a.dyn.reminders ∧ (isListed s i = true → b.dyn.annTime = none) ∧
      (a.dyn.escalated = true → ∀ e ∈ t.escalation, e.alarm ≠ i) ∧
      (s.alarms.wf = true → OnePlace s i → isListed t i = false) ∧
      (t.lists.get (ownerOf s i)).shelf.length = (s.lists.get (ownerOf s i)).shelf.length + 1 ∧
      ⟨i, h.op, s.millTime, effective, effective⟩ ∈ (t.lists.get (ownerOf s i)).shelf ∧
      Replied .shelve h (doneWith (be16 i ++ be16 effective ++ be8 (if duration = effective then 0 else 1) ++
        be8 (lifecycleCode a.dyn.lifecycle) ++ be8 2)) s t ∧
      Journaled [⟨.shelved, some (ownerOf s i), some h.op, some i, effective⟩] s t ∧
      (Numbered (s.positions.get (ownerOf s i)).items → let q := ownerOf s i
        let work := ((itemsRemoved a.defn.priority).onlyIf (isListed s i)).andThen (itemsShelved i effective)
        ItemsFollow q work s t ∧
        (OnePlace s i → (s.lists.get q).ann.length ≤ 128 → Announced (fun l =>
          atDesk q (departureNotices q i .shelved s ++ hornNotices q s t) l ++
          atDesk .p0 (leftEscalation i .shelved s) l ++ atDesk q (itemNotices q work s) l) s t)) ∧
      (∀ q, q ≠ ownerOf s i → t.lists.get q = s.lists.get q) ∧
      OtherAlarmsSettled i s t ∧ DesksKept s t ∧ LinesKept s t ∧
      Kept [.alarms, .lists, .escalation, .positions, .journal, .links] s t) ∧
  (∀ (h : Header) (p : Pos) (i duration : Nat) (a : Alarm) (s : State), Passes .shelve h s → h.link = .console p →
    alarm? s i = some a → MayAct s h.op i .shelve a.defn.ackLevel p → a.defn.shelvable = true →
    a.dyn.lifecycle ≠ .outOfService → isSuppressed s i = false → a.dyn.shelved = true →
    (∃ e ∈ (s.lists.get (ownerOf s i)).shelf, e.alarm = i) →
    ∃ t effective, exec (.shelve h i duration) s = .next t ∧
      effective = (if duration < 60 then 60 else if a.defn.maxShelve < duration then a.defn.maxShelve else duration) ∧
      (∀ e ∈ (t.lists.get (ownerOf s i)).shelf, e.alarm = i → e = ⟨i, h.op, s.millTime, effective, effective⟩) ∧
      (∃ e ∈ (t.lists.get (ownerOf s i)).shelf, e.alarm = i) ∧
      (∀ e, e.alarm ≠ i → (e ∈ (t.lists.get (ownerOf s i)).shelf ↔ e ∈ (s.lists.get (ownerOf s i)).shelf)) ∧
      (t.lists.get (ownerOf s i)).ann = (s.lists.get (ownerOf s i)).ann ∧
      (t.lists.get (ownerOf s i)).deferred = (s.lists.get (ownerOf s i)).deferred ∧
      Replied .shelve h (doneWith (be8 3 ++ be16 effective ++ be8 (if duration = effective then 0 else 1))) s t ∧
      Journaled [⟨.shelved, some (ownerOf s i), some h.op, some i, effective⟩] s t ∧
      ItemsFollow (ownerOf s i) (itemsRenewed i effective) s t ∧
      Announced (atDesk (ownerOf s i) (itemNotices (ownerOf s i) (itemsRenewed i effective) s)) s t ∧
      (∀ q, q ≠ ownerOf s i → t.lists.get q = s.lists.get q) ∧ DesksKept s t ∧ LinesKept s t ∧
      Kept [.lists, .positions, .journal, .links] s t)

/-- R115, R117: a shelve ends by UNSHELVE or by the expiry of its timer (log 1). The entry leaves the shelf list and the
flag is cleared; a RAISED or RETURNED alarm that is not suppressed is placed now, with its weight; any other is not. R131,
R132, R134, R136: at an owner in REVIEW the items follow the FLOOD and PLACED reports, and the SHELF item is resolved; the
notices are those of the placement, HORN, LOAD and ITEM (said where the load state is sound). -/
def Obligations.AShelveEndsWithAPlacement : Prop :=
  (∀ (h : Header) (p : Pos) (i : Nat) (a : Alarm) (e : ShelfEntry) (s : State), Passes .unshelve h s → h.link = .console p →
    alarm? s i = some a → MayAct s h.op i .shelve a.defn.ackLevel p → a.dyn.shelved = true →
    (s.lists.get (ownerOf s i)).shelf.find? (fun x => x.alarm == i) = some e →
    ∃ t b placed, exec (.unshelve h i) s = .next t ∧ alarm? t i = some b ∧
      (placed = true ↔ (a.dyn.lifecycle = .raised ∨ a.dyn.lifecycle = .returned) ∧ isSuppressed s i = false) ∧
      b.settled = (a.defn, a.dyn.input, a.dyn.lifecycle, a.dyn.acknowledger, false) ∧
      (t.lists.get (ownerOf s i)).shelf = (s.lists.get (ownerOf s i)).shelf.filter (fun x => x.alarm != i) ∧
      Replied .unshelve h (doneWith (be16 i ++ be8 (lifecycleCode a.dyn.lifecycle) ++ beBool placed)) s t ∧
      JournaledFirst [⟨.unshelved, some (ownerOf s i), some h.op, some i, e.remaining⟩] s t ∧
      (placed = true → b.dyn.annTime = some s.millTime ∧ isListed t i = true ∧
        (t.loads.get (ownerOf s i)).load = min 65535 ((s.loads.get (ownerOf s i)).load + arrivalWeight a.defn.priority)) ∧
      (placed = false → t.loads = s.loads ∧ b.dyn.annTime = a.dyn.annTime) ∧
      (a.defn.Sound → ∃ wrapped, let q := ownerOf s i
        let work := ((itemsFlood q s t).andThen ((itemsPlaced wrapped a.defn.priority i).onlyIf placed)).andThen
          (itemResolved .shelf i)
        ItemsFollow q work s t ∧
        ((s.loads.get q).Sound → Announced (fun l =>
          atDesk q ((if placed then placementNotices q i s.millTime a.dyn.lifecycle s else []) ++ hornNotices q s t) l ++
          atBoth q (loadNotices q s t) l ++ atDesk q (itemNotices q work s) l) s t)) ∧
      OtherAlarmsSettled i s t ∧ DesksKept s t ∧ LinesKept s t ∧
      Kept [.alarms, .lists, .loads, .positions, .journal, .links, .free] s t) ∧
  (∀ (i : Nat) (a : Alarm) (e : ShelfEntry) (s : State), alarm? s i = some a →
    (s.lists.get (ownerOf s i)).shelf.find? (fun x => x.alarm == i) = some e → e.remaining = 0 →
    ∃ t b placed, exec (.shelfExpiry i) s = .next t ∧ alarm? t i = some b ∧
      (placed = true ↔ (a.dyn.lifecycle = .raised ∨ a.dyn.lifecycle = .returned) ∧ isSuppressed s i = false) ∧
      b.settled = (a.defn, a.dyn.input, a.dyn.lifecycle, a.dyn.acknowledger, false) ∧
      (t.lists.get (ownerOf s i)).shelf = (s.lists.get (ownerOf s i)).shelf.filter (fun x => x.alarm != i) ∧
      JournaledFirst [⟨.shelfExpired, some (ownerOf s i), none, some i, e.effective⟩] s t ∧
      (placed = true → b.dyn.annTime = some s.millTime ∧ isListed t i = true ∧
        (t.loads.get (ownerOf s i)).load = min 65535 ((s.loads.get (ownerOf s i)).load + arrivalWeight a.defn.priority)) ∧
      (placed = false → t.loads = s.loads ∧ b.dyn.annTime = a.dyn.annTime) ∧
      (a.defn.Sound → ∃ wrapped, let q := ownerOf s i
        let work := ((itemsFlood q s t).andThen ((itemsPlaced wrapped a.defn.priority i).onlyIf placed)).andThen
          (itemResolved .shelf i)
        ItemsFollow q work s t ∧
        ((s.loads.get q).Sound → Announced (fun l =>
          atDesk q ((if placed then placementNotices q i s.millTime a.dyn.lifecycle s else []) ++ hornNotices q s t) l ++
          atBoth q (loadNotices q s t) l ++ atDesk q (itemNotices q work s) l) s t)) ∧
      OtherAlarmsSettled i s t ∧ DesksKept s t ∧ LinesKept s t ∧ NoReply s t ∧
      Kept [.alarms, .lists, .loads, .positions, .journal, .links, .free] s t)

/-- R14, R118: LATCH_RESET takes a LATCHED alarm to NORMAL without acknowledger and with its reminder count at 0, and
writes its entry; no list and no load changes. R132, R133: at an owner in REVIEW the ARRIVAL item is resolved and the LATCHED
summary falls, with their notices. In any other lifecycle it is refused with BAD_STATE. -/
def Obligations.LatchResetClearsTheLatch : Prop :=
  (∀ (h : Header) (p : Pos) (i : Nat) (a : Alarm) (s : State), Passes .latchReset h s → h.link = .console p →
    alarm? s i = some a → MayAct s h.op i .latchReset (min a.defn.ackLevel 1) p → a.dyn.lifecycle = .latched →
    ∃ t, exec (.latchReset h i) s = .next t ∧
      alarm? t i = some { a with dyn := { a.dyn with lifecycle := .normal, acknowledger := none, reminders := 0 } } ∧
      Replied .latchReset h (doneWith (be16 i ++ be8 0)) s t ∧
      Journaled [⟨.latchReset, some (ownerOf s i), some h.op, some i, p.num⟩] s t ∧
      (let work := (itemResolved .arrival i).andThen (summaryFalls .latched)
       ItemsFollow (ownerOf s i) work s t ∧ Announced (atDesk (ownerOf s i) (itemNotices (ownerOf s i) work s)) s t) ∧
      (∀ j, j ≠ i → alarm? t j = alarm? s j) ∧ DesksKept s t ∧ LinesKept s t ∧
      Kept [.alarms, .positions, .journal, .links, .free] s t) ∧
  (∀ (h : Header) (p : Pos) (i : Nat) (a : Alarm) (s : State), Passes .latchReset h s → h.link = .console p →
    alarm? s i = some a → MayAct s h.op i .latchReset (min a.defn.ackLevel 1) p → a.dyn.lifecycle ≠ .latched →
    ∃ t, exec (.latchReset h i) s = .next t ∧ Replied .latchReset h (.refused .badState i) s t ∧ Kept [.links] s t)


/-! ### Operators, grants and access (chapter 4) -/

/-- R65: DEFINE_OPERATOR with present yes writes the record unlocked with no failures; with present no it removes the record
and ends every grant of the operator, with an entry for each. R68: OPERATOR_UNLOCK unlocks a record and clears its failures. -/
def Obligations.OperatorRecordsAreWrittenRemovedAndUnlocked : Prop :=
  (∀ (h : Header) (o level : Nat) (badge : Word) (s : State), Passes .defineOperator h s → 1 ≤ o → o ≤ 64 → level ≤ 3 →
    engagementOf s o = none →
    ∃ t, exec (.defineOperator h o 1 badge level) s = .next t ∧ operator? t o = some ⟨badge, level, false, 0, none⟩ ∧
      Replied .defineOperator h (doneWith (be8 o ++ be8 1)) s t ∧
      OtherOperatorsKept o s t ∧ LinesKept s t ∧ Kept [.operators, .links] s t) ∧
  (∀ (h : Header) (o level : Nat) (badge : Word) (s : State), Passes .defineOperator h s → (operator? s o).isSome = true →
    level ≤ 3 → engagementOf s o = none → s.grants.wf = true →
    ∃ t, exec (.defineOperator h o 0 badge level) s = .next t ∧ operator? t o = none ∧
      GrantsEnded (fun g => g.operator == o) s t ∧ Journaled (endedLines (fun g => g.operator == o) s) s t ∧
      Replied .defineOperator h (doneWith (be8 o ++ be8 0)) s t ∧
      OtherOperatorsKept o s t ∧ LinesKept s t ∧ Kept [.operators, .grants, .journal, .links] s t) ∧
  (∀ (h : Header) (o level : Nat) (badge : Word) (s : State), Passes .defineOperator h s → 1 ≤ o → o ≤ 64 → level ≤ 3 →
    operator? s o = none →
    ∃ t, exec (.defineOperator h o 0 badge level) s = .next t ∧ Replied .defineOperator h (doneWith (be8 o ++ be8 0)) s t ∧
      LinesKept s t ∧ Kept [.links] s t) ∧
  (∀ (h : Header) (o : Nat) (r : Operator) (s : State), Passes .operatorUnlock h s → Supervises s h.op →
    operator? s o = some r →
    ∃ t, exec (.operatorUnlock h o) s = .next t ∧ operator? t o = some { r with locked := false, failures := 0 } ∧
      Replied .operatorUnlock h (doneWith (be8 (if r.locked then 1 else 255))) s t ∧
      OtherOperatorsKept o s t ∧ LinesKept s t ∧ Kept [.operators, .links] s t)

/-- R69, R70, R73: DEFINE_GRANT writes a permanent grant, and GRANT_TEMPORARY a temporary one bound to the position where
its operator is engaged, into the lowest-numbered empty slot, with a GRANT_ISSUED entry. -/
def Obligations.AGrantTakesTheLowestEmptySlot : Prop :=
  (∀ (h : Header) (g : Grant) (n : Nat) (s : State), Passes .defineGrant h s → (operator? s g.operator).isSome = true →
    g.temporary = false → (∀ a, g.scope = some a → a < 16) → (∀ e ∈ s.grants, e.2 ≠ g) →
    n < 256 → s.grants.get? n = none → (∀ m, m < n → s.grants.get? m ≠ none) →
    ∃ t, exec (.defineGrant h g.operator (grantKindCode g.kind) (scopeCode g.scope) (bindingCode g.binding)) s = .next t ∧
      t.grants.get? n = some g ∧ OtherSlotsKept n s t ∧ Journaled [grantLine .grantIssued n g] s t ∧
      Replied .defineGrant h (doneWith (be8 n)) s t ∧ LinesKept s t ∧ Kept [.grants, .journal, .links] s t) ∧
  (∀ (h : Header) (g : Grant) (q : Pos) (role : Role) (n : Nat) (s : State), Passes .grantTemporary h s → Supervises s h.op →
    engagementOf s g.operator = some (q, role) → g.kind ≠ .supervise → g.temporary = true → g.binding = some q →
    (∀ a, g.scope = some a → a < 16) → (∀ e ∈ s.grants, e.2 ≠ g) →
    n < 256 → s.grants.get? n = none → (∀ m, m < n → s.grants.get? m ≠ none) →
    ∃ t, exec (.grantTemporary h g.operator (grantKindCode g.kind) (scopeCode g.scope)) s = .next t ∧
      t.grants.get? n = some g ∧ OtherSlotsKept n s t ∧ Journaled [grantLine .grantIssued n g] s t ∧
      Replied .grantTemporary h (doneWith (be8 n ++ be8 q.num)) s t ∧ LinesKept s t ∧ Kept [.grants, .journal, .links] s t)

/-- R72, R74: REVOKE_GRANT empties the slot of a grant, and GRANT_END the slot of a temporary one, with a GRANT_ENDED entry,
where the grant is not in use: its operator, if it is an OPERATE grant and the operator holds a position, covers the
position without it. Otherwise the refusal is GRANT_IN_USE with the lowest area that would be left uncovered. -/
def Obligations.AGrantEndsUnlessItIsInUse : Prop :=
  (∀ (h : Header) (n : Nat) (g : Grant) (s : State), Passes .revokeGrant h s → n < 256 → s.grants.get? n = some g →
    (g.kind = .operate → ∀ a, a < 16 → (s.positions.get (areaOwner s a)).state ≠ .vacant →
      (s.positions.get (areaOwner s a)).holder = some g.operator →
      holdsFor (s.grants.erase n) g.operator .operate a (areaOwner s a) = true) →
    ∃ t, exec (.revokeGrant h n) s = .next t ∧ t.grants.get? n = none ∧ OtherSlotsKept n s t ∧
      Journaled [grantLine .grantEnded n g] s t ∧ Replied .revokeGrant h (doneWith (be16 n ++ grantFields g)) s t ∧
      LinesKept s t ∧ Kept [.grants, .journal, .links] s t) ∧
  (∀ (h : Header) (n : Nat) (g : Grant) (s : State), Passes .grantEnd h s → Supervises s h.op → n < 256 →
    s.grants.get? n = some g → g.temporary = true →
    (g.kind = .operate → ∀ a, a < 16 → (s.positions.get (areaOwner s a)).state ≠ .vacant →
      (s.positions.get (areaOwner s a)).holder = some g.operator →
      holdsFor (s.grants.erase n) g.operator .operate a (areaOwner s a) = true) →
    ∃ t, exec (.grantEnd h n) s = .next t ∧ t.grants.get? n = none ∧ OtherSlotsKept n s t ∧
      Journaled [grantLine .grantEnded n g] s t ∧ Replied .grantEnd h (.done [] false) s t ∧
      LinesKept s t ∧ Kept [.grants, .journal, .links] s t) ∧
  (∀ (h : Header) (n a : Nat) (p : Pos) (g : Grant) (s : State), Passes .revokeGrant h s → n < 256 →
    s.grants.get? n = some g → g.kind = .operate →
    (s.positions.get p).state ≠ .vacant → (s.positions.get p).holder = some g.operator →
    (∀ q, q ≠ p → (s.positions.get q).holder ≠ some g.operator) →
    a < 16 → areaOwner s a = p → holdsFor (s.grants.erase n) g.operator .operate a p = false →
    (∀ b, b < a → areaOwner s b = p → holdsFor (s.grants.erase n) g.operator .operate b p = true) →
    ∃ t, exec (.revokeGrant h n) s = .next t ∧ Replied .revokeGrant h (.refused .grantInUse a) s t ∧
      LinesKept s t ∧ Kept [.links] s t) ∧
  (∀ (h : Header) (n a : Nat) (p : Pos) (g : Grant) (s : State), Passes .grantEnd h s → Supervises s h.op → n < 256 →
    s.grants.get? n = some g → g.temporary = true → g.kind = .operate →
    (s.positions.get p).state ≠ .vacant → (s.positions.get p).holder = some g.operator →
    (∀ q, q ≠ p → (s.positions.get q).holder ≠ some g.operator) →
    a < 16 → areaOwner s a = p → holdsFor (s.grants.erase n) g.operator .operate a p = false →
    (∀ b, b < a → areaOwner s b = p → holdsFor (s.grants.erase n) g.operator .operate b p = true) →
    ∃ t, exec (.grantEnd h n) s = .next t ∧ Replied .grantEnd h (.refused .grantInUse a) s t ∧
      LinesKept s t ∧ Kept [.links] s t)

/-- R77 to R82, R85: the access check of ACK, in its order: the operator is defined, holds the position, owns the area (or
supervises it at P0), has the grant, and is of a level within the ack level; the first failure gives the refusal, and
NO_GRANT and LEVEL an ACCESS_REFUSED entry. R67: a wrong badge code at SIGN_ON counts a failure, the third locks the
operator, and a locked operator is refused; each writes its entry. -/
def Obligations.AccessChecksRefuseInOrder : Prop :=
  (∀ (h : Header) (p : Pos) (i : Nat) (a : Alarm) (s : State), Passes .ack h s → h.link = .console p → i ≤ 2047 →
    alarm? s i = some a →
    (operator? s h.op = none → ∃ t, exec (.ack h i) s = .next t ∧ Replied .ack h (.refused .unknownOperator h.op) s t ∧
      Kept [.links] s t) ∧
    ((operator? s h.op).isSome = true → ¬Holds s h.op p → ∃ t, exec (.ack h i) s = .next t ∧
      Replied .ack h (.refused .notHolder h.op) s t ∧ Kept [.links] s t) ∧
    (Holds s h.op p → ownerOf s i ≠ p → ¬(p = .p0 ∧ holdsFor s.grants h.op .supervise a.defn.area .p0 = true) →
      ∃ t, exec (.ack h i) s = .next t ∧ Replied .ack h (.refused .areaNotOwned a.defn.area) s t ∧ Kept [.links] s t) ∧
    (Holds s h.op p → ownerOf s i = p ∨ (p = .p0 ∧ holdsFor s.grants h.op .supervise a.defn.area .p0 = true) →
      holdsFor s.grants h.op .operate a.defn.area p = false →
      ∃ t, exec (.ack h i) s = .next t ∧ Replied .ack h (.refused .noGrant a.defn.area) s t ∧
        Journaled [⟨.accessRefused, some p, some h.op, some i, 3 * 256 + 32⟩] s t ∧ Kept [.journal, .links] s t) ∧
    (Holds s h.op p → ownerOf s i = p ∨ (p = .p0 ∧ holdsFor s.grants h.op .supervise a.defn.area .p0 = true) →
      holdsFor s.grants h.op .operate a.defn.area p = true → a.defn.ackLevel < levelOf s h.op →
      ∃ t, exec (.ack h i) s = .next t ∧ Replied .ack h (.refused .level i) s t ∧
        Journaled [⟨.accessRefused, some p, some h.op, some i, 4 * 256 + 32⟩] s t ∧ Kept [.journal, .links] s t)) ∧
  (∀ (h : Header) (p : Pos) (badge : Word) (r : Operator) (s : State), Passes .signOn h s → h.link = .console p →
    (s.positions.get p).state = .vacant → operator? s h.op = some r → r.locked = true ∨ r.badge ≠ badge →
    ∃ t, exec (.signOn h badge) s = .next t ∧ OtherOperatorsKept h.op s t ∧ LinesKept s t ∧
      Kept [.operators, .journal, .links] s t ∧
      (r.locked = true → Replied .signOn h (.refused .locked h.op) s t ∧ t.operators = s.operators ∧
        Journaled [⟨.accessRefused, some p, some h.op, none, 2 * 256 + 41⟩] s t) ∧
      (r.locked = false → r.failures < 2 → Replied .signOn h (.refused .badge (r.failures + 1)) s t ∧
        operator? t h.op = some { r with failures := r.failures + 1 } ∧
        Journaled [⟨.accessRefused, some p, some h.op, none, 256 + 41⟩] s t) ∧
      (r.locked = false → 2 ≤ r.failures → Replied .signOn h (.refused .badge 3) s t ∧
        operator? t h.op = some { r with locked := true, failures := 0 } ∧
        Journaled [⟨.accessRefused, some p, some h.op, none, 256 + 41 + 32768⟩] s t))

/-! ### Positions, areas, bypasses and notes (chapter 5) -/

/-- R91, R49, R56: DEFINE_POSITION stores the configuration of a position, each value within its range and X below the E
just stored, answers with the stored values, and evaluates flood mode; the load and what the desk holds stand. -/
def Obligations.DefinePositionStoresTheConfiguration : Prop :=
  ∀ (h : Header) (p : Pos) (f : PositionFields) (s : State), Passes .definePosition h s → f.position = p.num →
    ∃ t, exec (.definePosition h f) s = .next t ∧
      (let c := s.positions.get p
       { t.positions.get p with items := [] } =
        { c with staffing := min 3 f.staffing, offerTimeout := max 30 (min 900 f.offer),
                 reviewTimeout := max 60 (min 1800 f.review), reliefLimit := max 300 (min 7200 f.relief),
                 holdTime := max 2 (min 60 f.hold), items := [] }) ∧
      (let d := s.loads.get p; let e := t.loads.get p
        e.load = d.load ∧ e.limit = d.limit ∧ e.decay = d.decay ∧ e.k = max 1 (min 255 f.k) ∧
        e.e = max 1 (min 65535 f.e) ∧ e.x = (if f.x < e.e then f.x else e.e - 1) ∧ e.h = max 1 (min 65535 f.h) ∧
        (e.flood = if d.flood then decide (e.x < d.load) else decide (e.e ≤ d.load)) ∧
        (e.flood = d.flood → t.journal = s.journal ∧ t.lists = s.lists ∧ t.alarms = s.alarms ∧
          (t.positions.get p).items = (s.positions.get p).items) ∧
        (d.flood = false → e.flood = true → Journaled [⟨.floodEntered, some p, none, none, d.load⟩] s t) ∧
        (d.flood = true → e.flood = false → Journaled [⟨.floodLeft, some p, none, none, d.load⟩] s t)) ∧
      Replied .definePosition h (doneWith (positionMarks t p f)) s t ∧
      (∀ q, q ≠ p → t.positions.get q = s.positions.get q ∧ t.loads.get q = s.loads.get q ∧ t.lists.get q = s.lists.get q) ∧
      (∀ i, (alarm? t i).map Alarm.settled = (alarm? s i).map Alarm.settled) ∧ LinesKept s t ∧
      Kept [.positions, .loads, .lists, .alarms, .journal, .links] s t

/-- R93, R94: SIGN_ON makes an operator the holder of a VACANT position, engaged there, and SIGN_OFF makes a STAFFED
position VACANT again and releases its holder, whose temporary grants bound there end (R75). Each writes its entry. -/
def Obligations.SignOnAndSignOffTakeAndLeaveTheDesk : Prop :=
  (∀ (h : Header) (p : Pos) (badge : Word) (r : Operator) (s : State), Passes .signOn h s → h.link = .console p →
    (s.positions.get p).state = .vacant → BadgePasses s h.op badge → MayTakeDesk s h.op p → operator? s h.op = some r →
    ∃ t, exec (.signOn h badge) s = .next t ∧
      t.positions.get p = { s.positions.get p with holder := some h.op, state := .staffed } ∧
      operator? t h.op = some { r with failures := 0, engagement := some (p, .holder) } ∧
      Replied .signOn h (doneWith (bePos p ++ be16 (areaSet (ownedAreas s p)) ++ be16 (s.lists.get p).ann.length ++
        be16 (s.positions.get p).notes.length)) s t ∧
      Journaled [⟨.signOn, some p, some h.op, none, r.level⟩] s t ∧
      OtherDesksKept p s t ∧ OtherOperatorsKept h.op s t ∧ LinesKept s t ∧
      Kept [.positions, .operators, .journal, .links] s t) ∧
  (∀ (h : Header) (p : Pos) (s : State), Passes .signOff h s → h.link = .console p → Holds s h.op p →
    (s.positions.get p).holder = some h.op → (s.positions.get p).state = .staffed → (s.positions.get p).relief = [] →
    (∀ a, a < 16 → areaOwner s a ≠ p) → s.grants.wf = true →
    ∃ t, exec (.signOff h) s = .next t ∧ t.positions.get p = { s.positions.get p with holder := none, state := .vacant } ∧
      engagementOf t h.op = none ∧ GrantsEnded (boundTemporary h.op p) s t ∧
      Replied .signOff h (doneWith (bePos p)) s t ∧
      Journaled (endedLines (boundTemporary h.op p) s ++ [⟨.signOff, some p, some h.op, none, 0⟩]) s t ∧
      OtherDesksKept p s t ∧ OtherOperatorsKept h.op s t ∧ LinesKept s t ∧
      Kept [.positions, .operators, .grants, .journal, .links] s t)

/-- R96 to R98, R37: AREA_TRANSFER gives the area to the target and moves its shelf entries and its listed alarms there,
each with the annunciation time it held; nothing is weighted, no alarm changes its lifecycle, and one entry is written. -/
def Obligations.AreaTransferMovesTheArea : Prop :=
  ∀ (h : Header) (a holder : Nat) (source target : Pos) (s : State), Passes .areaTransfer h s → CapacityInv s →
    a ≤ 15 → Holds s h.op .p0 → holdsFor s.grants h.op .supervise a .p0 = true → areaOwner s a = source → target ≠ source →
    (s.positions.get source).state ≠ .offered → (s.positions.get source).state ≠ .review →
    (s.positions.get target).state = .staffed → (s.positions.get target).holder = some holder →
    holdsFor s.grants holder .operate a target = true →
    (s.lists.get target).shelf.length +
      (s.lists.get source).shelf.countP (fun e => (alarmAt s e.alarm).defn.area == a) ≤ 32 →
    ∃ t, exec (.areaTransfer h a target.num) s = .next t ∧
      areaOwner t a = target ∧ (∀ b, b ≠ a → areaOwner t b = areaOwner s b) ∧
      (t.lists.get source).shelf = (s.lists.get source).shelf.filter (fun e => (alarmAt s e.alarm).defn.area != a) ∧
      (∀ e, e ∈ (t.lists.get target).shelf ↔ e ∈ (s.lists.get target).shelf ∨
        (e ∈ (s.lists.get source).shelf ∧ (alarmAt s e.alarm).defn.area = a)) ∧
      (∀ i x time, alarm? s i = some x → x.defn.area = a → isListed s i = true → x.dyn.annTime = some time →
        isListed t i = true ∧ (alarmAt t i).dyn.annTime = some time) ∧
      (∀ i, (alarm? t i).map Alarm.settled = (alarm? s i).map Alarm.settled) ∧
      Replied .areaTransfer h (doneWith (bePos source ++ bePos target ++
        be16 (s.alarms.countP fun e => e.2.defn.area == a && isListed s e.1) ++
        be16 ((s.lists.get source).shelf.countP fun e => (alarmAt s e.alarm).defn.area == a))) s t ∧
      Journaled [⟨.areaTransferred, some target, some h.op, some a, source.num⟩] s t ∧
      (∀ q, q ≠ source → q ≠ target → t.lists.get q = s.lists.get q) ∧ LinesKept s t ∧
      Kept [.areas, .lists, .alarms, .journal, .links] s t

/-- R100 to R102, R134: BYPASS_DECLARE writes the register's lowest empty slot with the duration within 300 to 86400 s, and
opens an item at an owner in REVIEW; BYPASS_END empties the slot, and its entry tells whether the bypass was overdue; a due
timer that has expired (log 1) marks the entry overdue. Each writes its entry. R137, R101: an item sends its ITEM notice, and a
due expiry sends BYPASS_DUE to the owning console and to P0's. -/
def Obligations.BypassesAreDeclaredEndedAndFallDue : Prop :=
  (∀ (h : Header) (p : Pos) (a interlock duration n : Nat) (s : State), Passes .bypassDeclare h s → h.link = .console p →
    a ≤ 15 → 1 ≤ interlock → interlock ≤ 999 → Holds s h.op p →
    areaOwner s a = p ∨ (p = .p0 ∧ holdsFor s.grants h.op .supervise a .p0 = true) →
    holdsFor s.grants h.op .bypass a p = true → (∀ e ∈ s.bypasses, ¬(e.2.area = a ∧ e.2.interlock = interlock)) →
    n < 16 → s.bypasses.get? n = none → (∀ m, m < n → s.bypasses.get? m ≠ none) → HasRoom s (areaOwner s a) →
    ∃ t stored, exec (.bypassDeclare h a interlock duration) s = .next t ∧ stored = max 300 (min 86400 duration) ∧
      t.bypasses.get? n = some ⟨a, interlock, h.op, s.millTime, stored, stored, false⟩ ∧
      (∀ m, m ≠ n → t.bypasses.get? m = s.bypasses.get? m) ∧
      (t.positions.get (areaOwner s a)).items = (s.positions.get (areaOwner s a)).items ++
        (if (s.positions.get (areaOwner s a)).state = .review then
          [⟨(s.positions.get (areaOwner s a)).items.length, .bypass, n, interlock, false, false, true⟩] else []) ∧
      Announced (atDesk (areaOwner s a) (itemNotices (areaOwner s a)
        (fun items => [appendedItem items .bypass n interlock]) s)) s t ∧
      Replied .bypassDeclare h (doneWith (be8 n ++ be32 stored ++ be8 (if duration = stored then 0 else 1))) s t ∧
      Journaled [⟨.bypassDeclared, some (areaOwner s a), some h.op, some a, interlock⟩] s t ∧
      OtherDesksKept (areaOwner s a) s t ∧ DesksKept s t ∧ LinesKept s t ∧
      Kept [.bypasses, .positions, .journal, .links] s t) ∧
  (∀ (h : Header) (p : Pos) (a interlock n : Nat) (b : Bypass) (s : State), Passes .bypassEnd h s → h.link = .console p →
    a ≤ 15 → 1 ≤ interlock → interlock ≤ 999 → Holds s h.op p →
    areaOwner s a = p ∨ (p = .p0 ∧ holdsFor s.grants h.op .supervise a .p0 = true) →
    holdsFor s.grants h.op .bypass a p = true →
    s.bypasses.find? (fun e => e.2.area == a && e.2.interlock == interlock) = some (n, b) →
    ∃ t, exec (.bypassEnd h a interlock) s = .next t ∧ t.bypasses.get? n = none ∧
      (∀ m, m ≠ n → t.bypasses.get? m = s.bypasses.get? m) ∧
      ((s.positions.get (areaOwner s a)).state ≠ .review → t.positions = s.positions) ∧
      (∀ it, Numbered (s.positions.get (areaOwner s a)).items → (s.positions.get (areaOwner s a)).state = .review →
        (s.positions.get (areaOwner s a)).items.find? (fun x => x.kind == .bypass && x.subject == n && !x.resolved) = some it →
        { it with resolved := true } ∈ (t.positions.get (areaOwner s a)).items) ∧
      ItemsFollow (areaOwner s a) (itemResolved .bypass n) s t ∧
      Announced (atDesk (areaOwner s a) (itemNotices (areaOwner s a) (itemResolved .bypass n) s)) s t ∧
      Replied .bypassEnd h (doneWith (be8 a ++ be16 interlock ++ be8 b.operator ++ beWord b.declared ++ be32 b.duration ++
        be32 b.due ++ beBool b.overdue)) s t ∧
      Journaled [⟨.bypassEnded, some (areaOwner s a), some h.op, some a, interlock + if b.overdue then 32768 else 0⟩] s t ∧
      DesksKept s t ∧ LinesKept s t ∧ Kept [.bypasses, .positions, .journal, .links] s t) ∧
  (∀ (n : Nat) (b : Bypass) (s : State), s.bypasses.get? n = some b → b.due = 0 → b.overdue = false →
    ∃ t, exec (.dueExpiry n) s = .next t ∧ t.bypasses.get? n = some { b with overdue := true } ∧
      (∀ m, m ≠ n → t.bypasses.get? m = s.bypasses.get? m) ∧
      Journaled [⟨.bypassDue, some (areaOwner s b.area), none, some b.area, b.interlock⟩] s t ∧
      Announced (atBoth (areaOwner s b.area)
        [.bypassDue n b.area b.interlock b.operator b.declared b.duration]) s t ∧
      NoReply s t ∧ LinesKept s t ∧ Kept [.bypasses, .journal, .links] s t)

/-- R104, R135: NOTE_ADD appends a note of printable characters to the holder's position, and an item where the position is
in REVIEW with its ITEM notice (R137); it answers with the note's place and writes its entry. -/
def Obligations.ANoteIsRetained : Prop :=
  ∀ (h : Header) (p : Pos) (code : Nat) (text : List Byte) (s : State), Passes .noteAdd h s → h.link = .console p →
    text.length ≤ 48 → 3 + text.length ≤ h.len → (∀ b ∈ text, 32 ≤ b.toNat ∧ b.toNat ≤ 126) → Holds s h.op p →
    (s.positions.get p).notes.length < 8 → HasRoom s p →
    ∃ t, exec (.noteAdd h code text.length text) s = .next t ∧
      (let c := s.positions.get p
       t.positions.get p = { c with
         notes := c.notes ++ [⟨code, text⟩],
         items := c.items ++ if c.state = .review then [⟨c.items.length, .note, c.notes.length, code, false, false, true⟩] else [] }) ∧
      Announced (atDesk p (itemNotices p (fun items => [appendedItem items .note (s.positions.get p).notes.length code]) s)) s t ∧
      Replied .noteAdd h (doneWith (be8 (s.positions.get p).notes.length)) s t ∧
      Journaled [⟨.noteAdded, some p, some h.op, none, code⟩] s t ∧
      OtherDesksKept p s t ∧ LinesKept s t ∧ Kept [.positions, .journal, .links] s t

/-! ### Shift handover (chapter 7) -/

/-- R124, R126, R127, R130: HANDOVER_OFFER names an incoming at a STAFFED position and starts the offer timer; HANDOVER_TAKE
by the named operator engages that operator, starts the review timer and builds the items: the summary items of priorities 1
to 4, the latched and the flood item, the bypasses, the shelf entries and the notes, in that order, numbered from 0, open
and not marked as arrived. Each writes its entry and sends HANDOVER to the position's console and to P0's (R121; the fields that
the rule leaves open are those of log 12). -/
def Obligations.AnOfferAndATakeOpenTheReview : Prop :=
  (∀ (h : Header) (p : Pos) (incoming : Nat) (s : State), Passes .handoverOffer h s → h.link = .console p →
    Holds s h.op p → (s.positions.get p).state = .staffed → (s.positions.get p).relief = [] →
    (operator? s incoming).isSome = true → engagementOf s incoming = none →
    ∃ t, exec (.handoverOffer h incoming) s = .next t ∧
      (let c := s.positions.get p
       t.positions.get p = { c with incoming := some incoming, state := .offered, timer := some c.offerTimeout }) ∧
      Replied .handoverOffer h (doneWith (bePos p ++ be8 incoming ++ be16 (s.positions.get p).offerTimeout)) s t ∧
      Journaled [⟨.handoverOffered, some p, (s.positions.get p).holder, none, incoming⟩] s t ∧
      Announced (atBoth p [.handover p .offered (s.positions.get p).holder (some incoming) 0 none]) s t ∧
      OtherDesksKept p s t ∧ LinesKept s t ∧ Kept [.positions, .journal, .links] s t) ∧
  (∀ (h : Header) (p : Pos) (badge : Word) (r : Operator) (s : State), Passes .handoverTake h s → h.link = .console p →
    (s.positions.get p).state = .offered → BadgePasses s h.op badge → operator? s h.op = some r →
    (s.positions.get p).incoming = some h.op → r.engagement = none → r.level ≤ (s.positions.get p).staffing →
    ∃ t items, exec (.handoverTake h badge) s = .next t ∧
      (let c := s.positions.get p
       t.positions.get p = { c with state := .review, items := items, timer := some c.reviewTimeout }) ∧
      Numbered items ∧ (∀ it ∈ items, it.isOpen = true ∧ it.arrived = false) ∧
      items.map (fun it => (it.kind, it.subject, it.count)) =
        ([1, 2, 3, 4].map fun n => (ItemKind.unack n, n, unackCount s p n)).filter (fun x => x.2.2 != 0) ++
        (if latchedCount s p = 0 then [] else [(ItemKind.latched, p.num, latchedCount s p)]) ++
        (if (s.loads.get p).flood then [(ItemKind.flood, p.num, (s.loads.get p).load)] else []) ++
        ((s.bypasses.filter fun e => areaOwner s e.2.area == p).map fun e => (ItemKind.bypass, e.1, e.2.interlock)) ++
        ((s.lists.get p).shelf.map fun e => (ItemKind.shelf, e.alarm, e.effective)) ++
        ((s.positions.get p).notes.zipIdx.map fun x => (ItemKind.note, x.2, x.1.code)) ∧
      operator? t h.op = some { r with failures := 0, engagement := some (p, .incoming) } ∧
      Replied .handoverTake h (doneWith (bePos p ++ beOperator (s.positions.get p).holder ++ be16 items.length ++
        be16 (s.positions.get p).reviewTimeout)) s t ∧
      Journaled [⟨.handoverTaken, some p, some h.op, none, items.length⟩] s t ∧
      Announced (atBoth p [.handover p .taken (s.positions.get p).holder (some h.op) items.length none]) s t ∧
      OtherDesksKept p s t ∧ OtherOperatorsKept h.op s t ∧ LinesKept s t ∧
      Kept [.positions, .operators, .journal, .links] s t)

/-- R139: ITEM_CONFIRM by the incoming sets the confirmed flag of the named items that are open. R140, R141: HANDOVER_ACCEPT,
with no item open, coverage, and a load that allows it, makes the incoming the holder, clears notes and items, releases the
outgoing with the temporary grants bound there, writes its entry and sends its HANDOVER notices (R121; their open fields are
those of log 12); with an item open it is refused. -/
def Obligations.ConfirmedItemsAllowTheAcceptance : Prop :=
  (∀ (h : Header) (p : Pos) (numbers : List Nat) (s : State), Passes .itemConfirm h s → h.link = .console p →
    1 ≤ numbers.length → numbers.length ≤ 16 → 2 + numbers.length ≤ h.len → engagementOf s h.op = some (p, .incoming) →
    (∀ n ∈ numbers, n < (s.positions.get p).items.length) →
    ∃ t items, exec (.itemConfirm h numbers.length numbers) s = .next t ∧
      t.positions.get p = { s.positions.get p with items := items } ∧
      items = (s.positions.get p).items.map (fun it =>
        if it.number ∈ numbers ∧ it.isOpen = true then { it with confirmed := true } else it) ∧
      Replied .itemConfirm h (doneWith (be16 ((s.positions.get p).items.countP fun it =>
          it.isOpen && numbers.contains it.number) ++ be16 (items.countP Item.isOpen) ++
        be8Opt ((items.find? Item.isOpen).map (·.number)))) s t ∧
      OtherDesksKept p s t ∧ LinesKept s t ∧ Kept [.positions, .links] s t) ∧
  (∀ (h : Header) (p : Pos) (outgoing : Nat) (r : Operator) (s : State), Passes .handoverAccept h s → h.link = .console p →
    operator? s h.op = some r → r.engagement = some (p, .incoming) → (∀ it ∈ (s.positions.get p).items, it.isOpen = false) →
    (∀ a, a < 16 → areaOwner s a = p → holdsFor s.grants h.op .operate a p = true) → LoadAllows s h.op p →
    (s.positions.get p).holder = some outgoing → Holds s outgoing p → s.grants.wf = true →
    ∃ t, exec (.handoverAccept h) s = .next t ∧
      t.positions.get p = { s.positions.get p with
        state := .staffed, holder := some h.op, incoming := none, notes := [], items := [], timer := none } ∧
      operator? t h.op = some { r with engagement := some (p, .holder) } ∧ engagementOf t outgoing = none ∧
      GrantsEnded (boundTemporary outgoing p) s t ∧
      Replied .handoverAccept h (doneWith (bePos p ++ be8 h.op ++ be8 outgoing ++
        be16 (s.positions.get p).items.length)) s t ∧
      Journaled (endedLines (boundTemporary outgoing p) s ++
        [⟨.handoverAccepted, some p, some h.op, none, (s.positions.get p).items.length⟩]) s t ∧
      Announced (atBoth p [.handover p .accepted (some h.op) none (s.positions.get p).items.length none]) s t ∧
      (∀ o, o ≠ h.op → o ≠ outgoing → t.operators.get? o = s.operators.get? o) ∧
      OtherDesksKept p s t ∧ LinesKept s t ∧ Kept [.positions, .operators, .grants, .journal, .links] s t) ∧
  (∀ (h : Header) (p : Pos) (it : Item) (s : State), Passes .handoverAccept h s → h.link = .console p →
    engagementOf s h.op = some (p, .incoming) → (s.positions.get p).items.find? Item.isOpen = some it →
    ∃ t, exec (.handoverAccept h) s = .next t ∧ Replied .handoverAccept h (.refused .itemsOpen it.number) s t ∧
      Kept [.links] s t)

/-- R122, R125, R142 to R144: a handover ends without acceptance by HANDOVER_WITHDRAW of either party, by HANDOVER_CANCEL of
the supervisor, or by the expiry of its offer or review timer (log 1): the position is STAFFED by its holder, the items and
the incoming's engagement and bound temporary grants are gone, the entry carries the ender, the reason and the phase, and the
HANDOVER notices go out (R121; their open fields are those of log 12). -/
def Obligations.AHandoverEndsWithoutAcceptance : Prop :=
  ∀ (p : Pos) (incoming : Nat) (s : State), (s.positions.get p).incoming = some incoming → s.grants.wf = true →
    (s.positions.get p).state = .offered ∨
      ((s.positions.get p).state = .review ∧ engagementOf s incoming = some (p, .incoming)) →
    (∀ h : Header, Passes .handoverWithdraw h s → h.link = .console p →
      Holds s h.op p ∨ engagementOf s h.op = some (p, .incoming) →
      ∃ t, exec (.handoverWithdraw h) s = .next t ∧ HandoverGone p incoming .withdrawn (some h.op) s t ∧
        Replied .handoverWithdraw h (doneWith (bePos p ++ be8 (if (s.positions.get p).state = .review then 1 else 0))) s t) ∧
    (∀ h : Header, Passes .handoverCancel h s → Supervises s h.op →
      ∃ t, exec (.handoverCancel h p.num) s = .next t ∧ HandoverGone p incoming .cancelled (some h.op) s t ∧
        Replied .handoverCancel h (doneWith (bePos p ++ be8 (if (s.positions.get p).state = .review then 1 else 0))) s t) ∧
    ((s.positions.get p).timer = some 0 → (s.positions.get p).state = .offered →
      ∃ t, exec (.offerTimeout p) s = .next t ∧ HandoverGone p incoming .timeout none s t ∧ NoReply s t) ∧
    ((s.positions.get p).timer = some 0 → (s.positions.get p).state = .review →
      ∃ t, exec (.reviewTimeout p) s = .next t ∧ HandoverGone p incoming .timeout none s t ∧ NoReply s t)

/-! ### Relief cover (chapter 8) -/

/-- R148, R149: RELIEF_TAKE pushes a frame for the holder, who is stacked, and makes the acting operator the holder. R151:
RELIEF_RETURN by a stacked operator takes that frame and those above off, releases the holder and the operators above, each
with an entry, and makes the returning operator the holder again. R75: the temporary grants of each released operator bound
to the position end, their entries before that operator's own (said where each of them is engaged there, and where no grant
is temporary). -/
def Obligations.ReliefIsTakenAndReturned : Prop :=
  (∀ (h : Header) (p : Pos) (badge : Word) (former : Nat) (r f : Operator) (s : State), Passes .reliefTake h s →
    h.link = .console p → (s.positions.get p).state = .staffed → BadgePasses s h.op badge → MayTakeDesk s h.op p →
    (s.positions.get p).relief.length < 2 → LoadAllows s h.op p →
    (s.positions.get p).holder = some former → former ≠ h.op → operator? s h.op = some r → operator? s former = some f →
    ∃ t, exec (.reliefTake h badge) s = .next t ∧
      (let c := s.positions.get p
       t.positions.get p = { c with
         holder := some h.op, relief := c.relief ++ [⟨former, s.millTime, c.reliefLimit, false⟩] }) ∧
      operator? t h.op = some { r with failures := 0, engagement := some (p, .holder) } ∧
      operator? t former = some { f with engagement := some (p, .stacked) } ∧
      Replied .reliefTake h (doneWith (bePos p ++ be8 (s.positions.get p).relief.length ++ be8 former ++
        be16 (s.positions.get p).reliefLimit)) s t ∧
      Journaled [⟨.reliefTaken, some p, some h.op, none, former⟩] s t ∧
      (∀ o, o ≠ h.op → o ≠ former → t.operators.get? o = s.operators.get? o) ∧
      OtherDesksKept p s t ∧ LinesKept s t ∧ Kept [.positions, .operators, .journal, .links] s t) ∧
  (∀ (h : Header) (p : Pos) (badge : Word) (holder n : Nat) (frame : ReliefFrame) (s : State),
    Passes .reliefReturn h s → h.link = .console p → BadgePasses s h.op badge →
    (s.positions.get p).relief[n]? = some frame → frame.operator = h.op →
    (∀ m x, m < n → (s.positions.get p).relief[m]? = some x → x.operator ≠ h.op) →
    uncovered? s s.grants h.op p = none → levelOf s h.op ≤ (s.positions.get p).staffing →
    (s.positions.get p).holder = some holder → s.grants.wf = true →
    ∃ t released, exec (.reliefReturn h badge) s = .next t ∧
      released = holder :: ((s.positions.get p).relief.drop (n + 1)).reverse.map (·.operator) ∧
      (let c := s.positions.get p
       t.positions.get p = { c with holder := some h.op, relief := c.relief.take n }) ∧
      engagementOf t h.op = some (p, .holder) ∧ (∀ o ∈ released, o ≠ h.op → engagementOf t o = none) ∧
      (∀ o, o ≠ h.op → o ∉ released → t.operators.get? o = s.operators.get? o) ∧
      (∀ m g, t.grants.get? m = some g → s.grants.get? m = some g) ∧
      (∀ m g, s.grants.get? m = some g → g.temporary = false ∨ g.operator ∉ released → t.grants.get? m = some g) ∧
      Replied .reliefReturn h (doneWith (bePos p ++ be8 h.op ++ be16 released.length ++ be16 n)) s t ∧
      ((∀ e ∈ s.grants, e.2.temporary = false) →
        Journaled (released.map fun o =>
          ⟨.reliefReturned, some p, some o, none, h.op + if frame.overdue then 32768 else 0⟩) s t) ∧
      (released.Nodup → (∀ o ∈ released, ∃ role, engagementOf s o = some (p, role)) →
        GrantsEnded (fun g => released.any fun o => boundTemporary o p g) s t ∧
        Journaled (released.flatMap fun o => endedLines (boundTemporary o p) s ++
          [⟨.reliefReturned, some p, some o, none, h.op + if frame.overdue then 32768 else 0⟩]) s t) ∧
      OtherDesksKept p s t ∧ LinesKept s t ∧ Kept [.positions, .operators, .grants, .journal, .links] s t)

/-- R152: RELIEF_CLEAR by the supervisor empties the relief stack and releases every stacked operator from the top down, each
with an entry; the holder stands. R75: the temporary grants of each released operator bound to the position end, their entries
before that operator's own (said where each is engaged there, and where no grant is temporary). R147: a limit timer that has
expired (log 1) marks its frame overdue, with its entry and a notice for the position's console and for P0's. -/
def Obligations.ReliefIsClearedAndFallsOverdue : Prop :=
  (∀ (h : Header) (p : Pos) (s : State), Passes .reliefClear h s → Supervises s h.op → (s.positions.get p).relief ≠ [] →
    s.grants.wf = true →
    ∃ t, exec (.reliefClear h p.num) s = .next t ∧
      t.positions.get p = { s.positions.get p with relief := [] } ∧
      (∀ f ∈ (s.positions.get p).relief, engagementOf t f.operator = none) ∧
      (∀ o, (∀ f ∈ (s.positions.get p).relief, f.operator ≠ o) → t.operators.get? o = s.operators.get? o) ∧
      (∀ m g, t.grants.get? m = some g → s.grants.get? m = some g) ∧
      (∀ m g, s.grants.get? m = some g →
        g.temporary = false ∨ (∀ f ∈ (s.positions.get p).relief, f.operator ≠ g.operator) → t.grants.get? m = some g) ∧
      Replied .reliefClear h (doneWith (bePos p ++ be16 (s.positions.get p).relief.length ++
        beOperator (s.positions.get p).holder)) s t ∧
      ((∀ e ∈ s.grants, e.2.temporary = false) →
        Journaled ((s.positions.get p).relief.reverse.map fun f => ⟨.reliefCleared, some p, some f.operator, none, h.op⟩) s t) ∧
      (((s.positions.get p).relief.map (·.operator)).Nodup →
        (∀ f ∈ (s.positions.get p).relief, ∃ role, engagementOf s f.operator = some (p, role)) →
        GrantsEnded (fun g => (s.positions.get p).relief.any fun f => boundTemporary f.operator p g) s t ∧
        Journaled ((s.positions.get p).relief.reverse.flatMap fun f => endedLines (boundTemporary f.operator p) s ++
          [⟨.reliefCleared, some p, some f.operator, none, h.op⟩]) s t) ∧
      OtherDesksKept p s t ∧ LinesKept s t ∧ Kept [.positions, .operators, .grants, .journal, .links] s t) ∧
  (∀ (p : Pos) (n : Nat) (f : ReliefFrame) (s : State), (s.positions.get p).relief[n]? = some f → f.remaining = 0 →
    f.overdue = false →
    ∃ t, exec (.reliefLimitExpiry p n) s = .next t ∧
      t.positions.get p = { s.positions.get p with relief := (s.positions.get p).relief.set n { f with overdue := true } } ∧
      Journaled [⟨.reliefOverdue, some p, some f.operator, none, n⟩] s t ∧
      Announced (atBoth p [.reliefOverdue p n f.operator f.start (s.positions.get p).holder]) s t ∧
      OtherDesksKept p s t ∧ NoReply s t ∧ LinesKept s t ∧ Kept [.positions, .journal, .links] s t)
end

