-- ==== Sys2Proof/Laws/State.lean ====
section
/-! SUPPORT. What a read of the state gives after each update of one record: for the containers a read after a write, and
for every named update one lemma for each field it leaves, so that no proof unfolds a record update. -/

namespace Sys2Proof.Machine

/-! ### Containers -/

@[simp] theorem PerPos.get_set_self {α : Type} (v : PerPos α) (p : Pos) (x : α) : (v.set p x).get p = x := by
  cases p <;> rfl

theorem PerPos.get_set_ne {α : Type} (v : PerPos α) {p q : Pos} (x : α) (h : q ≠ p) : (v.set p x).get q = v.get q := by
  cases p <;> cases q <;> first | rfl | exact absurd rfl h

theorem PerPos.get_set {α : Type} (v : PerPos α) (p q : Pos) (x : α) :
    (v.set p x).get q = if q = p then x else v.get q := by
  split
  · subst q; simp
  · exact PerPos.get_set_ne v x ‹_›

@[simp] theorem PerPos.get_map {α β : Type} (f : Pos → α → β) (v : PerPos α) (p : Pos) : (v.map f).get p = f p (v.get p) := by
  cases p <;> rfl

@[simp] theorem PerPos.get_all {α : Type} (x : α) (p : Pos) : (PerPos.all x).get p = x := by cases p <;> rfl

@[simp] theorem PerPos.set_get {α : Type} (v : PerPos α) (p : Pos) : v.set p (v.get p) = v := by cases p <;> rfl

@[simp] theorem PerPos.set_set {α : Type} (v : PerPos α) (p : Pos) (x y : α) : (v.set p x).set p y = v.set p y := by
  cases p <;> rfl

/-- Seven equal values make equal containers. -/
theorem PerPos.ext_get {α : Type} {v w : PerPos α} (h : ∀ p, v.get p = w.get p) : v = w := by
  cases v; cases w
  have h0 := h .p0; have h1 := h .p1; have h2 := h .p2; have h3 := h .p3
  have h4 := h .p4; have h5 := h .p5; have h6 := h .p6
  simp_all [PerPos.get]

@[simp] theorem PerLink.get_set_self {α : Type} (v : PerLink α) (l : Link) (x : α) : (v.set l x).get l = x := by
  cases l <;> simp [PerLink.set, PerLink.get]

theorem PerLink.get_set_ne {α : Type} (v : PerLink α) {l m : Link} (x : α) (h : m ≠ l) : (v.set l x).get m = v.get m := by
  cases l <;> cases m <;> simp_all [PerLink.set, PerLink.get, PerPos.get_set_ne]

theorem PerLink.get_set {α : Type} (v : PerLink α) (l m : Link) (x : α) :
    (v.set l x).get m = if m = l then x else v.get m := by
  split
  · subst m; simp
  · exact PerLink.get_set_ne v x ‹_›

@[simp] theorem PerLink.get_map {α β : Type} (f : Link → α → β) (v : PerLink α) (l : Link) :
    (v.map f).get l = f l (v.get l) := by
  cases l <;> simp [PerLink.map, PerLink.get]

@[simp] theorem PerLink.set_get {α : Type} (v : PerLink α) (l : Link) : v.set l (v.get l) = v := by
  cases l <;> simp [PerLink.set, PerLink.get]

/-- Eight equal values make equal containers. -/
theorem PerLink.ext_get {α : Type} {v w : PerLink α} (h : ∀ l, v.get l = w.get l) : v = w := by
  obtain ⟨a, b⟩ := v
  obtain ⟨c, d⟩ := w
  have hp : b = d := h .plant
  have hc : a = c := PerPos.ext_get fun p => h (.console p)
  rw [hp, hc]

/-! ### What an update writes -/

theorem modLink_get (l m : Link) (f : LinkState → LinkState) (s : State) :
    (modLink l f s).links.get m = if m = l then f (s.links.get l) else s.links.get m := PerLink.get_set _ _ _ _

@[simp] theorem modLink_get_self (l : Link) (f : LinkState → LinkState) (s : State) :
    (modLink l f s).links.get l = f (s.links.get l) := PerLink.get_set_self _ _ _

theorem modLists_get (p q : Pos) (f : PosLists → PosLists) (s : State) :
    (modLists p f s).lists.get q = if q = p then f (s.lists.get p) else s.lists.get q := PerPos.get_set _ _ _ _

@[simp] theorem modLists_get_self (p : Pos) (f : PosLists → PosLists) (s : State) :
    (modLists p f s).lists.get p = f (s.lists.get p) := PerPos.get_set_self _ _ _

theorem modLoad_get (p q : Pos) (f : PosLoad → PosLoad) (s : State) :
    (modLoad p f s).loads.get q = if q = p then f (s.loads.get p) else s.loads.get q := PerPos.get_set _ _ _ _

@[simp] theorem modLoad_get_self (p : Pos) (f : PosLoad → PosLoad) (s : State) :
    (modLoad p f s).loads.get p = f (s.loads.get p) := PerPos.get_set_self _ _ _

theorem modPos_get (p q : Pos) (f : PosContext → PosContext) (s : State) :
    (modPos p f s).positions.get q = if q = p then f (s.positions.get p) else s.positions.get q := PerPos.get_set _ _ _ _

@[simp] theorem modPos_get_self (p : Pos) (f : PosContext → PosContext) (s : State) :
    (modPos p f s).positions.get p = f (s.positions.get p) := PerPos.get_set_self _ _ _

@[simp] theorem modAlarm_alarms (i : Nat) (f : Alarm → Alarm) (s : State) :
    (modAlarm i f s).alarms = s.alarms.modify i f := rfl

@[simp] theorem modOperator_operators (o : Nat) (f : Operator → Operator) (s : State) :
    (modOperator o f s).operators = s.operators.modify o f := rfl

@[simp] theorem append_nextSeq (k : EntryKind) (p : Option Pos) (o i : Option Nat) (d : Nat) (s : State) :
    (append k p o i d s).nextSeq = s.nextSeq + 1 := rfl

/-- R154: the ring after an entry: the entries as they stood with the new one last, less the oldest where it was full. -/
theorem append_journal (k : EntryKind) (p : Option Pos) (o i : Option Nat) (d : Nat) (s : State) (e : Entry)
    (he : e = ⟨s.nextSeq, s.millTime, k, p, o, i, d⟩) :
    (append k p o i d s).journal =
      if s.journal.length < 4096 then s.journal ++ [e] else (s.journal ++ [e]).tail := by
  subst he
  simp only [append, Config.journalCapacity, List.length_append, List.length_singleton, Nat.lt_iff_add_one_le]

/-! ### What an update leaves -/

@[simp] theorem modLink_millTime (l : Link) (f : LinkState → LinkState) (s : State) : (modLink l f s).millTime = s.millTime := rfl
@[simp] theorem modLink_timeSet (l : Link) (f : LinkState → LinkState) (s : State) : (modLink l f s).timeSet = s.timeSet := rfl
@[simp] theorem modLink_runState (l : Link) (f : LinkState → LinkState) (s : State) : (modLink l f s).runState = s.runState := rfl
@[simp] theorem modLink_startKind (l : Link) (f : LinkState → LinkState) (s : State) : (modLink l f s).startKind = s.startKind := rfl
@[simp] theorem modLink_restarts (l : Link) (f : LinkState → LinkState) (s : State) : (modLink l f s).restarts = s.restarts := rfl
@[simp] theorem modLink_relay (l : Link) (f : LinkState → LinkState) (s : State) : (modLink l f s).relay = s.relay := rfl
@[simp] theorem modLink_plantHold (l : Link) (f : LinkState → LinkState) (s : State) : (modLink l f s).plantHold = s.plantHold := rfl
@[simp] theorem modLink_alarms (l : Link) (f : LinkState → LinkState) (s : State) : (modLink l f s).alarms = s.alarms := rfl
@[simp] theorem modLink_mask (l : Link) (f : LinkState → LinkState) (s : State) : (modLink l f s).mask = s.mask := rfl
@[simp] theorem modLink_lists (l : Link) (f : LinkState → LinkState) (s : State) : (modLink l f s).lists = s.lists := rfl
@[simp] theorem modLink_escalation (l : Link) (f : LinkState → LinkState) (s : State) : (modLink l f s).escalation = s.escalation := rfl
@[simp] theorem modLink_loads (l : Link) (f : LinkState → LinkState) (s : State) : (modLink l f s).loads = s.loads := rfl
@[simp] theorem modLink_operators (l : Link) (f : LinkState → LinkState) (s : State) : (modLink l f s).operators = s.operators := rfl
@[simp] theorem modLink_grants (l : Link) (f : LinkState → LinkState) (s : State) : (modLink l f s).grants = s.grants := rfl
@[simp] theorem modLink_positions (l : Link) (f : LinkState → LinkState) (s : State) : (modLink l f s).positions = s.positions := rfl
@[simp] theorem modLink_areas (l : Link) (f : LinkState → LinkState) (s : State) : (modLink l f s).areas = s.areas := rfl
@[simp] theorem modLink_bypasses (l : Link) (f : LinkState → LinkState) (s : State) : (modLink l f s).bypasses = s.bypasses := rfl
@[simp] theorem modLink_journal (l : Link) (f : LinkState → LinkState) (s : State) : (modLink l f s).journal = s.journal := rfl
@[simp] theorem modLink_nextSeq (l : Link) (f : LinkState → LinkState) (s : State) : (modLink l f s).nextSeq = s.nextSeq := rfl
@[simp] theorem modLink_free (l : Link) (f : LinkState → LinkState) (s : State) : (modLink l f s).free = s.free := rfl
@[simp] theorem modLink_pending (l : Link) (f : LinkState → LinkState) (s : State) : (modLink l f s).pending = s.pending := rfl

@[simp] theorem modLists_millTime (p : Pos) (f : PosLists → PosLists) (s : State) : (modLists p f s).millTime = s.millTime := rfl
@[simp] theorem modLists_timeSet (p : Pos) (f : PosLists → PosLists) (s : State) : (modLists p f s).timeSet = s.timeSet := rfl
@[simp] theorem modLists_runState (p : Pos) (f : PosLists → PosLists) (s : State) : (modLists p f s).runState = s.runState := rfl
@[simp] theorem modLists_startKind (p : Pos) (f : PosLists → PosLists) (s : State) : (modLists p f s).startKind = s.startKind := rfl
@[simp] theorem modLists_restarts (p : Pos) (f : PosLists → PosLists) (s : State) : (modLists p f s).restarts = s.restarts := rfl
@[simp] theorem modLists_relay (p : Pos) (f : PosLists → PosLists) (s : State) : (modLists p f s).relay = s.relay := rfl
@[simp] theorem modLists_plantHold (p : Pos) (f : PosLists → PosLists) (s : State) : (modLists p f s).plantHold = s.plantHold := rfl
@[simp] theorem modLists_links (p : Pos) (f : PosLists → PosLists) (s : State) : (modLists p f s).links = s.links := rfl
@[simp] theorem modLists_alarms (p : Pos) (f : PosLists → PosLists) (s : State) : (modLists p f s).alarms = s.alarms := rfl
@[simp] theorem modLists_mask (p : Pos) (f : PosLists → PosLists) (s : State) : (modLists p f s).mask = s.mask := rfl
@[simp] theorem modLists_escalation (p : Pos) (f : PosLists → PosLists) (s : State) : (modLists p f s).escalation = s.escalation := rfl
@[simp] theorem modLists_loads (p : Pos) (f : PosLists → PosLists) (s : State) : (modLists p f s).loads = s.loads := rfl
@[simp] theorem modLists_operators (p : Pos) (f : PosLists → PosLists) (s : State) : (modLists p f s).operators = s.operators := rfl
@[simp] theorem modLists_grants (p : Pos) (f : PosLists → PosLists) (s : State) : (modLists p f s).grants = s.grants := rfl
@[simp] theorem modLists_positions (p : Pos) (f : PosLists → PosLists) (s : State) : (modLists p f s).positions = s.positions := rfl
@[simp] theorem modLists_areas (p : Pos) (f : PosLists → PosLists) (s : State) : (modLists p f s).areas = s.areas := rfl
@[simp] theorem modLists_bypasses (p : Pos) (f : PosLists → PosLists) (s : State) : (modLists p f s).bypasses = s.bypasses := rfl
@[simp] theorem modLists_journal (p : Pos) (f : PosLists → PosLists) (s : State) : (modLists p f s).journal = s.journal := rfl
@[simp] theorem modLists_nextSeq (p : Pos) (f : PosLists → PosLists) (s : State) : (modLists p f s).nextSeq = s.nextSeq := rfl
@[simp] theorem modLists_free (p : Pos) (f : PosLists → PosLists) (s : State) : (modLists p f s).free = s.free := rfl
@[simp] theorem modLists_pending (p : Pos) (f : PosLists → PosLists) (s : State) : (modLists p f s).pending = s.pending := rfl

@[simp] theorem modLoad_millTime (p : Pos) (f : PosLoad → PosLoad) (s : State) : (modLoad p f s).millTime = s.millTime := rfl
@[simp] theorem modLoad_timeSet (p : Pos) (f : PosLoad → PosLoad) (s : State) : (modLoad p f s).timeSet = s.timeSet := rfl
@[simp] theorem modLoad_runState (p : Pos) (f : PosLoad → PosLoad) (s : State) : (modLoad p f s).runState = s.runState := rfl
@[simp] theorem modLoad_startKind (p : Pos) (f : PosLoad → PosLoad) (s : State) : (modLoad p f s).startKind = s.startKind := rfl
@[simp] theorem modLoad_restarts (p : Pos) (f : PosLoad → PosLoad) (s : State) : (modLoad p f s).restarts = s.restarts := rfl
@[simp] theorem modLoad_relay (p : Pos) (f : PosLoad → PosLoad) (s : State) : (modLoad p f s).relay = s.relay := rfl
@[simp] theorem modLoad_plantHold (p : Pos) (f : PosLoad → PosLoad) (s : State) : (modLoad p f s).plantHold = s.plantHold := rfl
@[simp] theorem modLoad_links (p : Pos) (f : PosLoad → PosLoad) (s : State) : (modLoad p f s).links = s.links := rfl
@[simp] theorem modLoad_alarms (p : Pos) (f : PosLoad → PosLoad) (s : State) : (modLoad p f s).alarms = s.alarms := rfl
@[simp] theorem modLoad_mask (p : Pos) (f : PosLoad → PosLoad) (s : State) : (modLoad p f s).mask = s.mask := rfl
@[simp] theorem modLoad_lists (p : Pos) (f : PosLoad → PosLoad) (s : State) : (modLoad p f s).lists = s.lists := rfl
@[simp] theorem modLoad_escalation (p : Pos) (f : PosLoad → PosLoad) (s : State) : (modLoad p f s).escalation = s.escalation := rfl
@[simp] theorem modLoad_operators (p : Pos) (f : PosLoad → PosLoad) (s : State) : (modLoad p f s).operators = s.operators := rfl
@[simp] theorem modLoad_grants (p : Pos) (f : PosLoad → PosLoad) (s : State) : (modLoad p f s).grants = s.grants := rfl
@[simp] theorem modLoad_positions (p : Pos) (f : PosLoad → PosLoad) (s : State) : (modLoad p f s).positions = s.positions := rfl
@[simp] theorem modLoad_areas (p : Pos) (f : PosLoad → PosLoad) (s : State) : (modLoad p f s).areas = s.areas := rfl
@[simp] theorem modLoad_bypasses (p : Pos) (f : PosLoad → PosLoad) (s : State) : (modLoad p f s).bypasses = s.bypasses := rfl
@[simp] theorem modLoad_journal (p : Pos) (f : PosLoad → PosLoad) (s : State) : (modLoad p f s).journal = s.journal := rfl
@[simp] theorem modLoad_nextSeq (p : Pos) (f : PosLoad → PosLoad) (s : State) : (modLoad p f s).nextSeq = s.nextSeq := rfl
@[simp] theorem modLoad_free (p : Pos) (f : PosLoad → PosLoad) (s : State) : (modLoad p f s).free = s.free := rfl
@[simp] theorem modLoad_pending (p : Pos) (f : PosLoad → PosLoad) (s : State) : (modLoad p f s).pending = s.pending := rfl

@[simp] theorem modPos_millTime (p : Pos) (f : PosContext → PosContext) (s : State) : (modPos p f s).millTime = s.millTime := rfl
@[simp] theorem modPos_timeSet (p : Pos) (f : PosContext → PosContext) (s : State) : (modPos p f s).timeSet = s.timeSet := rfl
@[simp] theorem modPos_runState (p : Pos) (f : PosContext → PosContext) (s : State) : (modPos p f s).runState = s.runState := rfl
@[simp] theorem modPos_startKind (p : Pos) (f : PosContext → PosContext) (s : State) : (modPos p f s).startKind = s.startKind := rfl
@[simp] theorem modPos_restarts (p : Pos) (f : PosContext → PosContext) (s : State) : (modPos p f s).restarts = s.restarts := rfl
@[simp] theorem modPos_relay (p : Pos) (f : PosContext → PosContext) (s : State) : (modPos p f s).relay = s.relay := rfl
@[simp] theorem modPos_plantHold (p : Pos) (f : PosContext → PosContext) (s : State) : (modPos p f s).plantHold = s.plantHold := rfl
@[simp] theorem modPos_links (p : Pos) (f : PosContext → PosContext) (s : State) : (modPos p f s).links = s.links := rfl
@[simp] theorem modPos_alarms (p : Pos) (f : PosContext → PosContext) (s : State) : (modPos p f s).alarms = s.alarms := rfl
@[simp] theorem modPos_mask (p : Pos) (f : PosContext → PosContext) (s : State) : (modPos p f s).mask = s.mask := rfl
@[simp] theorem modPos_lists (p : Pos) (f : PosContext → PosContext) (s : State) : (modPos p f s).lists = s.lists := rfl
@[simp] theorem modPos_escalation (p : Pos) (f : PosContext → PosContext) (s : State) : (modPos p f s).escalation = s.escalation := rfl
@[simp] theorem modPos_loads (p : Pos) (f : PosContext → PosContext) (s : State) : (modPos p f s).loads = s.loads := rfl
@[simp] theorem modPos_operators (p : Pos) (f : PosContext → PosContext) (s : State) : (modPos p f s).operators = s.operators := rfl
@[simp] theorem modPos_grants (p : Pos) (f : PosContext → PosContext) (s : State) : (modPos p f s).grants = s.grants := rfl
@[simp] theorem modPos_areas (p : Pos) (f : PosContext → PosContext) (s : State) : (modPos p f s).areas = s.areas := rfl
@[simp] theorem modPos_bypasses (p : Pos) (f : PosContext → PosContext) (s : State) : (modPos p f s).bypasses = s.bypasses := rfl
@[simp] theorem modPos_journal (p : Pos) (f : PosContext → PosContext) (s : State) : (modPos p f s).journal = s.journal := rfl
@[simp] theorem modPos_nextSeq (p : Pos) (f : PosContext → PosContext) (s : State) : (modPos p f s).nextSeq = s.nextSeq := rfl
@[simp] theorem modPos_free (p : Pos) (f : PosContext → PosContext) (s : State) : (modPos p f s).free = s.free := rfl
@[simp] theorem modPos_pending (p : Pos) (f : PosContext → PosContext) (s : State) : (modPos p f s).pending = s.pending := rfl

@[simp] theorem modAlarm_millTime (i : Nat) (f : Alarm → Alarm) (s : State) : (modAlarm i f s).millTime = s.millTime := rfl
@[simp] theorem modAlarm_timeSet (i : Nat) (f : Alarm → Alarm) (s : State) : (modAlarm i f s).timeSet = s.timeSet := rfl
@[simp] theorem modAlarm_runState (i : Nat) (f : Alarm → Alarm) (s : State) : (modAlarm i f s).runState = s.runState := rfl
@[simp] theorem modAlarm_startKind (i : Nat) (f : Alarm → Alarm) (s : State) : (modAlarm i f s).startKind = s.startKind := rfl
@[simp] theorem modAlarm_restarts (i : Nat) (f : Alarm → Alarm) (s : State) : (modAlarm i f s).restarts = s.restarts := rfl
@[simp] theorem modAlarm_relay (i : Nat) (f : Alarm → Alarm) (s : State) : (modAlarm i f s).relay = s.relay := rfl
@[simp] theorem modAlarm_plantHold (i : Nat) (f : Alarm → Alarm) (s : State) : (modAlarm i f s).plantHold = s.plantHold := rfl
@[simp] theorem modAlarm_links (i : Nat) (f : Alarm → Alarm) (s : State) : (modAlarm i f s).links = s.links := rfl
@[simp] theorem modAlarm_mask (i : Nat) (f : Alarm → Alarm) (s : State) : (modAlarm i f s).mask = s.mask := rfl
@[simp] theorem modAlarm_lists (i : Nat) (f : Alarm → Alarm) (s : State) : (modAlarm i f s).lists = s.lists := rfl
@[simp] theorem modAlarm_escalation (i : Nat) (f : Alarm → Alarm) (s : State) : (modAlarm i f s).escalation = s.escalation := rfl
@[simp] theorem modAlarm_loads (i : Nat) (f : Alarm → Alarm) (s : State) : (modAlarm i f s).loads = s.loads := rfl
@[simp] theorem modAlarm_operators (i : Nat) (f : Alarm → Alarm) (s : State) : (modAlarm i f s).operators = s.operators := rfl
@[simp] theorem modAlarm_grants (i : Nat) (f : Alarm → Alarm) (s : State) : (modAlarm i f s).grants = s.grants := rfl
@[simp] theorem modAlarm_positions (i : Nat) (f : Alarm → Alarm) (s : State) : (modAlarm i f s).positions = s.positions := rfl
@[simp] theorem modAlarm_areas (i : Nat) (f : Alarm → Alarm) (s : State) : (modAlarm i f s).areas = s.areas := rfl
@[simp] theorem modAlarm_bypasses (i : Nat) (f : Alarm → Alarm) (s : State) : (modAlarm i f s).bypasses = s.bypasses := rfl
@[simp] theorem modAlarm_journal (i : Nat) (f : Alarm → Alarm) (s : State) : (modAlarm i f s).journal = s.journal := rfl
@[simp] theorem modAlarm_nextSeq (i : Nat) (f : Alarm → Alarm) (s : State) : (modAlarm i f s).nextSeq = s.nextSeq := rfl
@[simp] theorem modAlarm_free (i : Nat) (f : Alarm → Alarm) (s : State) : (modAlarm i f s).free = s.free := rfl
@[simp] theorem modAlarm_pending (i : Nat) (f : Alarm → Alarm) (s : State) : (modAlarm i f s).pending = s.pending := rfl

@[simp] theorem modDyn_millTime (i : Nat) (f : AlarmDyn → AlarmDyn) (s : State) : (modDyn i f s).millTime = s.millTime := rfl
@[simp] theorem modDyn_timeSet (i : Nat) (f : AlarmDyn → AlarmDyn) (s : State) : (modDyn i f s).timeSet = s.timeSet := rfl
@[simp] theorem modDyn_runState (i : Nat) (f : AlarmDyn → AlarmDyn) (s : State) : (modDyn i f s).runState = s.runState := rfl
@[simp] theorem modDyn_startKind (i : Nat) (f : AlarmDyn → AlarmDyn) (s : State) : (modDyn i f s).startKind = s.startKind := rfl
@[simp] theorem modDyn_restarts (i : Nat) (f : AlarmDyn → AlarmDyn) (s : State) : (modDyn i f s).restarts = s.restarts := rfl
@[simp] theorem modDyn_relay (i : Nat) (f : AlarmDyn → AlarmDyn) (s : State) : (modDyn i f s).relay = s.relay := rfl
@[simp] theorem modDyn_plantHold (i : Nat) (f : AlarmDyn → AlarmDyn) (s : State) : (modDyn i f s).plantHold = s.plantHold := rfl
@[simp] theorem modDyn_links (i : Nat) (f : AlarmDyn → AlarmDyn) (s : State) : (modDyn i f s).links = s.links := rfl
@[simp] theorem modDyn_mask (i : Nat) (f : AlarmDyn → AlarmDyn) (s : State) : (modDyn i f s).mask = s.mask := rfl
@[simp] theorem modDyn_lists (i : Nat) (f : AlarmDyn → AlarmDyn) (s : State) : (modDyn i f s).lists = s.lists := rfl
@[simp] theorem modDyn_escalation (i : Nat) (f : AlarmDyn → AlarmDyn) (s : State) : (modDyn i f s).escalation = s.escalation := rfl
@[simp] theorem modDyn_loads (i : Nat) (f : AlarmDyn → AlarmDyn) (s : State) : (modDyn i f s).loads = s.loads := rfl
@[simp] theorem modDyn_operators (i : Nat) (f : AlarmDyn → AlarmDyn) (s : State) : (modDyn i f s).operators = s.operators := rfl
@[simp] theorem modDyn_grants (i : Nat) (f : AlarmDyn → AlarmDyn) (s : State) : (modDyn i f s).grants = s.grants := rfl
@[simp] theorem modDyn_positions (i : Nat) (f : AlarmDyn → AlarmDyn) (s : State) : (modDyn i f s).positions = s.positions := rfl
@[simp] theorem modDyn_areas (i : Nat) (f : AlarmDyn → AlarmDyn) (s : State) : (modDyn i f s).areas = s.areas := rfl
@[simp] theorem modDyn_bypasses (i : Nat) (f : AlarmDyn → AlarmDyn) (s : State) : (modDyn i f s).bypasses = s.bypasses := rfl
@[simp] theorem modDyn_journal (i : Nat) (f : AlarmDyn → AlarmDyn) (s : State) : (modDyn i f s).journal = s.journal := rfl
@[simp] theorem modDyn_nextSeq (i : Nat) (f : AlarmDyn → AlarmDyn) (s : State) : (modDyn i f s).nextSeq = s.nextSeq := rfl
@[simp] theorem modDyn_free (i : Nat) (f : AlarmDyn → AlarmDyn) (s : State) : (modDyn i f s).free = s.free := rfl
@[simp] theorem modDyn_pending (i : Nat) (f : AlarmDyn → AlarmDyn) (s : State) : (modDyn i f s).pending = s.pending := rfl

@[simp] theorem modOperator_millTime (o : Nat) (f : Operator → Operator) (s : State) : (modOperator o f s).millTime = s.millTime := rfl
@[simp] theorem modOperator_timeSet (o : Nat) (f : Operator → Operator) (s : State) : (modOperator o f s).timeSet = s.timeSet := rfl
@[simp] theorem modOperator_runState (o : Nat) (f : Operator → Operator) (s : State) : (modOperator o f s).runState = s.runState := rfl
@[simp] theorem modOperator_startKind (o : Nat) (f : Operator → Operator) (s : State) : (modOperator o f s).startKind = s.startKind := rfl
@[simp] theorem modOperator_restarts (o : Nat) (f : Operator → Operator) (s : State) : (modOperator o f s).restarts = s.restarts := rfl
@[simp] theorem modOperator_relay (o : Nat) (f : Operator → Operator) (s : State) : (modOperator o f s).relay = s.relay := rfl
@[simp] theorem modOperator_plantHold (o : Nat) (f : Operator → Operator) (s : State) : (modOperator o f s).plantHold = s.plantHold := rfl
@[simp] theorem modOperator_links (o : Nat) (f : Operator → Operator) (s : State) : (modOperator o f s).links = s.links := rfl
@[simp] theorem modOperator_alarms (o : Nat) (f : Operator → Operator) (s : State) : (modOperator o f s).alarms = s.alarms := rfl
@[simp] theorem modOperator_mask (o : Nat) (f : Operator → Operator) (s : State) : (modOperator o f s).mask = s.mask := rfl
@[simp] theorem modOperator_lists (o : Nat) (f : Operator → Operator) (s : State) : (modOperator o f s).lists = s.lists := rfl
@[simp] theorem modOperator_escalation (o : Nat) (f : Operator → Operator) (s : State) : (modOperator o f s).escalation = s.escalation := rfl
@[simp] theorem modOperator_loads (o : Nat) (f : Operator → Operator) (s : State) : (modOperator o f s).loads = s.loads := rfl
@[simp] theorem modOperator_grants (o : Nat) (f : Operator → Operator) (s : State) : (modOperator o f s).grants = s.grants := rfl
@[simp] theorem modOperator_positions (o : Nat) (f : Operator → Operator) (s : State) : (modOperator o f s).positions = s.positions := rfl
@[simp] theorem modOperator_areas (o : Nat) (f : Operator → Operator) (s : State) : (modOperator o f s).areas = s.areas := rfl
@[simp] theorem modOperator_bypasses (o : Nat) (f : Operator → Operator) (s : State) : (modOperator o f s).bypasses = s.bypasses := rfl
@[simp] theorem modOperator_journal (o : Nat) (f : Operator → Operator) (s : State) : (modOperator o f s).journal = s.journal := rfl
@[simp] theorem modOperator_nextSeq (o : Nat) (f : Operator → Operator) (s : State) : (modOperator o f s).nextSeq = s.nextSeq := rfl
@[simp] theorem modOperator_free (o : Nat) (f : Operator → Operator) (s : State) : (modOperator o f s).free = s.free := rfl
@[simp] theorem modOperator_pending (o : Nat) (f : Operator → Operator) (s : State) : (modOperator o f s).pending = s.pending := rfl

@[simp] theorem append_millTime (k : EntryKind) (p : Option Pos) (o i : Option Nat) (d : Nat) (s : State) : (append k p o i d s).millTime = s.millTime := rfl
@[simp] theorem append_timeSet (k : EntryKind) (p : Option Pos) (o i : Option Nat) (d : Nat) (s : State) : (append k p o i d s).timeSet = s.timeSet := rfl
@[simp] theorem append_runState (k : EntryKind) (p : Option Pos) (o i : Option Nat) (d : Nat) (s : State) : (append k p o i d s).runState = s.runState := rfl
@[simp] theorem append_startKind (k : EntryKind) (p : Option Pos) (o i : Option Nat) (d : Nat) (s : State) : (append k p o i d s).startKind = s.startKind := rfl
@[simp] theorem append_restarts (k : EntryKind) (p : Option Pos) (o i : Option Nat) (d : Nat) (s : State) : (append k p o i d s).restarts = s.restarts := rfl
@[simp] theorem append_relay (k : EntryKind) (p : Option Pos) (o i : Option Nat) (d : Nat) (s : State) : (append k p o i d s).relay = s.relay := rfl
@[simp] theorem append_plantHold (k : EntryKind) (p : Option Pos) (o i : Option Nat) (d : Nat) (s : State) : (append k p o i d s).plantHold = s.plantHold := rfl
@[simp] theorem append_links (k : EntryKind) (p : Option Pos) (o i : Option Nat) (d : Nat) (s : State) : (append k p o i d s).links = s.links := rfl
@[simp] theorem append_alarms (k : EntryKind) (p : Option Pos) (o i : Option Nat) (d : Nat) (s : State) : (append k p o i d s).alarms = s.alarms := rfl
@[simp] theorem append_mask (k : EntryKind) (p : Option Pos) (o i : Option Nat) (d : Nat) (s : State) : (append k p o i d s).mask = s.mask := rfl
@[simp] theorem append_lists (k : EntryKind) (p : Option Pos) (o i : Option Nat) (d : Nat) (s : State) : (append k p o i d s).lists = s.lists := rfl
@[simp] theorem append_escalation (k : EntryKind) (p : Option Pos) (o i : Option Nat) (d : Nat) (s : State) : (append k p o i d s).escalation = s.escalation := rfl
@[simp] theorem append_loads (k : EntryKind) (p : Option Pos) (o i : Option Nat) (d : Nat) (s : State) : (append k p o i d s).loads = s.loads := rfl
@[simp] theorem append_operators (k : EntryKind) (p : Option Pos) (o i : Option Nat) (d : Nat) (s : State) : (append k p o i d s).operators = s.operators := rfl
@[simp] theorem append_grants (k : EntryKind) (p : Option Pos) (o i : Option Nat) (d : Nat) (s : State) : (append k p o i d s).grants = s.grants := rfl
@[simp] theorem append_positions (k : EntryKind) (p : Option Pos) (o i : Option Nat) (d : Nat) (s : State) : (append k p o i d s).positions = s.positions := rfl
@[simp] theorem append_areas (k : EntryKind) (p : Option Pos) (o i : Option Nat) (d : Nat) (s : State) : (append k p o i d s).areas = s.areas := rfl
@[simp] theorem append_bypasses (k : EntryKind) (p : Option Pos) (o i : Option Nat) (d : Nat) (s : State) : (append k p o i d s).bypasses = s.bypasses := rfl
@[simp] theorem append_free (k : EntryKind) (p : Option Pos) (o i : Option Nat) (d : Nat) (s : State) : (append k p o i d s).free = s.free := rfl
@[simp] theorem append_pending (k : EntryKind) (p : Option Pos) (o i : Option Nat) (d : Nat) (s : State) : (append k p o i d s).pending = s.pending := rfl

@[simp] theorem takeFrame_millTime (l : Link) (s : State) : (takeFrame l s).millTime = s.millTime := rfl
@[simp] theorem takeFrame_timeSet (l : Link) (s : State) : (takeFrame l s).timeSet = s.timeSet := rfl
@[simp] theorem takeFrame_runState (l : Link) (s : State) : (takeFrame l s).runState = s.runState := rfl
@[simp] theorem takeFrame_startKind (l : Link) (s : State) : (takeFrame l s).startKind = s.startKind := rfl
@[simp] theorem takeFrame_restarts (l : Link) (s : State) : (takeFrame l s).restarts = s.restarts := rfl
@[simp] theorem takeFrame_relay (l : Link) (s : State) : (takeFrame l s).relay = s.relay := rfl
@[simp] theorem takeFrame_plantHold (l : Link) (s : State) : (takeFrame l s).plantHold = s.plantHold := rfl
@[simp] theorem takeFrame_alarms (l : Link) (s : State) : (takeFrame l s).alarms = s.alarms := rfl
@[simp] theorem takeFrame_mask (l : Link) (s : State) : (takeFrame l s).mask = s.mask := rfl
@[simp] theorem takeFrame_lists (l : Link) (s : State) : (takeFrame l s).lists = s.lists := rfl
@[simp] theorem takeFrame_escalation (l : Link) (s : State) : (takeFrame l s).escalation = s.escalation := rfl
@[simp] theorem takeFrame_loads (l : Link) (s : State) : (takeFrame l s).loads = s.loads := rfl
@[simp] theorem takeFrame_operators (l : Link) (s : State) : (takeFrame l s).operators = s.operators := rfl
@[simp] theorem takeFrame_grants (l : Link) (s : State) : (takeFrame l s).grants = s.grants := rfl
@[simp] theorem takeFrame_positions (l : Link) (s : State) : (takeFrame l s).positions = s.positions := rfl
@[simp] theorem takeFrame_areas (l : Link) (s : State) : (takeFrame l s).areas = s.areas := rfl
@[simp] theorem takeFrame_bypasses (l : Link) (s : State) : (takeFrame l s).bypasses = s.bypasses := rfl
@[simp] theorem takeFrame_journal (l : Link) (s : State) : (takeFrame l s).journal = s.journal := rfl
@[simp] theorem takeFrame_nextSeq (l : Link) (s : State) : (takeFrame l s).nextSeq = s.nextSeq := rfl
@[simp] theorem takeFrame_free (l : Link) (s : State) : (takeFrame l s).free = s.free := rfl
@[simp] theorem takeFrame_pending (l : Link) (s : State) : (takeFrame l s).pending = s.pending := rfl

@[simp] theorem notify_millTime (l : Link) (n : Notice) (s : State) : (notify l n s).millTime = s.millTime := rfl
@[simp] theorem notify_timeSet (l : Link) (n : Notice) (s : State) : (notify l n s).timeSet = s.timeSet := rfl
@[simp] theorem notify_runState (l : Link) (n : Notice) (s : State) : (notify l n s).runState = s.runState := rfl
@[simp] theorem notify_startKind (l : Link) (n : Notice) (s : State) : (notify l n s).startKind = s.startKind := rfl
@[simp] theorem notify_restarts (l : Link) (n : Notice) (s : State) : (notify l n s).restarts = s.restarts := rfl
@[simp] theorem notify_relay (l : Link) (n : Notice) (s : State) : (notify l n s).relay = s.relay := rfl
@[simp] theorem notify_plantHold (l : Link) (n : Notice) (s : State) : (notify l n s).plantHold = s.plantHold := rfl
@[simp] theorem notify_alarms (l : Link) (n : Notice) (s : State) : (notify l n s).alarms = s.alarms := rfl
@[simp] theorem notify_mask (l : Link) (n : Notice) (s : State) : (notify l n s).mask = s.mask := rfl
@[simp] theorem notify_lists (l : Link) (n : Notice) (s : State) : (notify l n s).lists = s.lists := rfl
@[simp] theorem notify_escalation (l : Link) (n : Notice) (s : State) : (notify l n s).escalation = s.escalation := rfl
@[simp] theorem notify_loads (l : Link) (n : Notice) (s : State) : (notify l n s).loads = s.loads := rfl
@[simp] theorem notify_operators (l : Link) (n : Notice) (s : State) : (notify l n s).operators = s.operators := rfl
@[simp] theorem notify_grants (l : Link) (n : Notice) (s : State) : (notify l n s).grants = s.grants := rfl
@[simp] theorem notify_positions (l : Link) (n : Notice) (s : State) : (notify l n s).positions = s.positions := rfl
@[simp] theorem notify_areas (l : Link) (n : Notice) (s : State) : (notify l n s).areas = s.areas := rfl
@[simp] theorem notify_bypasses (l : Link) (n : Notice) (s : State) : (notify l n s).bypasses = s.bypasses := rfl
@[simp] theorem notify_journal (l : Link) (n : Notice) (s : State) : (notify l n s).journal = s.journal := rfl
@[simp] theorem notify_nextSeq (l : Link) (n : Notice) (s : State) : (notify l n s).nextSeq = s.nextSeq := rfl
@[simp] theorem notify_free (l : Link) (n : Notice) (s : State) : (notify l n s).free = s.free := rfl
@[simp] theorem notify_pending (l : Link) (n : Notice) (s : State) : (notify l n s).pending = s.pending := rfl

@[simp] theorem setReminder_millTime (p : Pos) (i : Nat) (r : Option Nat) (s : State) : (setReminder p i r s).millTime = s.millTime := rfl
@[simp] theorem setReminder_timeSet (p : Pos) (i : Nat) (r : Option Nat) (s : State) : (setReminder p i r s).timeSet = s.timeSet := rfl
@[simp] theorem setReminder_runState (p : Pos) (i : Nat) (r : Option Nat) (s : State) : (setReminder p i r s).runState = s.runState := rfl
@[simp] theorem setReminder_startKind (p : Pos) (i : Nat) (r : Option Nat) (s : State) : (setReminder p i r s).startKind = s.startKind := rfl
@[simp] theorem setReminder_restarts (p : Pos) (i : Nat) (r : Option Nat) (s : State) : (setReminder p i r s).restarts = s.restarts := rfl
@[simp] theorem setReminder_relay (p : Pos) (i : Nat) (r : Option Nat) (s : State) : (setReminder p i r s).relay = s.relay := rfl
@[simp] theorem setReminder_plantHold (p : Pos) (i : Nat) (r : Option Nat) (s : State) : (setReminder p i r s).plantHold = s.plantHold := rfl
@[simp] theorem setReminder_links (p : Pos) (i : Nat) (r : Option Nat) (s : State) : (setReminder p i r s).links = s.links := rfl
@[simp] theorem setReminder_alarms (p : Pos) (i : Nat) (r : Option Nat) (s : State) : (setReminder p i r s).alarms = s.alarms := rfl
@[simp] theorem setReminder_mask (p : Pos) (i : Nat) (r : Option Nat) (s : State) : (setReminder p i r s).mask = s.mask := rfl
@[simp] theorem setReminder_escalation (p : Pos) (i : Nat) (r : Option Nat) (s : State) : (setReminder p i r s).escalation = s.escalation := rfl
@[simp] theorem setReminder_loads (p : Pos) (i : Nat) (r : Option Nat) (s : State) : (setReminder p i r s).loads = s.loads := rfl
@[simp] theorem setReminder_operators (p : Pos) (i : Nat) (r : Option Nat) (s : State) : (setReminder p i r s).operators = s.operators := rfl
@[simp] theorem setReminder_grants (p : Pos) (i : Nat) (r : Option Nat) (s : State) : (setReminder p i r s).grants = s.grants := rfl
@[simp] theorem setReminder_positions (p : Pos) (i : Nat) (r : Option Nat) (s : State) : (setReminder p i r s).positions = s.positions := rfl
@[simp] theorem setReminder_areas (p : Pos) (i : Nat) (r : Option Nat) (s : State) : (setReminder p i r s).areas = s.areas := rfl
@[simp] theorem setReminder_bypasses (p : Pos) (i : Nat) (r : Option Nat) (s : State) : (setReminder p i r s).bypasses = s.bypasses := rfl
@[simp] theorem setReminder_journal (p : Pos) (i : Nat) (r : Option Nat) (s : State) : (setReminder p i r s).journal = s.journal := rfl
@[simp] theorem setReminder_nextSeq (p : Pos) (i : Nat) (r : Option Nat) (s : State) : (setReminder p i r s).nextSeq = s.nextSeq := rfl
@[simp] theorem setReminder_free (p : Pos) (i : Nat) (r : Option Nat) (s : State) : (setReminder p i r s).free = s.free := rfl
@[simp] theorem setReminder_pending (p : Pos) (i : Nat) (r : Option Nat) (s : State) : (setReminder p i r s).pending = s.pending := rfl

@[simp] theorem leaveAnn_millTime (p : Pos) (i : Nat) (s : State) : (leaveAnn p i s).millTime = s.millTime := rfl
@[simp] theorem leaveAnn_timeSet (p : Pos) (i : Nat) (s : State) : (leaveAnn p i s).timeSet = s.timeSet := rfl
@[simp] theorem leaveAnn_runState (p : Pos) (i : Nat) (s : State) : (leaveAnn p i s).runState = s.runState := rfl
@[simp] theorem leaveAnn_startKind (p : Pos) (i : Nat) (s : State) : (leaveAnn p i s).startKind = s.startKind := rfl
@[simp] theorem leaveAnn_restarts (p : Pos) (i : Nat) (s : State) : (leaveAnn p i s).restarts = s.restarts := rfl
@[simp] theorem leaveAnn_relay (p : Pos) (i : Nat) (s : State) : (leaveAnn p i s).relay = s.relay := rfl
@[simp] theorem leaveAnn_plantHold (p : Pos) (i : Nat) (s : State) : (leaveAnn p i s).plantHold = s.plantHold := rfl
@[simp] theorem leaveAnn_links (p : Pos) (i : Nat) (s : State) : (leaveAnn p i s).links = s.links := rfl
@[simp] theorem leaveAnn_alarms (p : Pos) (i : Nat) (s : State) : (leaveAnn p i s).alarms = s.alarms := rfl
@[simp] theorem leaveAnn_mask (p : Pos) (i : Nat) (s : State) : (leaveAnn p i s).mask = s.mask := rfl
@[simp] theorem leaveAnn_escalation (p : Pos) (i : Nat) (s : State) : (leaveAnn p i s).escalation = s.escalation := rfl
@[simp] theorem leaveAnn_loads (p : Pos) (i : Nat) (s : State) : (leaveAnn p i s).loads = s.loads := rfl
@[simp] theorem leaveAnn_operators (p : Pos) (i : Nat) (s : State) : (leaveAnn p i s).operators = s.operators := rfl
@[simp] theorem leaveAnn_grants (p : Pos) (i : Nat) (s : State) : (leaveAnn p i s).grants = s.grants := rfl
@[simp] theorem leaveAnn_positions (p : Pos) (i : Nat) (s : State) : (leaveAnn p i s).positions = s.positions := rfl
@[simp] theorem leaveAnn_areas (p : Pos) (i : Nat) (s : State) : (leaveAnn p i s).areas = s.areas := rfl
@[simp] theorem leaveAnn_bypasses (p : Pos) (i : Nat) (s : State) : (leaveAnn p i s).bypasses = s.bypasses := rfl
@[simp] theorem leaveAnn_journal (p : Pos) (i : Nat) (s : State) : (leaveAnn p i s).journal = s.journal := rfl
@[simp] theorem leaveAnn_nextSeq (p : Pos) (i : Nat) (s : State) : (leaveAnn p i s).nextSeq = s.nextSeq := rfl
@[simp] theorem leaveAnn_free (p : Pos) (i : Nat) (s : State) : (leaveAnn p i s).free = s.free := rfl
@[simp] theorem leaveAnn_pending (p : Pos) (i : Nat) (s : State) : (leaveAnn p i s).pending = s.pending := rfl

@[simp] theorem leaveDeferred_millTime (p : Pos) (i : Nat) (s : State) : (leaveDeferred p i s).millTime = s.millTime := rfl
@[simp] theorem leaveDeferred_timeSet (p : Pos) (i : Nat) (s : State) : (leaveDeferred p i s).timeSet = s.timeSet := rfl
@[simp] theorem leaveDeferred_runState (p : Pos) (i : Nat) (s : State) : (leaveDeferred p i s).runState = s.runState := rfl
@[simp] theorem leaveDeferred_startKind (p : Pos) (i : Nat) (s : State) : (leaveDeferred p i s).startKind = s.startKind := rfl
@[simp] theorem leaveDeferred_restarts (p : Pos) (i : Nat) (s : State) : (leaveDeferred p i s).restarts = s.restarts := rfl
@[simp] theorem leaveDeferred_relay (p : Pos) (i : Nat) (s : State) : (leaveDeferred p i s).relay = s.relay := rfl
@[simp] theorem leaveDeferred_plantHold (p : Pos) (i : Nat) (s : State) : (leaveDeferred p i s).plantHold = s.plantHold := rfl
@[simp] theorem leaveDeferred_links (p : Pos) (i : Nat) (s : State) : (leaveDeferred p i s).links = s.links := rfl
@[simp] theorem leaveDeferred_alarms (p : Pos) (i : Nat) (s : State) : (leaveDeferred p i s).alarms = s.alarms := rfl
@[simp] theorem leaveDeferred_mask (p : Pos) (i : Nat) (s : State) : (leaveDeferred p i s).mask = s.mask := rfl
@[simp] theorem leaveDeferred_escalation (p : Pos) (i : Nat) (s : State) : (leaveDeferred p i s).escalation = s.escalation := rfl
@[simp] theorem leaveDeferred_loads (p : Pos) (i : Nat) (s : State) : (leaveDeferred p i s).loads = s.loads := rfl
@[simp] theorem leaveDeferred_operators (p : Pos) (i : Nat) (s : State) : (leaveDeferred p i s).operators = s.operators := rfl
@[simp] theorem leaveDeferred_grants (p : Pos) (i : Nat) (s : State) : (leaveDeferred p i s).grants = s.grants := rfl
@[simp] theorem leaveDeferred_positions (p : Pos) (i : Nat) (s : State) : (leaveDeferred p i s).positions = s.positions := rfl
@[simp] theorem leaveDeferred_areas (p : Pos) (i : Nat) (s : State) : (leaveDeferred p i s).areas = s.areas := rfl
@[simp] theorem leaveDeferred_bypasses (p : Pos) (i : Nat) (s : State) : (leaveDeferred p i s).bypasses = s.bypasses := rfl
@[simp] theorem leaveDeferred_journal (p : Pos) (i : Nat) (s : State) : (leaveDeferred p i s).journal = s.journal := rfl
@[simp] theorem leaveDeferred_nextSeq (p : Pos) (i : Nat) (s : State) : (leaveDeferred p i s).nextSeq = s.nextSeq := rfl
@[simp] theorem leaveDeferred_free (p : Pos) (i : Nat) (s : State) : (leaveDeferred p i s).free = s.free := rfl
@[simp] theorem leaveDeferred_pending (p : Pos) (i : Nat) (s : State) : (leaveDeferred p i s).pending = s.pending := rfl

@[simp] theorem setOverflow_millTime (i : Nat) (b : Bool) (s : State) : (setOverflow i b s).millTime = s.millTime := rfl
@[simp] theorem setOverflow_timeSet (i : Nat) (b : Bool) (s : State) : (setOverflow i b s).timeSet = s.timeSet := rfl
@[simp] theorem setOverflow_runState (i : Nat) (b : Bool) (s : State) : (setOverflow i b s).runState = s.runState := rfl
@[simp] theorem setOverflow_startKind (i : Nat) (b : Bool) (s : State) : (setOverflow i b s).startKind = s.startKind := rfl
@[simp] theorem setOverflow_restarts (i : Nat) (b : Bool) (s : State) : (setOverflow i b s).restarts = s.restarts := rfl
@[simp] theorem setOverflow_relay (i : Nat) (b : Bool) (s : State) : (setOverflow i b s).relay = s.relay := rfl
@[simp] theorem setOverflow_plantHold (i : Nat) (b : Bool) (s : State) : (setOverflow i b s).plantHold = s.plantHold := rfl
@[simp] theorem setOverflow_links (i : Nat) (b : Bool) (s : State) : (setOverflow i b s).links = s.links := rfl
@[simp] theorem setOverflow_mask (i : Nat) (b : Bool) (s : State) : (setOverflow i b s).mask = s.mask := rfl
@[simp] theorem setOverflow_lists (i : Nat) (b : Bool) (s : State) : (setOverflow i b s).lists = s.lists := rfl
@[simp] theorem setOverflow_escalation (i : Nat) (b : Bool) (s : State) : (setOverflow i b s).escalation = s.escalation := rfl
@[simp] theorem setOverflow_loads (i : Nat) (b : Bool) (s : State) : (setOverflow i b s).loads = s.loads := rfl
@[simp] theorem setOverflow_operators (i : Nat) (b : Bool) (s : State) : (setOverflow i b s).operators = s.operators := rfl
@[simp] theorem setOverflow_grants (i : Nat) (b : Bool) (s : State) : (setOverflow i b s).grants = s.grants := rfl
@[simp] theorem setOverflow_positions (i : Nat) (b : Bool) (s : State) : (setOverflow i b s).positions = s.positions := rfl
@[simp] theorem setOverflow_areas (i : Nat) (b : Bool) (s : State) : (setOverflow i b s).areas = s.areas := rfl
@[simp] theorem setOverflow_bypasses (i : Nat) (b : Bool) (s : State) : (setOverflow i b s).bypasses = s.bypasses := rfl
@[simp] theorem setOverflow_journal (i : Nat) (b : Bool) (s : State) : (setOverflow i b s).journal = s.journal := rfl
@[simp] theorem setOverflow_nextSeq (i : Nat) (b : Bool) (s : State) : (setOverflow i b s).nextSeq = s.nextSeq := rfl
@[simp] theorem setOverflow_free (i : Nat) (b : Bool) (s : State) : (setOverflow i b s).free = s.free := rfl
@[simp] theorem setOverflow_pending (i : Nat) (b : Bool) (s : State) : (setOverflow i b s).pending = s.pending := rfl

@[simp] theorem setEngagement_millTime (o : Nat) (e : Option (Pos × Role)) (s : State) : (setEngagement o e s).millTime = s.millTime := rfl
@[simp] theorem setEngagement_timeSet (o : Nat) (e : Option (Pos × Role)) (s : State) : (setEngagement o e s).timeSet = s.timeSet := rfl
@[simp] theorem setEngagement_runState (o : Nat) (e : Option (Pos × Role)) (s : State) : (setEngagement o e s).runState = s.runState := rfl
@[simp] theorem setEngagement_startKind (o : Nat) (e : Option (Pos × Role)) (s : State) : (setEngagement o e s).startKind = s.startKind := rfl
@[simp] theorem setEngagement_restarts (o : Nat) (e : Option (Pos × Role)) (s : State) : (setEngagement o e s).restarts = s.restarts := rfl
@[simp] theorem setEngagement_relay (o : Nat) (e : Option (Pos × Role)) (s : State) : (setEngagement o e s).relay = s.relay := rfl
@[simp] theorem setEngagement_plantHold (o : Nat) (e : Option (Pos × Role)) (s : State) : (setEngagement o e s).plantHold = s.plantHold := rfl
@[simp] theorem setEngagement_links (o : Nat) (e : Option (Pos × Role)) (s : State) : (setEngagement o e s).links = s.links := rfl
@[simp] theorem setEngagement_alarms (o : Nat) (e : Option (Pos × Role)) (s : State) : (setEngagement o e s).alarms = s.alarms := rfl
@[simp] theorem setEngagement_mask (o : Nat) (e : Option (Pos × Role)) (s : State) : (setEngagement o e s).mask = s.mask := rfl
@[simp] theorem setEngagement_lists (o : Nat) (e : Option (Pos × Role)) (s : State) : (setEngagement o e s).lists = s.lists := rfl
@[simp] theorem setEngagement_escalation (o : Nat) (e : Option (Pos × Role)) (s : State) : (setEngagement o e s).escalation = s.escalation := rfl
@[simp] theorem setEngagement_loads (o : Nat) (e : Option (Pos × Role)) (s : State) : (setEngagement o e s).loads = s.loads := rfl
@[simp] theorem setEngagement_grants (o : Nat) (e : Option (Pos × Role)) (s : State) : (setEngagement o e s).grants = s.grants := rfl
@[simp] theorem setEngagement_positions (o : Nat) (e : Option (Pos × Role)) (s : State) : (setEngagement o e s).positions = s.positions := rfl
@[simp] theorem setEngagement_areas (o : Nat) (e : Option (Pos × Role)) (s : State) : (setEngagement o e s).areas = s.areas := rfl
@[simp] theorem setEngagement_bypasses (o : Nat) (e : Option (Pos × Role)) (s : State) : (setEngagement o e s).bypasses = s.bypasses := rfl
@[simp] theorem setEngagement_journal (o : Nat) (e : Option (Pos × Role)) (s : State) : (setEngagement o e s).journal = s.journal := rfl
@[simp] theorem setEngagement_nextSeq (o : Nat) (e : Option (Pos × Role)) (s : State) : (setEngagement o e s).nextSeq = s.nextSeq := rfl
@[simp] theorem setEngagement_free (o : Nat) (e : Option (Pos × Role)) (s : State) : (setEngagement o e s).free = s.free := rfl
@[simp] theorem setEngagement_pending (o : Nat) (e : Option (Pos × Role)) (s : State) : (setEngagement o e s).pending = s.pending := rfl

@[simp] theorem reply_millTime (h : Header) (k : Kind) (a : Answer) (s : State) : (reply h k a s).millTime = s.millTime := rfl
@[simp] theorem reply_timeSet (h : Header) (k : Kind) (a : Answer) (s : State) : (reply h k a s).timeSet = s.timeSet := rfl
@[simp] theorem reply_runState (h : Header) (k : Kind) (a : Answer) (s : State) : (reply h k a s).runState = s.runState := rfl
@[simp] theorem reply_startKind (h : Header) (k : Kind) (a : Answer) (s : State) : (reply h k a s).startKind = s.startKind := rfl
@[simp] theorem reply_restarts (h : Header) (k : Kind) (a : Answer) (s : State) : (reply h k a s).restarts = s.restarts := rfl
@[simp] theorem reply_relay (h : Header) (k : Kind) (a : Answer) (s : State) : (reply h k a s).relay = s.relay := rfl
@[simp] theorem reply_plantHold (h : Header) (k : Kind) (a : Answer) (s : State) : (reply h k a s).plantHold = s.plantHold := rfl
@[simp] theorem reply_alarms (h : Header) (k : Kind) (a : Answer) (s : State) : (reply h k a s).alarms = s.alarms := rfl
@[simp] theorem reply_mask (h : Header) (k : Kind) (a : Answer) (s : State) : (reply h k a s).mask = s.mask := rfl
@[simp] theorem reply_lists (h : Header) (k : Kind) (a : Answer) (s : State) : (reply h k a s).lists = s.lists := rfl
@[simp] theorem reply_escalation (h : Header) (k : Kind) (a : Answer) (s : State) : (reply h k a s).escalation = s.escalation := rfl
@[simp] theorem reply_loads (h : Header) (k : Kind) (a : Answer) (s : State) : (reply h k a s).loads = s.loads := rfl
@[simp] theorem reply_operators (h : Header) (k : Kind) (a : Answer) (s : State) : (reply h k a s).operators = s.operators := rfl
@[simp] theorem reply_grants (h : Header) (k : Kind) (a : Answer) (s : State) : (reply h k a s).grants = s.grants := rfl
@[simp] theorem reply_positions (h : Header) (k : Kind) (a : Answer) (s : State) : (reply h k a s).positions = s.positions := rfl
@[simp] theorem reply_areas (h : Header) (k : Kind) (a : Answer) (s : State) : (reply h k a s).areas = s.areas := rfl
@[simp] theorem reply_bypasses (h : Header) (k : Kind) (a : Answer) (s : State) : (reply h k a s).bypasses = s.bypasses := rfl
@[simp] theorem reply_journal (h : Header) (k : Kind) (a : Answer) (s : State) : (reply h k a s).journal = s.journal := rfl
@[simp] theorem reply_nextSeq (h : Header) (k : Kind) (a : Answer) (s : State) : (reply h k a s).nextSeq = s.nextSeq := rfl
@[simp] theorem reply_free (h : Header) (k : Kind) (a : Answer) (s : State) : (reply h k a s).free = s.free := rfl
@[simp] theorem reply_pending (h : Header) (k : Kind) (a : Answer) (s : State) : (reply h k a s).pending = s.pending := rfl

@[simp] theorem itemNotice_millTime (p : Pos) (it : Item) (s : State) : (itemNotice p it s).millTime = s.millTime := rfl
@[simp] theorem itemNotice_timeSet (p : Pos) (it : Item) (s : State) : (itemNotice p it s).timeSet = s.timeSet := rfl
@[simp] theorem itemNotice_runState (p : Pos) (it : Item) (s : State) : (itemNotice p it s).runState = s.runState := rfl
@[simp] theorem itemNotice_startKind (p : Pos) (it : Item) (s : State) : (itemNotice p it s).startKind = s.startKind := rfl
@[simp] theorem itemNotice_restarts (p : Pos) (it : Item) (s : State) : (itemNotice p it s).restarts = s.restarts := rfl
@[simp] theorem itemNotice_relay (p : Pos) (it : Item) (s : State) : (itemNotice p it s).relay = s.relay := rfl
@[simp] theorem itemNotice_plantHold (p : Pos) (it : Item) (s : State) : (itemNotice p it s).plantHold = s.plantHold := rfl
@[simp] theorem itemNotice_alarms (p : Pos) (it : Item) (s : State) : (itemNotice p it s).alarms = s.alarms := rfl
@[simp] theorem itemNotice_mask (p : Pos) (it : Item) (s : State) : (itemNotice p it s).mask = s.mask := rfl
@[simp] theorem itemNotice_lists (p : Pos) (it : Item) (s : State) : (itemNotice p it s).lists = s.lists := rfl
@[simp] theorem itemNotice_escalation (p : Pos) (it : Item) (s : State) : (itemNotice p it s).escalation = s.escalation := rfl
@[simp] theorem itemNotice_loads (p : Pos) (it : Item) (s : State) : (itemNotice p it s).loads = s.loads := rfl
@[simp] theorem itemNotice_operators (p : Pos) (it : Item) (s : State) : (itemNotice p it s).operators = s.operators := rfl
@[simp] theorem itemNotice_grants (p : Pos) (it : Item) (s : State) : (itemNotice p it s).grants = s.grants := rfl
@[simp] theorem itemNotice_positions (p : Pos) (it : Item) (s : State) : (itemNotice p it s).positions = s.positions := rfl
@[simp] theorem itemNotice_areas (p : Pos) (it : Item) (s : State) : (itemNotice p it s).areas = s.areas := rfl
@[simp] theorem itemNotice_bypasses (p : Pos) (it : Item) (s : State) : (itemNotice p it s).bypasses = s.bypasses := rfl
@[simp] theorem itemNotice_journal (p : Pos) (it : Item) (s : State) : (itemNotice p it s).journal = s.journal := rfl
@[simp] theorem itemNotice_nextSeq (p : Pos) (it : Item) (s : State) : (itemNotice p it s).nextSeq = s.nextSeq := rfl
@[simp] theorem itemNotice_free (p : Pos) (it : Item) (s : State) : (itemNotice p it s).free = s.free := rfl
@[simp] theorem itemNotice_pending (p : Pos) (it : Item) (s : State) : (itemNotice p it s).pending = s.pending := rfl

@[simp] theorem floodEnterLists_millTime (p : Pos) (s : State) : (floodEnterLists p s).millTime = s.millTime := rfl
@[simp] theorem floodEnterLists_timeSet (p : Pos) (s : State) : (floodEnterLists p s).timeSet = s.timeSet := rfl
@[simp] theorem floodEnterLists_runState (p : Pos) (s : State) : (floodEnterLists p s).runState = s.runState := rfl
@[simp] theorem floodEnterLists_startKind (p : Pos) (s : State) : (floodEnterLists p s).startKind = s.startKind := rfl
@[simp] theorem floodEnterLists_restarts (p : Pos) (s : State) : (floodEnterLists p s).restarts = s.restarts := rfl
@[simp] theorem floodEnterLists_relay (p : Pos) (s : State) : (floodEnterLists p s).relay = s.relay := rfl
@[simp] theorem floodEnterLists_plantHold (p : Pos) (s : State) : (floodEnterLists p s).plantHold = s.plantHold := rfl
@[simp] theorem floodEnterLists_links (p : Pos) (s : State) : (floodEnterLists p s).links = s.links := rfl
@[simp] theorem floodEnterLists_alarms (p : Pos) (s : State) : (floodEnterLists p s).alarms = s.alarms := rfl
@[simp] theorem floodEnterLists_mask (p : Pos) (s : State) : (floodEnterLists p s).mask = s.mask := rfl
@[simp] theorem floodEnterLists_escalation (p : Pos) (s : State) : (floodEnterLists p s).escalation = s.escalation := rfl
@[simp] theorem floodEnterLists_loads (p : Pos) (s : State) : (floodEnterLists p s).loads = s.loads := rfl
@[simp] theorem floodEnterLists_operators (p : Pos) (s : State) : (floodEnterLists p s).operators = s.operators := rfl
@[simp] theorem floodEnterLists_grants (p : Pos) (s : State) : (floodEnterLists p s).grants = s.grants := rfl
@[simp] theorem floodEnterLists_positions (p : Pos) (s : State) : (floodEnterLists p s).positions = s.positions := rfl
@[simp] theorem floodEnterLists_areas (p : Pos) (s : State) : (floodEnterLists p s).areas = s.areas := rfl
@[simp] theorem floodEnterLists_bypasses (p : Pos) (s : State) : (floodEnterLists p s).bypasses = s.bypasses := rfl
@[simp] theorem floodEnterLists_journal (p : Pos) (s : State) : (floodEnterLists p s).journal = s.journal := rfl
@[simp] theorem floodEnterLists_nextSeq (p : Pos) (s : State) : (floodEnterLists p s).nextSeq = s.nextSeq := rfl
@[simp] theorem floodEnterLists_free (p : Pos) (s : State) : (floodEnterLists p s).free = s.free := rfl
@[simp] theorem floodEnterLists_pending (p : Pos) (s : State) : (floodEnterLists p s).pending = s.pending := rfl

end Sys2Proof.Machine
end

