-- ==== Sys2Proof/Laws/Tables.lean ====
section
/-! SUPPORT. The laws of the numbered tables (alarms, operators, grants, bypasses): a read after a write, and that every
operation keeps the canonical form, in which equal tables are equal data. -/

namespace Sys2Proof.Machine

variable {α : Type}

@[simp] theorem Table.get?_nil (i : Nat) : Table.get? ([] : Table α) i = none := rfl

theorem Table.get?_cons (j i : Nat) (x : α) (t : Table α) :
    Table.get? ((j, x) :: t) i = if j = i then some x else Table.get? t i := rfl

@[simp] theorem Table.get?_insert_self (t : Table α) (i : Nat) (x : α) : (t.insert i x).get? i = some x := by
  induction t with
  | nil => simp [Table.insert, Table.get?]
  | cons e t ih =>
    obtain ⟨j, y⟩ := e
    simp only [Table.insert]
    split
    · simp [Table.get?]
    · split
      · simp [Table.get?]
      · simp only [Table.get?_cons, ih]
        split
        · omega
        · rfl

theorem Table.get?_insert_ne (t : Table α) {i k : Nat} (x : α) (h : k ≠ i) : (t.insert i x).get? k = t.get? k := by
  induction t with
  | nil => simp [Table.insert, Table.get?, Ne.symm h]
  | cons e t ih =>
    obtain ⟨j, y⟩ := e
    simp only [Table.insert]
    split
    · simp [Table.get?_cons, Ne.symm h]
    · split
      · subst_vars; simp [Table.get?_cons, Ne.symm h]
      · simp only [Table.get?_cons, ih]

@[simp] theorem Table.get?_erase_self (t : Table α) (i : Nat) : (t.erase i).get? i = none := by
  induction t with
  | nil => rfl
  | cons e t ih =>
    obtain ⟨j, y⟩ := e
    by_cases h : j = i
    · simpa [Table.erase, h] using ih
    · simpa [Table.erase, h, Table.get?_cons] using ih

theorem Table.get?_erase_ne (t : Table α) {i k : Nat} (h : k ≠ i) : (t.erase i).get? k = t.get? k := by
  induction t with
  | nil => rfl
  | cons e t ih =>
    obtain ⟨j, y⟩ := e
    by_cases hj : j = i
    · subst hj
      simpa [Table.erase, Table.get?_cons, Ne.symm h] using ih
    · by_cases hk : j = k
      · simp [Table.erase, Table.get?_cons, hk, h]
      · simpa [Table.erase, Table.get?_cons, hj, hk] using ih

theorem Table.get?_modify (t : Table α) (i k : Nat) (f : α → α) :
    (t.modify i f).get? k = if k = i then (t.get? i).map f else t.get? k := by
  simp only [Table.modify]
  split <;> rename_i h
  · split
    · subst k; simp [h]
    · exact Table.get?_insert_ne t _ ‹_›
  · split
    · subst k; simp [h]
    · rfl

@[simp] theorem Table.get?_modify_self (t : Table α) (i : Nat) (f : α → α) : (t.modify i f).get? i = (t.get? i).map f := by
  simp [Table.get?_modify]

theorem Table.get?_modify_ne (t : Table α) {i k : Nat} (f : α → α) (h : k ≠ i) : (t.modify i f).get? k = t.get? k := by
  simp [Table.get?_modify, h]

/-- A function of the records alone maps the record that a number reads. -/
theorem Table.get?_map {β : Type} (t : Table α) (f : α → β) (i : Nat) :
    Table.get? (t.map fun e => (e.1, f e.2)) i = (t.get? i).map f := by
  induction t with
  | nil => rfl
  | cons e t ih =>
    obtain ⟨j, y⟩ := e
    by_cases h : j = i
    · simp [Table.get?_cons, h]
    · simpa [Table.get?_cons, h] using ih

theorem Table.mem_of_get? {t : Table α} {i : Nat} {x : α} (h : t.get? i = some x) : (i, x) ∈ t := by
  induction t with
  | nil => simp at h
  | cons e t ih =>
    obtain ⟨j, y⟩ := e
    rw [Table.get?_cons] at h
    split at h
    · simp_all
    · exact List.mem_cons_of_mem _ (ih h)

/-! ### The canonical form -/

theorem Table.wf_iff (t : Table α) : t.wf = true ↔ (t.map Prod.fst).Pairwise (· < ·) := by simp [Table.wf]

@[simp] theorem Table.wf_nil : Table.wf ([] : Table α) = true := by simp [Table.wf]

theorem Table.wf_cons (j : Nat) (x : α) (t : Table α) :
    Table.wf ((j, x) :: t) = true ↔ (∀ e ∈ t, j < e.1) ∧ t.wf = true := by
  simp [Table.wf_iff]

/-- The numbers of a table after an insertion are those it had and the one inserted. -/
theorem Table.mem_fst_insert (t : Table α) (i : Nat) (x : α) (n : Nat) (h : n ∈ (t.insert i x).map Prod.fst) :
    n = i ∨ n ∈ t.map Prod.fst := by
  induction t with
  | nil => simpa [Table.insert] using h
  | cons e t ih =>
    obtain ⟨j, y⟩ := e
    simp only [Table.insert] at h
    split at h
    · simpa using h
    · split at h
      · simp only [List.map_cons, List.mem_cons] at h ⊢; tauto
      · simp only [List.map_cons, List.mem_cons] at h ⊢
        rcases h with h | h
        · tauto
        · rcases ih h with h | h <;> tauto

theorem Table.wf_insert {t : Table α} (h : t.wf = true) (i : Nat) (x : α) : (t.insert i x).wf = true := by
  induction t with
  | nil => simp [Table.insert, Table.wf]
  | cons e t ih =>
    obtain ⟨j, y⟩ := e
    obtain ⟨hj, ht⟩ := (Table.wf_cons j y t).1 h
    simp only [Table.insert]
    split
    · refine (Table.wf_cons ..).2 ⟨?_, h⟩
      intro e he
      rcases List.mem_cons.1 he with rfl | he
      · assumption
      · have := hj e he; omega
    · split
      · subst_vars; exact (Table.wf_cons ..).2 ⟨hj, ht⟩
      · refine (Table.wf_cons ..).2 ⟨?_, ih ht⟩
        intro e he
        rcases Table.mem_fst_insert t i x e.1 (List.mem_map_of_mem he) with h1 | h1
        · omega
        · obtain ⟨e', he', h2⟩ := List.mem_map.1 h1
          rw [← h2]; exact hj e' he'

theorem Table.wf_erase {t : Table α} (h : t.wf = true) (i : Nat) : (t.erase i).wf = true := by
  rw [Table.wf_iff] at h ⊢
  exact h.sublist ((List.filter_sublist).map _)

theorem Table.wf_modify {t : Table α} (h : t.wf = true) (i : Nat) (f : α → α) : (t.modify i f).wf = true := by
  simp only [Table.modify]
  split
  · exact Table.wf_insert h _ _
  · exact h

theorem Table.wf_map {β : Type} {t : Table α} (h : t.wf = true) (f : α → β) : Table.wf (t.map fun e => (e.1, f e.2)) = true := by
  rw [Table.wf_iff] at h ⊢
  simpa [List.map_map, Function.comp_def] using h

/-- In a table in canonical form, a number reads the one record listed with it. -/
theorem Table.get?_of_mem {t : Table α} (h : t.wf = true) {i : Nat} {x : α} (hm : (i, x) ∈ t) : t.get? i = some x := by
  induction t with
  | nil => simp at hm
  | cons e t ih =>
    obtain ⟨j, y⟩ := e
    obtain ⟨hj, ht⟩ := (Table.wf_cons j y t).1 h
    rw [Table.get?_cons]
    rcases List.mem_cons.1 hm with h1 | h1
    · simp_all
    · have := hj _ h1
      simp only at this
      rw [if_neg (by omega)]
      exact ih ht h1

/-- An empty slot found is below the bound, is empty, and no lower slot is. -/
theorem freeSlot?_some {slots n : Nat} {t : Table α} (h : freeSlot? slots t = some n) :
    n < slots ∧ t.get? n = none ∧ ∀ m, m < n → t.get? m ≠ none := by
  rw [freeSlot?, List.find?_range_eq_some] at h
  simpa [and_comm, and_assoc, and_left_comm, Option.isSome_iff_ne_none] using h

end Sys2Proof.Machine
end

