-- ==== Sys2Proof/Laws/Kept.lean ====
section
/-! SUPPORT. For every shared operation, which parts of the state it may change, and that of the links it changes at most
the queues: one lemma each, so that the frame of a meaning follows from the operations it is written over. -/

namespace Sys2Proof.Machine

/-! ### The algebra of `Kept` -/

theorem Agrees.refl (s : State) (p : Part) : Agrees s s p := by cases p <;> simp [Agrees]

theorem Agrees.trans {s t u : State} {p : Part} (h : Agrees s t p) (k : Agrees t u p) : Agrees s u p := by
  cases p <;> simp_all [Agrees]

theorem Kept.refl (ps : List Part) (s : State) : Kept ps s s := ⟨fun p _ => Agrees.refl s p⟩

theorem Kept.trans {ps : List Part} {s t u : State} (h : Kept ps s t) (k : Kept ps t u) : Kept ps s u :=
  ⟨fun p hp => (h.agrees p hp).trans (k.agrees p hp)⟩

theorem Kept.mono {ps qs : List Part} {s t : State} (h : Kept ps s t) (hs : ∀ p ∈ ps, p ∈ qs) : Kept qs s t :=
  ⟨fun p hp => h.agrees p fun hm => hp (hs p hm)⟩

/-- Two changes of parts, one after the other. -/
theorem Kept.comp {ps qs rs : List Part} {s t u : State} (h : Kept ps s t) (k : Kept qs t u) (hp : ∀ p ∈ ps, p ∈ rs)
    (hq : ∀ p ∈ qs, p ∈ rs) : Kept rs s u := (h.mono hp).trans (k.mono hq)

/-- A choice between two changes. -/
theorem Kept.ite {ps : List Part} {s t u : State} {c : Prop} [Decidable c] (h : c → Kept ps s t) (k : ¬c → Kept ps s u) :
    Kept ps s (if c then t else u) := by
  split
  · exact h ‹_›
  · exact k ‹_›

/-- A change made only where a condition fails. -/
theorem Kept.unless {ps : List Part} {t u : State} {c : Prop} [Decidable c] (k : Kept ps t u) :
    Kept ps t (if c then t else u) := .ite (fun _ => .refl ..) fun _ => k

/-- A change made only where a condition holds. -/
theorem Kept.when {ps : List Part} {t u : State} {c : Prop} [Decidable c] (k : Kept ps t u) :
    Kept ps t (if c then u else t) := .ite (fun _ => k) fun _ => .refl ..

/-! ### Work that sends nothing -/

/-- Work inside the blocks: it changes only the parts `ps`, and of a link only what waits in its queue. -/
structure Quiet (ps : List Part) (s t : State) : Prop where
  kept : Kept ps s t
  links : ∀ l, ∃ q d, t.links.get l = { s.links.get l with queue := q, snapshotDue := d }

theorem Quiet.of {ps : List Part} {s t : State} (h : Kept ps s t) (hl : t.links = s.links) : Quiet ps s t :=
  ⟨h, fun l => ⟨(s.links.get l).queue, (s.links.get l).snapshotDue, by rw [hl]⟩⟩

theorem Quiet.refl (ps : List Part) (s : State) : Quiet ps s s := .of (.refl ps s) rfl

theorem Quiet.trans {ps : List Part} {s t u : State} (h : Quiet ps s t) (k : Quiet ps t u) : Quiet ps s u := by
  refine ⟨h.kept.trans k.kept, fun l => ?_⟩
  obtain ⟨q, d, h⟩ := h.links l
  obtain ⟨q', d', k⟩ := k.links l
  exact ⟨q', d', by rw [k, h]⟩

theorem Quiet.mono {ps qs : List Part} {s t : State} (h : Quiet ps s t) (hs : ∀ p ∈ ps, p ∈ qs) : Quiet qs s t :=
  ⟨h.kept.mono hs, h.links⟩

theorem Quiet.comp {ps qs rs : List Part} {s t u : State} (h : Quiet ps s t) (k : Quiet qs t u) (hp : ∀ p ∈ ps, p ∈ rs)
    (hq : ∀ p ∈ qs, p ∈ rs) : Quiet rs s u := (h.mono hp).trans (k.mono hq)

theorem Quiet.ite {ps : List Part} {s t u : State} {c : Prop} [Decidable c] (h : c → Quiet ps s t) (k : ¬c → Quiet ps s u) :
    Quiet ps s (if c then t else u) := by
  split
  · exact h ‹_›
  · exact k ‹_›

theorem Quiet.unless {ps : List Part} {t u : State} {c : Prop} [Decidable c] (k : Quiet ps t u) :
    Quiet ps t (if c then t else u) := .ite (fun _ => .refl ..) fun _ => k

theorem Quiet.when {ps : List Part} {t u : State} {c : Prop} [Decidable c] (k : Quiet ps t u) :
    Quiet ps t (if c then u else t) := .ite (fun _ => k) fun _ => .refl ..

/-! ### Updates of one record -/

section records
variable (s : State)

theorem kept_modLink (l : Link) (f : LinkState → LinkState) : Kept [.links] s (modLink l f s) :=
  ⟨fun p hp => by cases p <;> simp_all [Agrees]⟩
theorem quiet_modLists (p : Pos) (f : PosLists → PosLists) : Quiet [.lists] s (modLists p f s) :=
  .of ⟨fun p hp => by cases p <;> simp_all [Agrees]⟩ rfl
theorem quiet_modLoad (p : Pos) (f : PosLoad → PosLoad) : Quiet [.loads] s (modLoad p f s) :=
  .of ⟨fun p hp => by cases p <;> simp_all [Agrees]⟩ rfl
theorem quiet_modPos (p : Pos) (f : PosContext → PosContext) : Quiet [.positions] s (modPos p f s) :=
  .of ⟨fun p hp => by cases p <;> simp_all [Agrees]⟩ rfl
theorem quiet_modAlarm (i : Nat) (f : Alarm → Alarm) : Quiet [.alarms] s (modAlarm i f s) :=
  .of ⟨fun p hp => by cases p <;> simp_all [Agrees]⟩ rfl
theorem quiet_modDyn (i : Nat) (f : AlarmDyn → AlarmDyn) : Quiet [.alarms] s (modDyn i f s) := quiet_modAlarm s i _
theorem quiet_modOperator (o : Nat) (f : Operator → Operator) : Quiet [.operators] s (modOperator o f s) :=
  .of ⟨fun p hp => by cases p <;> simp_all [Agrees]⟩ rfl
theorem quiet_append (k : EntryKind) (p : Option Pos) (o i : Option Nat) (d : Nat) : Quiet [.journal] s (append k p o i d s) :=
  .of ⟨fun p hp => by cases p <;> simp_all [Agrees]⟩ rfl
theorem quiet_alarms (t : Table Alarm) : Quiet [.alarms] s { s with alarms := t } :=
  .of ⟨fun p hp => by cases p <;> simp_all [Agrees]⟩ rfl
theorem quiet_escalation (l : List ListEntry) : Quiet [.escalation] s { s with escalation := l } :=
  .of ⟨fun p hp => by cases p <;> simp_all [Agrees]⟩ rfl
theorem quiet_grants (t : Table Grant) : Quiet [.grants] s { s with grants := t } :=
  .of ⟨fun p hp => by cases p <;> simp_all [Agrees]⟩ rfl
theorem quiet_operators (t : Table Operator) : Quiet [.operators] s { s with operators := t } :=
  .of ⟨fun p hp => by cases p <;> simp_all [Agrees]⟩ rfl
theorem quiet_free (n : Nat) : Quiet [.free] s { s with free := n } :=
  .of ⟨fun p hp => by cases p <;> simp_all [Agrees]⟩ rfl
theorem quiet_relay (b : Bool) : Quiet [.device] s { s with relay := b } :=
  .of ⟨fun p hp => by cases p <;> simp_all [Agrees]⟩ rfl

end records

/-! ### LIU -/

section liu
variable (s : State)

/-- R169: a notice that joins a queue changes the queue and SNAPSHOT_DUE of its link alone. -/
theorem LinkState.join_fields (c : Bool) (n : Notice) (k : LinkState) :
    k.join c n = { k with queue := (k.join c n).queue, snapshotDue := (k.join c n).snapshotDue } := by
  simp only [LinkState.join]
  repeat' split
  all_goals rfl

theorem quiet_notify (l : Link) (n : Notice) : Quiet [.links] s (notify l n s) := by
  refine ⟨kept_modLink s l _, fun m => ?_⟩
  rw [notify, modLink_get]
  split
  · subst m; exact ⟨_, _, LinkState.join_fields ..⟩
  · exact ⟨_, _, rfl⟩

theorem quiet_notifyBoth (p : Pos) (n : Notice) : Quiet [.links] s (notifyBoth p n s) := by
  unfold notifyBoth
  exact .ite (fun _ => quiet_notify ..) fun _ => (quiet_notify ..).trans (quiet_notify ..)

theorem quiet_routeFault (l : Link) (c : List Link) : Quiet [.links, .journal, .device] s (routeFault l c s) := by
  unfold routeFault
  split
  · exact (quiet_notify ..).mono (by simp)
  · exact .ite (fun _ => .refl ..) fun _ => (quiet_relay s true).comp (quiet_append ..) (by simp) (by simp)

theorem kept_startNext (l : Link) : Kept [.links] s (startNext l s) := by
  simp only [startNext]
  refine .ite (fun _ => .refl ..) fun _ => ?_
  split
  · exact kept_modLink ..
  · refine .ite (fun _ => .refl ..) fun _ => ?_
    split
    · exact kept_modLink ..
    · exact kept_modLink ..
    · exact kept_modLink ..
    · exact .refl ..

theorem kept_settleLink (l : Link) : Kept [.links] s (settleLink s l) := by
  simp only [settleLink]
  exact (kept_startNext s l).trans (kept_modLink ..)

/-- What every link does at the end of a command changes the links alone. -/
theorem kept_foldl_settleLink (ls : List Link) : Kept [.links] s (ls.foldl settleLink s) := by
  induction ls generalizing s with
  | nil => exact .refl ..
  | cons l ls ih => exact (kept_settleLink s l).trans (ih _)

theorem kept_settle : Kept [.links] s (settle s) := kept_foldl_settleLink s _

theorem kept_reply (h : Header) (k : Kind) (a : Answer) : Kept [.links] s (reply h k a s) := kept_modLink ..

theorem kept_takeFrame (l : Link) : Kept [.links] s (takeFrame l s) := kept_modLink ..

end liu

/-! ### PCU: item lists -/

section items
variable (s : State)

theorem quiet_itemNotice (p : Pos) (it : Item) : Quiet [.links] s (itemNotice p it s) := quiet_notify ..

theorem quiet_changeItem (p : Pos) (it : Item) : Quiet [.positions, .links] s (changeItem p it s) :=
  (quiet_modPos ..).comp (quiet_itemNotice ..) (by simp) (by simp)

theorem quiet_appendItem (p : Pos) (k : ItemKind) (v c : Nat) : Quiet [.positions, .links] s (appendItem p k v c s) := by
  unfold appendItem
  exact .ite (fun _ => (quiet_modPos ..).comp (quiet_itemNotice ..) (by simp) (by simp)) fun _ => .refl ..

theorem quiet_raisedCount (c : Nat) : Quiet [.free] s (raisedCount c s).2 := by
  unfold raisedCount
  split
  · exact .refl ..
  · exact quiet_free ..

theorem quiet_raiseItem (p : Pos) (it : Item) : Quiet [.positions, .links, .free] s (raiseItem p it s) :=
  (quiet_raisedCount s it.count).comp (quiet_changeItem ..) (by simp) (by simp)

theorem quiet_raiseSummary (p : Pos) (k : ItemKind) (v : Nat) : Quiet [.positions, .links, .free] s (raiseSummary p k v s) := by
  unfold raiseSummary
  split
  · exact quiet_raiseItem ..
  · exact (quiet_appendItem ..).mono (by simp)

theorem quiet_lowerSummary (p : Pos) (k : ItemKind) : Quiet [.positions, .links] s (lowerSummary p k s) := by
  unfold lowerSummary
  split
  · exact quiet_changeItem ..
  · exact .refl ..

theorem quiet_resolveItem (p : Pos) (k : ItemKind) (v : Nat) : Quiet [.positions, .links] s (resolveItem p k v s) := by
  unfold resolveItem
  split
  · exact quiet_changeItem ..
  · exact .refl ..

theorem quiet_placedReport (p : Pos) (i : Nat) : Quiet [.positions, .links, .free] s (placedReport p i s) := by
  simp only [placedReport]
  refine .ite (fun _ => ?_) fun _ => .refl ..
  refine .trans (quiet_raiseSummary s p _ _) (.ite (fun _ => ?_) fun _ => .refl ..)
  split
  · exact quiet_raiseItem ..
  · exact (quiet_appendItem ..).mono (by simp)

theorem quiet_removedReport (p : Pos) (i : Nat) : Quiet [.positions, .links] s (removedReport p i s) := by
  unfold removedReport
  exact .ite (fun _ => quiet_lowerSummary ..) fun _ => .refl ..

theorem quiet_lifecycleReport (i : Nat) (old new : Lifecycle) :
    Quiet [.positions, .links, .free] s (lifecycleReport i old new s) := by
  simp only [lifecycleReport]
  refine .ite (fun _ => ?_) fun _ => .refl ..
  refine .trans (t := if new = .raised ∨ new = .returned then s else resolveItem (ownerOf s i) .arrival i s)
    (.ite (fun _ => .refl ..) fun _ => (quiet_resolveItem ..).mono (by simp)) ?_
  refine .ite (fun _ => quiet_raiseSummary ..) fun _ => ?_
  exact .ite (fun _ => (quiet_lowerSummary ..).mono (by simp)) fun _ => .refl ..

theorem quiet_shelvedReport (p : Pos) (i e : Nat) (r : Bool) : Quiet [.positions, .links] s (shelvedReport p i e r s) := by
  unfold shelvedReport
  refine .ite (fun _ => .ite (fun _ => ?_) fun _ => quiet_appendItem ..) fun _ => .refl ..
  split
  · exact quiet_changeItem ..
  · exact .refl ..

theorem quiet_shelfEndedReport (p : Pos) (i : Nat) : Quiet [.positions, .links] s (shelfEndedReport p i s) := by
  unfold shelfEndedReport
  exact .ite (fun _ => quiet_resolveItem ..) fun _ => .refl ..

theorem quiet_floodReport (p : Pos) (e : Bool) (l : Nat) : Quiet [.positions, .links] s (floodReport p e l s) := by
  unfold floodReport
  refine .ite (fun _ => ?_) fun _ => .refl ..
  split
  · exact quiet_changeItem ..
  · exact .ite (fun _ => quiet_appendItem ..) fun _ => .refl ..

end items

/-! ### PLU -/

section lists
variable (s : State)

theorem quiet_setReminder (p : Pos) (i : Nat) (r : Option Nat) : Quiet [.lists] s (setReminder p i r s) := quiet_modLists ..

theorem quiet_joinAnn (p : Pos) (i : Nat) (t : Word) : Quiet [.lists, .links] s (joinAnn p i t s) :=
  (quiet_modLists ..).comp (quiet_notify ..) (by simp) (by simp)

theorem quiet_leaveAnn (p : Pos) (i : Nat) : Quiet [.lists] s (leaveAnn p i s) := quiet_modLists ..

theorem quiet_leaveDeferred (p : Pos) (i : Nat) : Quiet [.lists] s (leaveDeferred p i s) := quiet_modLists ..

theorem quiet_setOverflow (i : Nat) (b : Bool) : Quiet [.alarms] s (setOverflow i b s) := quiet_modDyn ..

theorem quiet_joinDeferred (p : Pos) (i : Nat) (t : Word) : Quiet [.alarms, .lists] s (joinDeferred p i t s) := by
  simp only [joinDeferred]
  exact (quiet_setOverflow s i false).comp (quiet_modLists ..) (by simp) (by simp)

theorem quiet_insertDeferred (p : Pos) (i : Nat) (t : Word) : Quiet [.alarms, .lists] s (insertDeferred p i t s) := by
  simp only [insertDeferred]
  refine .ite (fun _ => quiet_joinDeferred ..) fun _ => ?_
  split
  · refine .ite (fun _ => ?_) fun _ => (quiet_setOverflow ..).mono (by simp)
    refine .trans (.trans ((quiet_leaveDeferred s p _).mono (by simp)) ((quiet_setOverflow _ _ true).mono (by simp)))
      (quiet_joinDeferred ..)
  · exact (quiet_setOverflow ..).mono (by simp)

theorem quiet_placeOnLists (p : Pos) (i : Nat) (t : Word) : Quiet [.alarms, .lists, .links] s (placeOnLists p i t s) := by
  simp only [placeOnLists]
  refine .trans ((quiet_modDyn s i fun d => { d with annTime := some t }).mono (by simp)) ?_
  refine .ite (fun _ => (quiet_insertDeferred ..).mono (by simp)) fun _ => ?_
  refine .ite (fun _ => (quiet_joinAnn ..).mono (by simp)) fun _ => ?_
  split
  · refine .ite (fun _ => ?_) fun _ => (quiet_insertDeferred ..).mono (by simp)
    refine .trans (.trans (.trans ((quiet_leaveAnn _ p _).mono (by simp)) ((quiet_notify ..).mono (by simp)))
      ((quiet_insertDeferred ..).mono (by simp))) ((quiet_joinAnn ..).mono (by simp))
  · exact (quiet_insertDeferred ..).mono (by simp)

theorem quiet_judgeHorn (p : Pos) : Quiet [.lists, .links] s (judgeHorn p s) := by
  simp only [judgeHorn]
  exact .ite (fun _ => .refl ..) fun _ => (quiet_modLists ..).comp (quiet_notify ..) (by simp) (by simp)

theorem quiet_promote? (p : Pos) (t : State) (h : promote? p s = some t) : Quiet [.lists, .links] s t := by
  unfold promote? at h
  split at h
  · obtain ⟨e, -, rfl⟩ := Option.map_eq_some_iff.1 h
    exact (quiet_leaveDeferred ..).comp (quiet_joinAnn ..) (by simp) (by simp)
  · cases h

theorem quiet_refill (p : Pos) : Quiet [.alarms, .lists] s (refill p s) := by
  unfold refill
  refine .ite (fun _ => ?_) fun _ => .refl ..
  split
  · exact quiet_joinDeferred ..
  · exact .refl ..

theorem quiet_promotion (p : Pos) : Quiet [.alarms, .lists, .links] s (promotion p s) := by
  unfold promotion
  split
  · exact (quiet_promote? s p _ ‹_›).comp (quiet_refill ..) (by simp) (by simp)
  · exact .refl ..

theorem quiet_promoteAll (n : Nat) (p : Pos) : Quiet [.lists, .links] s (promoteAll n p s) := by
  induction n generalizing s with
  | zero => exact .refl ..
  | succ n ih =>
    unfold promoteAll
    split
    · exact (quiet_promote? s p _ ‹_›).trans (ih _)
    · exact .refl ..

theorem quiet_refillAll (n : Nat) (p : Pos) : Quiet [.alarms, .lists] s (refillAll n p s) := by
  induction n generalizing s with
  | zero => exact .refl ..
  | succ n ih => exact (quiet_refill s p).trans (ih _)

theorem quiet_restoreLists (p : Pos) : Quiet [.alarms, .lists, .links] s (restoreLists p s) :=
  .trans (.trans ((quiet_promoteAll s _ p).mono (by simp)) ((quiet_refillAll _ _ p).mono (by simp)))
    ((quiet_judgeHorn _ p).mono (by simp))

theorem quiet_updateNotice (p : Pos) (i : Nat) : Quiet [.links] s (updateNotice p i s) := by
  unfold updateNotice
  split
  · exact quiet_notify ..
  · exact .refl ..

theorem quiet_returnReport (i : Nat) : Quiet [.lists, .links] s (returnReport i s) := by
  simp only [returnReport]
  refine .ite (fun _ => ?_) fun _ => .refl ..
  exact .trans (.trans ((quiet_setReminder s _ i none).mono (by simp)) ((quiet_updateNotice ..).mono (by simp)))
    (quiet_judgeHorn ..)

end lists

/-! ### LDU -/

section load
variable (s : State)

theorem quiet_floodLists (p : Pos) (on : Bool) :
    Quiet [.alarms, .lists, .links] s (if on then floodEnterLists p s else floodLeaveLists p s) := by
  refine .ite (fun _ => (quiet_modLists ..).mono (by simp)) fun _ => ?_
  exact .trans ((quiet_modLists s p _).mono (by simp)) (quiet_restoreLists ..)

theorem quiet_floodTurned (p : Pos) (on : Bool) :
    Quiet [.alarms, .lists, .links, .loads, .journal, .positions] s (floodTurned p on s) := by
  simp only [floodTurned]
  refine .trans (.trans (.trans (.trans ((quiet_modLoad s p fun d => { d with flood := on }).mono (by simp))
    ((quiet_append ..).mono (by simp))) ((quiet_notifyBoth ..).mono (by simp))) ((quiet_floodLists _ p on).mono (by simp)))
    ((quiet_floodReport ..).mono (by simp))

theorem quiet_evaluateFlood (p : Pos) :
    Quiet [.alarms, .lists, .links, .loads, .journal, .positions] s (evaluateFlood p s) := by
  simp only [evaluateFlood]
  exact .ite (fun _ => quiet_floodTurned ..) fun _ => .ite (fun _ => quiet_floodTurned ..) fun _ => .refl ..

theorem quiet_addLoad (p : Pos) (w : Nat) :
    Quiet [.alarms, .lists, .links, .loads, .journal, .positions] s (addLoad p w s) :=
  ((quiet_modLoad ..).mono (by simp)).trans (quiet_evaluateFlood ..)

end load

/-! ### PLU: reports, and the escalation list -/

section reports
variable (s : State)

theorem quiet_placeReport (i : Nat) (w : Bool) :
    Quiet [.alarms, .lists, .links, .loads, .journal, .positions, .free] s (placeReport i w s) := by
  simp only [placeReport]
  refine .trans (.trans (.trans ((quiet_placeOnLists s _ i _).mono (by simp)) ((quiet_judgeHorn _ (ownerOf s i)).mono (by simp)))
    (.ite (fun _ => (quiet_addLoad ..).mono (by simp)) fun _ => .refl ..)) ((quiet_placedReport ..).mono (by simp))

/-- A placement without weight leaves the loads and the journal. -/
theorem quiet_placeReport_unweighted (i : Nat) :
    Quiet [.alarms, .lists, .links, .positions, .free] s (placeReport i false s) := by
  simp only [placeReport, Bool.false_eq_true, if_false]
  exact .trans (.trans ((quiet_placeOnLists s _ i _).mono (by simp)) ((quiet_judgeHorn _ (ownerOf s i)).mono (by simp)))
    ((quiet_placedReport ..).mono (by simp))

theorem quiet_reraiseReport (i : Nat) (w : Bool) :
    Quiet [.alarms, .lists, .links, .loads, .journal, .positions] s (reraiseReport i w s) := by
  simp only [reraiseReport]
  refine .trans (t := if onAnn s (ownerOf s i) i = true then _ else s) (.ite (fun _ => ?_) fun _ => .refl ..)
    (.ite (fun _ => quiet_addLoad ..) fun _ => .refl ..)
  refine .trans (.trans (.trans ((quiet_modLists s (ownerOf s i) _).mono (by simp)) ((quiet_setReminder ..).mono (by simp)))
    ((quiet_updateNotice ..).mono (by simp))) ((quiet_judgeHorn ..).mono (by simp))

theorem quiet_escalateNotice (i : Nat) (left : Option Reason) : Quiet [.links] s (escalateNotice i left s) := quiet_notify ..

theorem quiet_leaveEscalation (i : Nat) (r : Reason) : Quiet [.escalation, .alarms, .links] s (leaveEscalation i r s) :=
  .trans (.trans ((quiet_escalation s _).mono (by simp)) ((quiet_modDyn ..).mono (by simp)))
    ((quiet_escalateNotice ..).mono (by simp))

theorem quiet_enterEscalation (i : Nat) : Quiet [.escalation, .alarms, .journal, .links] s (enterEscalation i s) :=
  .trans (.trans (.trans ((quiet_escalation s _).mono (by simp)) ((quiet_modDyn ..).mono (by simp)))
    ((quiet_append ..).mono (by simp))) ((quiet_escalateNotice ..).mono (by simp))

theorem quiet_escalate (i : Nat) : Quiet [.escalation, .alarms, .journal, .links] s (escalate i s) := by
  simp only [escalate]
  refine .ite (fun _ => quiet_enterEscalation ..) fun _ => ?_
  split
  · refine .ite (fun _ => ?_) fun _ => (quiet_modDyn ..).mono (by simp)
    exact .trans (.trans ((quiet_modDyn s _ _).mono (by simp)) ((quiet_leaveEscalation ..).mono (by simp)))
      (quiet_enterEscalation ..)
  · exact .refl ..

theorem quiet_removeReport (i : Nat) (r : Reason) :
    Quiet [.alarms, .lists, .escalation, .positions, .links] s (removeReport i r s) := by
  simp only [removeReport]
  refine .trans (.trans (.trans (?_ : Quiet _ s _) ((quiet_modDyn ..).mono (by simp)))
    (.ite (fun _ => (quiet_leaveEscalation ..).mono (by simp)) fun _ => .refl ..))
    (.ite (fun _ => (quiet_removedReport ..).mono (by simp)) fun _ => .refl ..)
  refine .ite (fun _ => ?_) fun _ => .ite (fun _ => ?_) fun _ => .refl ..
  · exact .trans (.trans (.trans ((quiet_leaveAnn s _ i).mono (by simp)) ((quiet_notify ..).mono (by simp)))
      ((quiet_promotion ..).mono (by simp))) ((quiet_judgeHorn ..).mono (by simp))
  · exact .trans ((quiet_leaveDeferred s _ i).mono (by simp)) ((quiet_refill ..).mono (by simp))

end reports

/-! ### ATU -/

section atu
variable (s : State)

theorem quiet_raiseAlarm (i : Nat) (e : Bool) :
    Quiet [.alarms, .lists, .loads, .positions, .journal, .links, .free] s (raiseAlarm i e s) := by
  simp only [raiseAlarm]
  refine .trans ((quiet_modDyn s i fun d => { d with input := .active }).mono (by simp)) (.ite (fun _ => .refl ..) fun _ => ?_)
  refine .trans (.trans (.trans ((quiet_modDyn _ i _).mono (by simp)) (.when ((quiet_append ..).mono (by simp)))) (.unless ?_))
    ((quiet_lifecycleReport ..).mono (by simp))
  exact .ite (fun _ => (quiet_reraiseReport ..).mono (by simp)) fun _ => (quiet_placeReport ..).mono (by simp)

theorem quiet_clearAlarm (i : Nat) (e : Bool) :
    Quiet [.alarms, .lists, .positions, .journal, .links, .free] s (clearAlarm i e s) := by
  simp only [clearAlarm]
  refine .trans ((quiet_modDyn s i fun d => { d with input := .inactive }).mono (by simp)) (.ite (fun _ => .refl ..) fun _ => ?_)
  exact .trans (.trans (.trans ((quiet_modDyn _ i _).mono (by simp)) (.when ((quiet_append ..).mono (by simp))))
    (.when ((quiet_returnReport ..).mono (by simp)))) ((quiet_lifecycleReport ..).mono (by simp))

theorem quiet_acknowledge (o : Nat) (p : Pos) (i : Nat) :
    Quiet [.alarms, .lists, .escalation, .positions, .journal, .links, .free] s (acknowledge o p i s) := by
  unfold acknowledge
  split
  · exact .trans (.trans (.trans ((quiet_modDyn s i _).mono (by simp)) ((quiet_append ..).mono (by simp)))
      ((quiet_removeReport ..).mono (by simp))) ((quiet_lifecycleReport ..).mono (by simp))
  · exact .refl ..

theorem quiet_leaveShelf (p : Pos) (i : Nat) : Quiet [.alarms, .lists] s (leaveShelf p i s) :=
  (quiet_modLists ..).comp (quiet_modDyn ..) (by simp) (by simp)

theorem quiet_endShelve (p : Pos) (i : Nat) :
    Quiet [.alarms, .lists, .links, .loads, .journal, .positions, .free] s (endShelve p i s) :=
  .trans (.ite (fun _ => (quiet_placeReport ..).mono (by simp)) fun _ => .refl ..)
    ((quiet_shelfEndedReport ..).mono (by simp))

end atu

/-! ### ACU and PCU -/

section desks
variable (s : State)

theorem quiet_setEngagement (o : Nat) (e : Option (Pos × Role)) : Quiet [.operators] s (setEngagement o e s) :=
  quiet_modOperator ..

theorem quiet_issueGrant (n : Nat) (g : Grant) : Quiet [.grants, .journal] s (issueGrant n g s) :=
  (quiet_grants s _).comp (quiet_append ..) (by simp) (by simp)

theorem quiet_endGrant (n : Nat) (g : Grant) : Quiet [.grants, .journal] s (endGrant n g s) :=
  (quiet_grants s _).comp (quiet_append ..) (by simp) (by simp)

theorem quiet_foldl_endGrant (es : List (Nat × Grant)) :
    Quiet [.grants, .journal] s (es.foldl (fun s e => endGrant e.1 e.2 s) s) := by
  induction es generalizing s with
  | nil => exact .refl ..
  | cons e es ih => exact (quiet_endGrant s e.1 e.2).trans (ih _)

theorem quiet_endGrants (f : Grant → Bool) : Quiet [.grants, .journal] s (endGrants f s) := quiet_foldl_endGrant s _

theorem quiet_release (o : Nat) : Quiet [.operators, .grants, .journal] s (release o s) := by
  unfold release
  split
  · exact (quiet_setEngagement s o none).comp (quiet_endGrants ..) (by simp) (by simp)
  · exact .refl ..

theorem quiet_badgeCheck (o : Nat) (b : Word) : Quiet [.operators] s (badgeCheck o b s).1 := by
  unfold badgeCheck
  split
  · exact .refl ..
  · split
    · exact .refl ..
    · split
      · exact quiet_modOperator ..
      · split <;> exact quiet_modOperator ..

theorem quiet_handoverNotices (p : Pos) (c : HandoverChange) (n : Nat) (r : Option EndReason) :
    Quiet [.links] s (handoverNotices p c n r s) := quiet_notifyBoth ..

theorem quiet_endHandover (p : Pos) (r : EndReason) (e : Option Nat) :
    Quiet [.operators, .grants, .positions, .journal, .links] s (endHandover p r e s) := by
  simp only [endHandover]
  refine .trans (.trans (.trans ((quiet_modPos s p _).mono (by simp)) (.ite (fun _ => ?_) fun _ => .refl ..))
    ((quiet_append ..).mono (by simp))) ((quiet_handoverNotices ..).mono (by simp))
  exact .trans ((quiet_release ..).mono (by simp)) ((quiet_modPos ..).mono (by simp))

end desks

/-! ### Serving a request -/

theorem kept_judged {ps : List Part} {s : State} {cs : List Check} {act : State → State × Answer}
    (h : Kept ps s (act s).1) : Kept ps s (judged cs s act).1 := by
  unfold judged
  split
  · exact .refl ..
  · exact h

theorem quiet_judged {ps : List Part} {s : State} {cs : List Check} {act : State → State × Answer}
    (h : Quiet ps s (act s).1) : Quiet ps s (judged cs s act).1 := by
  unfold judged
  split
  · exact .refl ..
  · exact h

theorem quiet_accessRefused (s : State) (p : Pos) (o : Nat) (k : Kind) (a : Option Nat) (c : Cause) (v : Nat) :
    Quiet [.journal] s (accessRefused p o k a c v s) := by
  unfold accessRefused
  split
  · exact .refl ..
  · exact quiet_append ..

theorem quiet_journalRefusal (s : State) (h : Header) (k : Kind) (i : Option Nat) (a : Answer) :
    Quiet [.journal] s (journalRefusal h k i a s) := by
  unfold journalRefusal
  split
  · exact quiet_accessRefused ..
  · exact .refl ..

/-- A request's frame: beside the parts its body writes, only the links and the journal change. -/
theorem kept_serve {ps : List Part} {k : Kind} {h : Header} {i : Option Nat} {body : State → State × Answer} {s t : State}
    (hb : ∀ u, Kept ps u (body u).1) (hs : serve k h i body s = .next t) : Kept (.links :: .journal :: ps) s t := by
  simp only [serve, Host.Outcome.next.injEq] at hs
  subst hs
  refine .trans (.trans (.trans (.trans ((kept_takeFrame s h.link).mono (by simp))
    ((kept_judged (hb _)).mono (by simp; tauto))) ((quiet_journalRefusal ..).kept.mono (by simp))) ((kept_reply ..).mono (by simp)))
    ((kept_settle _).mono (by simp))

/-- An event's frame: beside the parts its work writes, only the links change. -/
theorem kept_event {ps : List Part} {act : State → State} {s t : State} (ha : Kept ps s (act s))
    (hs : event act s = .next t) : Kept (.links :: ps) s t := by
  simp only [event, Host.Outcome.next.injEq] at hs
  subst hs
  exact .trans (ha.mono (by simp; tauto)) ((kept_settle _).mono (by simp))

end Sys2Proof.Machine
end

