-- ==== Sys2Proof/Laws/Links.lean ====
section
/-! SUPPORT. What the end of a command does on a link: at most one frame starts, and the flow, the condition and the rates
stand. From it, what serving a request and taking an event send. -/

namespace Sys2Proof.Machine

/-! ### One link -/

theorem startNext_get_ne (l m : Link) (s : State) (h : m ≠ l) : (startNext l s).links.get m = s.links.get m := by
  simp only [startNext]
  repeat' split
  all_goals first | rfl | simp [modLink_get, h]

theorem settleLink_get_ne (s : State) (l m : Link) (h : m ≠ l) : (settleLink s l).links.get m = s.links.get m := by
  simp only [settleLink, modLink_get, if_neg h]
  exact startNext_get_ne l m s h

/-- What a link keeps when it starts a frame, abandons a SNAPSHOT or has its hold timer judged. -/
structure LinkState.SameLine (k k' : LinkState) : Prop where
  flow : k'.flow = k.flow
  up : k'.up = k.up
  rate : k'.rate = k.rate
  storedRate : k'.storedRate = k.storedRate
  received : k'.received = k.received

theorem LinkState.SameLine.refl (k : LinkState) : k.SameLine k := ⟨rfl, rfl, rfl, rfl, rfl⟩

theorem LinkState.SameLine.trans {a b c : LinkState} (h : a.SameLine b) (k : b.SameLine c) : a.SameLine c :=
  ⟨k.flow.trans h.flow, k.up.trans h.up, k.rate.trans h.rate, k.storedRate.trans h.storedRate, k.received.trans h.received⟩

theorem LinkState.judgeHold_sameLine (k : LinkState) (n : Nat) : k.SameLine (k.judgeHold n) := ⟨rfl, rfl, rfl, rfl, rfl⟩

theorem LinkState.dropStalled_sameLine (k : LinkState) : k.SameLine k.dropStalled := by
  unfold LinkState.dropStalled
  split
  · exact ⟨rfl, rfl, rfl, rfl, rfl⟩
  · exact .refl k

theorem LinkState.rest_sameLine (k : LinkState) (n : Nat) : k.SameLine (k.rest n) :=
  ((k.judgeHold_sameLine n).trans (LinkState.dropStalled_sameLine _)).trans (LinkState.judgeHold_sameLine ..)

@[simp] theorem LinkState.judgeHold_holdRuns (k : LinkState) (n : Nat) : (k.judgeHold n).holdRuns = k.holdRuns := rfl

theorem LinkState.dropStalled_holdTimer (k : LinkState) : k.dropStalled.holdTimer = k.holdTimer := by
  unfold LinkState.dropStalled
  split <;> rfl

theorem LinkState.dropStalled_sends (k : LinkState) :
    k.dropStalled.sending = k.sending ∧ k.dropStalled.replies = k.replies := by
  unfold LinkState.dropStalled
  split <;> exact ⟨rfl, rfl⟩

theorem LinkState.rest_sends (k : LinkState) (n : Nat) : (k.rest n).sending = k.sending ∧ (k.rest n).replies = k.replies :=
  (k.judgeHold n).dropStalled_sends

/-- R171: at the end of a command the hold timer runs exactly while its three conditions hold. -/
theorem LinkState.rest_holdTimer (k : LinkState) (n : Nat) : (k.rest n).holdTimer.isSome = (k.rest n).holdRuns := by
  simp only [LinkState.rest, judgeHold_holdRuns]
  rw [LinkState.judgeHold]
  cases ((k.judgeHold n).dropStalled).holdRuns <;> rfl

/-- R170, R171: where the conditions did not hold before an abandonment, the timer that runs after it is a new start. -/
theorem LinkState.rest_holdTimer_new (k : LinkState) (n : Nat) (h : k.holdRuns = false) (r : (k.rest n).holdRuns = true) :
    (k.rest n).holdTimer = some n := by
  simp only [LinkState.rest, judgeHold_holdRuns] at r ⊢
  rw [LinkState.judgeHold, r, LinkState.dropStalled_holdTimer]
  simp [LinkState.judgeHold, h]

theorem startNext_sameLine (l : Link) (s : State) : (s.links.get l).SameLine ((startNext l s).links.get l) := by
  simp only [startNext]
  repeat' split
  all_goals first
    | exact .refl _
    | (rw [modLink_get_self]; exact ⟨rfl, rfl, rfl, rfl, rfl⟩)

/-- R168: a link that starts a frame sends what it was to send, or, where it had nothing to send, a frame of a SNAPSHOT or
a notice. -/
theorem startNext_sends (l : Link) (s : State) : OnlyNoticeStarts s (startNext l s) l := by
  simp only [startNext]
  split
  · exact .inl rfl
  · have hs : (s.links.get l).sending = none := by simp_all
    split
    · left; simp_all [outgoing]
    · split
      · exact .inl rfl
      · split
        · right; simp_all [outgoing, LinkState.sendNotice]
        · right; simp_all [outgoing, LinkState.sendNotice, LinkState.beginSnapshot, snapshotFrames, snapshotFrame]
        · right; simp_all [outgoing, LinkState.sendNotice, noticeFrame]
        · exact .inl rfl

theorem settleLink_sameLine (l : Link) (s : State) : (s.links.get l).SameLine ((settleLink s l).links.get l) := by
  simp only [settleLink, modLink_get_self]
  exact (startNext_sameLine l s).trans (LinkState.rest_sameLine ..)

theorem settleLink_sends (l : Link) (s : State) : OnlyNoticeStarts s (settleLink s l) l := by
  have h := startNext_sends l s
  have e : outgoing (settleLink s l) l = outgoing (startNext l s) l := by
    simp only [settleLink, outgoing, modLink_get_self]
    rw [(LinkState.rest_sends _ _).1, (LinkState.rest_sends _ _).2]
  simpa only [OnlyNoticeStarts, e] using h

/-! ### Every link -/

theorem Link.mem_all (l : Link) : l ∈ Link.all := by
  rcases l with p | _
  · cases p <;> decide
  · decide

theorem Link.all_nodup : Link.all.Nodup := by decide

theorem foldl_settleLink_get_ne (ls : List Link) (s : State) (l : Link) (h : l ∉ ls) :
    (ls.foldl settleLink s).links.get l = s.links.get l := by
  induction ls generalizing s with
  | nil => rfl
  | cons m ls ih =>
    rw [List.foldl_cons, ih _ (fun hm => h (List.mem_cons_of_mem _ hm)), settleLink_get_ne]
    rintro rfl
    exact h (List.mem_cons_self ..)

/-- Each link is settled once, in a state that has the link as it stood and every other part unchanged. -/
theorem foldl_settleLink_get (ls : List Link) (s : State) (l : Link) (h : l ∈ ls) (hn : ls.Nodup) :
    ∃ u, Kept [.links] s u ∧ u.links.get l = s.links.get l ∧
      (ls.foldl settleLink s).links.get l = (settleLink u l).links.get l := by
  induction ls generalizing s with
  | nil => cases h
  | cons m ls ih =>
    rw [List.nodup_cons] at hn
    by_cases hm : l = m
    · subst hm
      exact ⟨s, .refl .., rfl, foldl_settleLink_get_ne ls _ l hn.1⟩
    · obtain ⟨u, hk, hg, hf⟩ := ih (settleLink s m) ((List.mem_cons.1 h).resolve_left hm) hn.2
      exact ⟨u, (kept_settleLink s m).trans hk, hg.trans (settleLink_get_ne s m l hm), hf⟩

theorem settle_get (s : State) (l : Link) :
    ∃ u, Kept [.links] s u ∧ u.links.get l = s.links.get l ∧ (settle s).links.get l = (settleLink u l).links.get l :=
  foldl_settleLink_get Link.all s l (Link.mem_all l) Link.all_nodup

theorem settle_sameLine (s : State) (l : Link) : (s.links.get l).SameLine ((settle s).links.get l) := by
  obtain ⟨u, -, hg, hf⟩ := settle_get s l
  rw [hf, ← hg]
  exact settleLink_sameLine l u

/-- What the end of a command puts on a link: at most one frame that is not a reply. -/
theorem settle_sends (s : State) (l : Link) : OnlyNoticeStarts s (settle s) l := by
  obtain ⟨u, -, hg, hf⟩ := settle_get s l
  have h := settleLink_sends l u
  simpa only [OnlyNoticeStarts, outgoing, hf, ← hg] using h

theorem settle_lines (s : State) : LinesKept s (settle s) := fun l =>
  have h := settle_sameLine s l
  ⟨h.flow, h.up, h.rate, h.storedRate⟩

/-- A link with something to send goes on with it. -/
theorem settle_outgoing (s : State) (l : Link) (h : outgoing s l ≠ []) : outgoing (settle s) l = outgoing s l := by
  rcases settle_sends s l with h1 | ⟨h1, -⟩
  · exact h1
  · exact absurd h1 h

/-! ### Work inside the blocks sends nothing -/

theorem Quiet.outgoing {ps : List Part} {s t : State} (h : Quiet ps s t) (l : Link) : outgoing t l = outgoing s l := by
  obtain ⟨q, d, h⟩ := h.links l
  simp [Machine.outgoing, h]

theorem Quiet.snapshot {ps : List Part} {s t : State} (h : Quiet ps s t) (l : Link) :
    (t.links.get l).snapshot = (s.links.get l).snapshot := by
  obtain ⟨q, d, h⟩ := h.links l
  rw [h]

theorem Quiet.lines {ps : List Part} {s t : State} (h : Quiet ps s t) : LinesKept s t := fun l => by
  obtain ⟨q, d, h⟩ := h.links l
  simp [h]

theorem LinesKept.trans {s t u : State} (h : LinesKept s t) (k : LinesKept t u) : LinesKept s u := fun l => by
  obtain ⟨a, b, c, d⟩ := h l
  obtain ⟨a', b', c', d'⟩ := k l
  exact ⟨a'.trans a, b'.trans b, c'.trans c, d'.trans d⟩

theorem takeFrame_outgoing (l m : Link) (s : State) : outgoing (takeFrame l s) m = outgoing s m := by
  simp only [outgoing, takeFrame, modLink_get]
  split
  · subst m; rfl
  · rfl

theorem takeFrame_lines (l : Link) (s : State) : LinesKept s (takeFrame l s) := fun m => by
  simp only [takeFrame, modLink_get]
  split
  · subst m; simp
  · simp

theorem takeFrame_snapshot (l m : Link) (s : State) :
    ((takeFrame l s).links.get m).snapshot = (s.links.get m).snapshot := by
  simp only [takeFrame, modLink_get]
  split
  · subst m; rfl
  · rfl

theorem reply_outgoing (h : Header) (k : Kind) (a : Answer) (s : State) (l : Link) :
    outgoing (reply h k a s) l = if l = h.link then outgoing s h.link ++ answerFrames k h.tag a else outgoing s l := by
  simp only [outgoing, reply, modLink_get]
  split
  · simp
  · rfl

theorem reply_lines (h : Header) (k : Kind) (a : Answer) (s : State) : LinesKept s (reply h k a s) := fun m => by
  simp only [reply, modLink_get]
  split
  · subst m; simp
  · simp

theorem reply_snapshot (h : Header) (k : Kind) (a : Answer) (s : State) (l : Link) :
    ((reply h k a s).links.get l).snapshot = (s.links.get l).snapshot := by
  simp only [reply, modLink_get]
  split
  · subst l; rfl
  · rfl

theorem packBodies_ne_nil (b : List Byte) (es : List (List Byte)) : packBodies b es ≠ [] := by
  induction es generalizing b with
  | nil => simp [packBodies]
  | cons e es ih =>
    unfold packBodies
    split
    · exact ih _
    · simp

theorem replyFrames_ne_nil (k : Kind) (tag : Byte) {bs : List (List Byte × Bool × Bool)} (h : bs ≠ []) :
    replyFrames k tag bs ≠ [] := by
  cases bs with
  | nil => exact absurd rfl h
  | cons b bs => simp [replyFrames]

theorem markGap_ne_nil (g : Bool) {bs : List (List Byte)} (h : bs ≠ []) : markGap g bs ≠ [] := by
  cases bs with
  | nil => exact absurd rfl h
  | cons b bs => simp [markGap]

/-- R165: an answer has at least one frame. -/
theorem answerFrames_ne_nil (k : Kind) (tag : Byte) (a : Answer) (h : a ≠ .each []) : answerFrames k tag a ≠ [] := by
  cases a with
  | done es g => exact replyFrames_ne_nil _ _ (markGap_ne_nil _ (packBodies_ne_nil _ es))
  | each es =>
    refine replyFrames_ne_nil _ _ ?_
    cases es with
    | nil => exact absurd rfl h
    | cons e es => simp
  | refused c v => exact replyFrames_ne_nil _ _ (by simp)

/-! ### Requests and events -/

/-- The answer of a request: that of the first failing LIU check, or that of its body. -/
def answerOf (k : Kind) (h : Header) (body : State → State × Answer) (s : State) : Answer :=
  (judged (liuChecks k h (takeFrame h.link s)) (takeFrame h.link s) body).2

/-- A request whose body works inside the blocks is answered once, on its own link, and keeps every line. -/
theorem serve_spec (k : Kind) (h : Header) (i : Option Nat) (body : State → State × Answer) (s : State)
    (hb : ∀ u, ∃ ps, Quiet ps u (body u).1) (ha : answerOf k h body s ≠ .each []) :
    ∃ t, serve k h i body s = .next t ∧ Replied k h (answerOf k h body s) s t ∧ LinesKept s t := by
  refine ⟨_, rfl, ?_⟩
  simp only [answerOf] at ha ⊢
  generalize hu : takeFrame h.link s = u at *
  obtain ⟨ps, hq⟩ := hb u
  have hj : Quiet ps u (judged (liuChecks k h u) u body).1 := quiet_judged hq
  generalize judged (liuChecks k h u) u body = r at *
  have hr := quiet_journalRefusal r.1 h k i r.2
  generalize journalRefusal h k i r.2 r.1 = v at *
  have ho : ∀ l, outgoing v l = outgoing s l := fun l => by
    rw [hr.outgoing, hj.outgoing, ← hu, takeFrame_outgoing]
  have hsn : ∀ l, (v.links.get l).snapshot = (s.links.get l).snapshot := fun l => by
    rw [hr.snapshot, hj.snapshot, ← hu, takeFrame_snapshot]
  refine ⟨⟨?_, fun l hl => ?_⟩, ?_⟩
  · rw [settle_outgoing, reply_outgoing, if_pos rfl, ho]
    rw [reply_outgoing, if_pos rfl]
    simp [answerFrames_ne_nil k h.tag r.2 ha]
  · have h1 := settle_sends (reply h k r.2 v) l
    simpa only [OnlyNoticeStarts, reply_outgoing, if_neg hl, ho, reply_snapshot, hsn] using h1
  · refine .trans ?_ (settle_lines _)
    refine .trans ?_ (reply_lines h k r.2 v)
    refine .trans ?_ hr.lines
    exact .trans (by rw [← hu]; exact takeFrame_lines h.link s) hj.lines

/-- An event whose work is inside the blocks sends no reply and keeps every line. -/
theorem event_spec (act : State → State) (s : State) {ps : List Part} (ha : Quiet ps s (act s)) :
    ∃ t, event act s = .next t ∧ NoReply s t ∧ LinesKept s t := by
  refine ⟨_, rfl, fun l => ?_, ha.lines.trans (settle_lines _)⟩
  have h := settle_sends (act s) l
  simpa only [OnlyNoticeStarts, ha.outgoing, ha.snapshot] using h

end Sys2Proof.Machine
end

