-- ==== Sys2Proof/Laws/Journal.lean ====
section
/-! SUPPORT. What a sequence of entries leaves in the journal, and how the entries of two pieces of work join. -/

namespace Sys2Proof.Machine

theorem writeLines_nil (s : State) : writeLines [] s = s := rfl

theorem writeLines_cons (e : Line) (ls : List Line) (s : State) :
    writeLines (e :: ls) s = writeLines ls (append e.kind e.position e.operator e.index e.detail s) := rfl

theorem writeLines_append (ls ms : List Line) (s : State) : writeLines (ls ++ ms) s = writeLines ms (writeLines ls s) := by
  simp [writeLines, List.foldl_append]

theorem writeLines_millTime (ls : List Line) (s : State) : (writeLines ls s).millTime = s.millTime := by
  induction ls generalizing s with
  | nil => rfl
  | cons e ls ih => rw [writeLines_cons, ih, append_millTime]

/-- Entries depend on the journal, the next sequence and the mill time alone. -/
theorem writeLines_congr (ls : List Line) {s t : State} (hj : t.journal = s.journal) (hn : t.nextSeq = s.nextSeq)
    (hm : t.millTime = s.millTime) :
    (writeLines ls t).journal = (writeLines ls s).journal ∧ (writeLines ls t).nextSeq = (writeLines ls s).nextSeq := by
  induction ls generalizing s t with
  | nil => exact ⟨hj, hn⟩
  | cons e ls ih =>
    rw [writeLines_cons, writeLines_cons]
    refine ih ?_ ?_ ?_
    · simp only [append, hj, hn, hm]
    · simp only [append_nextSeq, hn]
    · simp only [append_millTime, hm]

theorem Journaled.refl (s : State) : Journaled [] s s := ⟨rfl, rfl⟩

/-- Work that leaves the journal writes no entry. -/
theorem Journaled.of_kept {ps : List Part} {s t : State} (h : Kept ps s t) (hp : .journal ∉ ps) : Journaled [] s t :=
  h.agrees .journal hp

/-- The entries of one piece of work and then of another, in one step. -/
theorem Journaled.trans {ls ms : List Line} {s t u : State} (h : Journaled ls s t) (k : Journaled ms t u)
    (hm : t.millTime = s.millTime) : Journaled (ls ++ ms) s u := by
  obtain ⟨a, b⟩ := writeLines_congr ms (s := writeLines ls s) (t := t) h.1 h.2
    (hm.trans (writeLines_millTime ls s).symm)
  rw [Journaled, writeLines_append]
  exact ⟨k.1.trans a, k.2.trans b⟩

/-- Work without an entry before. -/
theorem Journaled.after {ls : List Line} {s t u : State} (h : Journaled [] s t) (k : Journaled ls t u)
    (hm : t.millTime = s.millTime) : Journaled ls s u := h.trans k hm

/-- Work without an entry afterwards. -/
theorem Journaled.before {ls : List Line} {s t u : State} (h : Journaled ls s t) (k : Journaled [] t u)
    (hm : t.millTime = s.millTime) : Journaled ls s u := by simpa using h.trans k hm

theorem Journaled.first {ls : List Line} {s t : State} (h : Journaled ls s t) : JournaledFirst ls s t := ⟨[], by simpa using h⟩

theorem journaled_append (k : EntryKind) (p : Option Pos) (o i : Option Nat) (d : Nat) (s : State) :
    Journaled [⟨k, p, o, i, d⟩] s (append k p o i d s) := ⟨rfl, rfl⟩

/-- R76: the entry of a grant written or ended. -/
theorem journaled_grantEntry (k : EntryKind) (n : Nat) (g : Grant) (s : State) :
    Journaled [grantLine k n g] s (grantEntry k n g s) := ⟨rfl, rfl⟩

theorem journaled_endGrant (n : Nat) (g : Grant) (s : State) : Journaled [grantLine .grantEnded n g] s (endGrant n g s) :=
  ⟨rfl, rfl⟩

theorem journaled_foldl_endGrant (es : List (Nat × Grant)) (s : State) :
    Journaled (es.map fun e => grantLine .grantEnded e.1 e.2) s (es.foldl (fun s e => endGrant e.1 e.2 s) s) := by
  induction es generalizing s with
  | nil => exact .refl s
  | cons e es ih => exact (journaled_endGrant e.1 e.2 s).trans (ih _) rfl

/-- R65, R75: the entries of the grants that end together, in slot order. -/
theorem journaled_endGrants (f : Grant → Bool) (s : State) : Journaled (endedLines f s) s (endGrants f s) :=
  journaled_foldl_endGrant _ s

/-- The grants that are left when those of a list of slots end. -/
theorem foldl_endGrant_grants (es : List (Nat × Grant)) (s : State) (n : Nat) :
    (es.foldl (fun s e => endGrant e.1 e.2 s) s).grants.get? n =
      if n ∈ es.map Prod.fst then none else s.grants.get? n := by
  induction es generalizing s with
  | nil => simp
  | cons e es ih =>
    rw [List.foldl_cons, ih]
    have he : (endGrant e.1 e.2 s).grants = s.grants.erase e.1 := rfl
    rw [he]
    by_cases h : n = e.1
    · subst h; simp
    · simp only [Table.get?_erase_ne _ h, List.map_cons, List.mem_cons, h, false_or]

/-- R65, R75: exactly the grants that meet the condition end, where the table is in canonical form. -/
theorem endGrants_ended (f : Grant → Bool) (s : State) (h : s.grants.wf = true) : GrantsEnded f s (endGrants f s) := by
  intro n g
  rw [endGrants, foldl_endGrant_grants]
  constructor
  · intro hg
    split at hg
    · cases hg
    · rename_i hn
      refine ⟨hg, ?_⟩
      by_contra hf
      refine hn (List.mem_map.2 ⟨(n, g), List.mem_filter.2 ⟨Table.mem_of_get? hg, by simpa using hf⟩, rfl⟩)
  · rintro ⟨hg, hf⟩
    rw [if_neg, hg]
    intro hn
    obtain ⟨⟨m, x⟩, hx, rfl⟩ := List.mem_map.1 hn
    obtain ⟨hx, hfx⟩ := List.mem_filter.1 hx
    have := Table.get?_of_mem h hx
    simp_all

/-! ### Journal of the shared work -/

/-- A LIU refusal or a body: the entries of a judged body. -/
theorem journaled_judged {ls : List Line} {s : State} {cs : List Check} {act : State → State × Answer}
    (hc : firstRefusal cs = none) (h : Journaled ls s (act s).1) : Journaled ls s (judged cs s act).1 := by
  simp only [judged, hc]
  exact h

/-- R85: a DONE answer writes no ACCESS_REFUSED entry. -/
theorem journalRefusal_done (h : Header) (k : Kind) (i : Option Nat) (es : List (List Byte)) (g : Bool) (s : State) :
    journalRefusal h k i (.done es g) s = s := by
  unfold journalRefusal
  split
  · simp_all
  · rfl

/-- A request that passes the LIU and is answered by its body with DONE: the next state in full. -/
theorem serve_done {k : Kind} {h : Header} {i : Option Nat} {body : State → State × Answer} {s t : State}
    {es : List (List Byte)} {g : Bool} (hp : Passes k h s) (hb : body (takeFrame h.link s) = (t, .done es g)) :
    serve k h i body s = .next (settle (reply h k (.done es g) t)) := by
  obtain ⟨h1, h2, h3⟩ := hp
  have hc : firstRefusal (liuChecks k h (takeFrame h.link s)) = none := by simp [liuChecks, firstRefusal, h1, h2, h3]
  simp only [serve, judged, hc, hb, journalRefusal_done]

/-- A request that passes the LIU and is refused by its body: the next state in full. -/
theorem serve_refused {k : Kind} {h : Header} {i : Option Nat} {body : State → State × Answer} {s t : State}
    {c : Cause} {v : Nat} (hp : Passes k h s) (hb : body (takeFrame h.link s) = (t, .refused c v)) :
    serve k h i body s = .next (settle (reply h k (.refused c v) (journalRefusal h k i (.refused c v) t))) := by
  obtain ⟨h1, h2, h3⟩ := hp
  have hc : firstRefusal (liuChecks k h (takeFrame h.link s)) = none := by simp [liuChecks, firstRefusal, h1, h2, h3]
  simp only [serve, judged, hc, hb]

end Sys2Proof.Machine
end

