-- ==== Sys2Proof/Laws/Lists.lean ====
section
/-! SUPPORT. Work at one position: for every shared operation of the item lists, the position lists and the load, that it
leaves the lists and loads of every other position, every shelf list, every position context but for items, and of every
alarm all but what the lists write. -/

namespace Sys2Proof.Machine

/-- Work at position `p`. -/
structure AtPos (p : Pos) (s t : State) : Prop where
  lists : ∀ q, q ≠ p → t.lists.get q = s.lists.get q
  loads : ∀ q, q ≠ p → t.loads.get q = s.loads.get q
  shelf : ∀ q, (t.lists.get q).shelf = (s.lists.get q).shelf
  desks : DesksKept s t
  settled : ∀ j, (alarm? t j).map Alarm.settled = (alarm? s j).map Alarm.settled
  areas : t.areas = s.areas

namespace AtPos
variable {p : Pos} {s t u : State}

theorem refl (p : Pos) (s : State) : AtPos p s s := ⟨fun _ _ => rfl, fun _ _ => rfl, fun _ => rfl, fun _ => rfl, fun _ => rfl, rfl⟩

theorem trans (h : AtPos p s t) (k : AtPos p t u) : AtPos p s u :=
  ⟨fun q hq => (k.lists q hq).trans (h.lists q hq), fun q hq => (k.loads q hq).trans (h.loads q hq),
   fun q => (k.shelf q).trans (h.shelf q), fun q => (k.desks q).trans (h.desks q),
   fun j => (k.settled j).trans (h.settled j), k.areas.trans h.areas⟩

theorem ite {c : Prop} [Decidable c] (h : c → AtPos p s t) (k : ¬c → AtPos p s u) : AtPos p s (if c then t else u) := by
  split
  · exact h ‹_›
  · exact k ‹_›

theorem when {c : Prop} [Decidable c] (k : AtPos p t u) : AtPos p t (if c then u else t) :=
  .ite (fun _ => k) fun _ => .refl ..

/-- Work that leaves all these parts is at any position. -/
theorem of_kept {ps : List Part} (h : Kept ps s t) (ha : .alarms ∉ ps) (hl : .lists ∉ ps) (hd : .loads ∉ ps)
    (hp : .positions ∉ ps) (hr : .areas ∉ ps) (p : Pos) : AtPos p s t := by
  have h1 : t.alarms = s.alarms := h.agrees _ ha
  have h2 : t.lists = s.lists := h.agrees _ hl
  have h3 : t.loads = s.loads := h.agrees _ hd
  have h4 : t.positions = s.positions := h.agrees _ hp
  exact ⟨fun q _ => by rw [h2], fun q _ => by rw [h3], fun q => by rw [h2], fun q => by rw [h4],
    fun j => by simp only [alarm?, h1], h.agrees .areas hr⟩

/-- An alarm keeps its priority, area, class and lifecycle. -/
theorem alarmAt (h : AtPos p s t) (i : Nat) : (alarmAt t i).settled = (alarmAt s i).settled := by
  have := h.settled i
  simp only [Machine.alarmAt]
  cases ht : alarm? t i <;> cases hs : alarm? s i <;> simp_all

theorem ownerOf (h : AtPos p s t) (i : Nat) : ownerOf t i = ownerOf s i := by
  have := congrArg (fun x => x.1.area) (h.alarmAt i)
  simp only [Alarm.settled] at this
  simp only [Machine.ownerOf, areaOwner, h.areas, this]

theorem lifecycleOf (h : AtPos p s t) (i : Nat) : lifecycleOf t i = lifecycleOf s i := by
  have := congrArg (fun x => x.2.2.1) (h.alarmAt i)
  simpa only [Alarm.settled, Machine.lifecycleOf] using this

theorem priorityOf (h : AtPos p s t) (i : Nat) : priorityOf t i = priorityOf s i := by
  have := congrArg (fun x => x.1.priority) (h.alarmAt i)
  simpa only [Alarm.settled, Machine.priorityOf] using this

end AtPos

theorem AtPos.unless {p : Pos} {t u : State} {c : Prop} [Decidable c] (k : AtPos p t u) : AtPos p t (if c then t else u) :=
  .ite (fun _ => .refl ..) fun _ => k

/-! ### Updates of one record -/

section records
variable (p : Pos) (s : State)

theorem atPos_modLink (l : Link) (f : LinkState → LinkState) : AtPos p s (modLink l f s) :=
  .of_kept (kept_modLink ..) (by simp) (by simp) (by simp) (by simp) (by simp) p

theorem atPos_notify (l : Link) (n : Notice) : AtPos p s (notify l n s) := atPos_modLink ..

theorem atPos_notifyBoth (q : Pos) (n : Notice) : AtPos p s (notifyBoth q n s) :=
  .of_kept (quiet_notifyBoth ..).kept (by simp) (by simp) (by simp) (by simp) (by simp) p

theorem atPos_append (k : EntryKind) (q : Option Pos) (o i : Option Nat) (d : Nat) : AtPos p s (append k q o i d s) :=
  .of_kept (quiet_append ..).kept (by simp) (by simp) (by simp) (by simp) (by simp) p

theorem atPos_escalation (l : List ListEntry) : AtPos p s { s with escalation := l } :=
  .of_kept (quiet_escalation ..).kept (by simp) (by simp) (by simp) (by simp) (by simp) p

theorem atPos_modLists (f : PosLists → PosLists) (hf : ∀ v, (f v).shelf = v.shelf := by intro v; rfl) : AtPos p s (modLists p f s) := by
  refine ⟨fun q hq => by simp [modLists_get, hq], fun _ _ => rfl, fun q => ?_, fun _ => rfl, fun _ => rfl, rfl⟩
  rw [modLists_get]
  split
  · subst q; exact hf _
  · rfl

theorem atPos_modLoad (f : PosLoad → PosLoad) : AtPos p s (modLoad p f s) :=
  ⟨fun _ _ => rfl, fun q hq => by simp [modLoad_get, hq], fun _ => rfl, fun _ => rfl, fun _ => rfl, rfl⟩

theorem atPos_modDyn (i : Nat) (f : AlarmDyn → AlarmDyn)
    (hf : ∀ a : Alarm, Alarm.settled { a with dyn := f a.dyn } = a.settled := by intro a; rfl) : AtPos p s (modDyn i f s) := by
  refine ⟨fun _ _ => rfl, fun _ _ => rfl, fun _ => rfl, fun _ => rfl, fun j => ?_, rfl⟩
  have e : alarm? (modDyn i f s) j = if j = i then (alarm? s i).map (fun a => { a with dyn := f a.dyn }) else alarm? s j :=
    Table.get?_modify ..
  rw [e]
  split
  · subst j; simp [Option.map_map, Function.comp_def, hf]
  · rfl

theorem atPos_items (items : PosContext → List Item) : AtPos p s (modPos p (fun c => { c with items := items c }) s) := by
  refine ⟨fun _ _ => rfl, fun _ _ => rfl, fun _ => rfl, fun q => ?_, fun _ => rfl, rfl⟩
  rw [modPos_get]
  split
  · subst q; rfl
  · rfl

end records

/-! ### Item lists -/

section items
variable (p : Pos) (s : State)

theorem atPos_changeItem (it : Item) : AtPos p s (changeItem p it s) :=
  (atPos_items p s _).trans (atPos_notify ..)

theorem atPos_appendItem (k : ItemKind) (v c : Nat) : AtPos p s (appendItem p k v c s) := by
  unfold appendItem
  exact .when ((atPos_items p s _).trans (atPos_notify ..))

theorem atPos_raiseItem (it : Item) : AtPos p s (raiseItem p it s) :=
  .trans (.of_kept (quiet_raisedCount s it.count).kept (by simp) (by simp) (by simp) (by simp) (by simp) p) (atPos_changeItem ..)

theorem atPos_raiseSummary (k : ItemKind) (v : Nat) : AtPos p s (raiseSummary p k v s) := by
  unfold raiseSummary
  split
  · exact atPos_raiseItem ..
  · exact atPos_appendItem ..

theorem atPos_lowerSummary (k : ItemKind) : AtPos p s (lowerSummary p k s) := by
  unfold lowerSummary
  split
  · exact atPos_changeItem ..
  · exact .refl ..

theorem atPos_resolveItem (k : ItemKind) (v : Nat) : AtPos p s (resolveItem p k v s) := by
  unfold resolveItem
  split
  · exact atPos_changeItem ..
  · exact .refl ..

theorem atPos_placedReport (i : Nat) : AtPos p s (placedReport p i s) := by
  simp only [placedReport]
  refine .when ((atPos_raiseSummary ..).trans (.when ?_))
  split
  · exact atPos_raiseItem ..
  · exact atPos_appendItem ..

theorem atPos_removedReport (i : Nat) : AtPos p s (removedReport p i s) := by
  unfold removedReport
  exact .when (atPos_lowerSummary ..)

/-- R132, R133: a LIFECYCLE report works at the alarm's owning position. -/
theorem atPos_lifecycleReport (i : Nat) (old new : Lifecycle) (h : ownerOf s i = p) :
    AtPos p s (lifecycleReport i old new s) := by
  subst h
  simp only [lifecycleReport]
  refine .when (.trans (t := if new = .raised ∨ new = .returned then s else resolveItem (ownerOf s i) .arrival i s)
    (.unless (atPos_resolveItem ..)) ?_)
  exact .ite (fun _ => atPos_raiseSummary ..) fun _ => .when (atPos_lowerSummary ..)

theorem atPos_shelvedReport (i e : Nat) (r : Bool) : AtPos p s (shelvedReport p i e r s) := by
  unfold shelvedReport
  refine .when (.ite (fun _ => ?_) fun _ => atPos_appendItem ..)
  split
  · exact atPos_changeItem ..
  · exact .refl ..

theorem atPos_shelfEndedReport (i : Nat) : AtPos p s (shelfEndedReport p i s) := by
  unfold shelfEndedReport
  exact .when (atPos_resolveItem ..)

theorem atPos_floodReport (e : Bool) (l : Nat) : AtPos p s (floodReport p e l s) := by
  unfold floodReport
  refine .when ?_
  split
  · exact atPos_changeItem ..
  · exact .when (atPos_appendItem ..)

end items

/-! ### Position lists -/

section lists
variable (p : Pos) (s : State)

theorem atPos_setReminder (i : Nat) (r : Option Nat) : AtPos p s (setReminder p i r s) := atPos_modLists p s _

theorem atPos_joinAnn (i : Nat) (t : Word) : AtPos p s (joinAnn p i t s) :=
  (atPos_modLists p s _).trans (atPos_notify ..)

theorem atPos_leaveAnn (i : Nat) : AtPos p s (leaveAnn p i s) := atPos_modLists p s _

theorem atPos_leaveDeferred (i : Nat) : AtPos p s (leaveDeferred p i s) := atPos_modLists p s _

theorem atPos_setOverflow (i : Nat) (b : Bool) : AtPos p s (setOverflow i b s) := atPos_modDyn p s i _

theorem atPos_joinDeferred (i : Nat) (t : Word) : AtPos p s (joinDeferred p i t s) := by
  simp only [joinDeferred]
  exact (atPos_setOverflow p s i false).trans (atPos_modLists p _ _)

theorem atPos_insertDeferred (i : Nat) (t : Word) : AtPos p s (insertDeferred p i t s) := by
  simp only [insertDeferred]
  refine .ite (fun _ => atPos_joinDeferred ..) fun _ => ?_
  split
  · refine .ite (fun _ => ?_) fun _ => atPos_setOverflow ..
    exact ((atPos_leaveDeferred p s _).trans (atPos_setOverflow p _ _ true)).trans (atPos_joinDeferred ..)
  · exact atPos_setOverflow ..

theorem atPos_placeOnLists (i : Nat) (t : Word) : AtPos p s (placeOnLists p i t s) := by
  simp only [placeOnLists]
  refine .trans (atPos_modDyn p s i (fun d => { d with annTime := some t })) ?_
  refine .ite (fun _ => atPos_insertDeferred ..) fun _ => .ite (fun _ => atPos_joinAnn ..) fun _ => ?_
  split
  · refine .ite (fun _ => ?_) fun _ => atPos_insertDeferred ..
    exact (((atPos_leaveAnn p _ _).trans (atPos_notify ..)).trans (atPos_insertDeferred ..)).trans (atPos_joinAnn ..)
  · exact atPos_insertDeferred ..

theorem atPos_judgeHorn : AtPos p s (judgeHorn p s) := by
  simp only [judgeHorn]
  exact .unless ((atPos_modLists p s _).trans (atPos_notify ..))

theorem atPos_promote? (t : State) (h : promote? p s = some t) : AtPos p s t := by
  unfold promote? at h
  split at h
  · obtain ⟨e, -, rfl⟩ := Option.map_eq_some_iff.1 h
    exact (atPos_leaveDeferred ..).trans (atPos_joinAnn ..)
  · cases h

theorem atPos_refill : AtPos p s (refill p s) := by
  unfold refill
  refine .when ?_
  split
  · exact atPos_joinDeferred ..
  · exact .refl ..

theorem atPos_promotion : AtPos p s (promotion p s) := by
  unfold promotion
  split
  · exact (atPos_promote? p s _ ‹_›).trans (atPos_refill ..)
  · exact .refl ..

theorem atPos_promoteAll (n : Nat) : AtPos p s (promoteAll n p s) := by
  induction n generalizing s with
  | zero => exact .refl ..
  | succ n ih =>
    unfold promoteAll
    split
    · exact (atPos_promote? p s _ ‹_›).trans (ih _)
    · exact .refl ..

theorem atPos_refillAll (n : Nat) : AtPos p s (refillAll n p s) := by
  induction n generalizing s with
  | zero => exact .refl ..
  | succ n ih => exact (atPos_refill p s).trans (ih _)

theorem atPos_restoreLists : AtPos p s (restoreLists p s) :=
  ((atPos_promoteAll p s _).trans (atPos_refillAll p _ _)).trans (atPos_judgeHorn p _)

theorem atPos_updateNotice (i : Nat) : AtPos p s (updateNotice p i s) := by
  unfold updateNotice
  split
  · exact atPos_notify ..
  · exact .refl ..

/-- R30: a RETURN report works at the alarm's owning position. -/
theorem atPos_returnReport (i : Nat) (h : ownerOf s i = p) : AtPos p s (returnReport i s) := by
  subst h
  simp only [returnReport]
  exact .when (((atPos_setReminder _ s i none).trans (atPos_updateNotice ..)).trans (atPos_judgeHorn ..))

end lists

/-! ### Load, reports and the escalation list -/

section load
variable (p : Pos) (s : State)

theorem atPos_floodLists (on : Bool) : AtPos p s (if on then floodEnterLists p s else floodLeaveLists p s) :=
  .ite (fun _ => atPos_modLists p s _) fun _ => (atPos_modLists p s _).trans (atPos_restoreLists ..)

theorem atPos_floodTurned (on : Bool) : AtPos p s (floodTurned p on s) := by
  simp only [floodTurned]
  exact ((((atPos_modLoad p s _).trans (atPos_append ..)).trans (atPos_notifyBoth ..)).trans
    (atPos_floodLists p _ on)).trans (atPos_floodReport ..)

theorem atPos_evaluateFlood : AtPos p s (evaluateFlood p s) := by
  simp only [evaluateFlood]
  exact .ite (fun _ => atPos_floodTurned ..) fun _ => .when (atPos_floodTurned ..)

theorem atPos_addLoad (w : Nat) : AtPos p s (addLoad p w s) := (atPos_modLoad ..).trans (atPos_evaluateFlood ..)

/-- R27 to R29: a PLACE report works at the alarm's owning position. -/
theorem atPos_placeReport (i : Nat) (w : Bool) (h : ownerOf s i = p) : AtPos p s (placeReport i w s) := by
  subst h
  simp only [placeReport]
  exact (((atPos_placeOnLists _ s i _).trans (atPos_judgeHorn ..)).trans (.when (atPos_addLoad ..))).trans
    (atPos_placedReport ..)

/-- R31: a RERAISE report works at the alarm's owning position. -/
theorem atPos_reraiseReport (i : Nat) (w : Bool) (h : ownerOf s i = p) : AtPos p s (reraiseReport i w s) := by
  subst h
  simp only [reraiseReport]
  exact .trans (.when ((((atPos_modLists _ s _).trans (atPos_setReminder ..)).trans
    (atPos_updateNotice ..)).trans (atPos_judgeHorn ..))) (.when (atPos_addLoad ..))

theorem atPos_escalateNotice (i : Nat) (left : Option Reason) : AtPos p s (escalateNotice i left s) := atPos_notify ..

theorem atPos_leaveEscalation (i : Nat) (r : Reason) : AtPos p s (leaveEscalation i r s) :=
  ((atPos_escalation p s _).trans (atPos_modDyn p _ i _)).trans (atPos_escalateNotice ..)

theorem atPos_enterEscalation (i : Nat) : AtPos p s (enterEscalation i s) :=
  (((atPos_escalation p s _).trans (atPos_modDyn p _ i _)).trans (atPos_append ..)).trans
    (atPos_escalateNotice ..)

theorem atPos_escalate (i : Nat) : AtPos p s (escalate i s) := by
  simp only [escalate]
  refine .ite (fun _ => atPos_enterEscalation ..) fun _ => ?_
  split
  · refine .ite (fun _ => ?_) fun _ => atPos_modDyn p s i _
    exact ((atPos_modDyn p s _ _).trans (atPos_leaveEscalation ..)).trans (atPos_enterEscalation ..)
  · exact .refl ..

/-- R32: a REMOVE report works at the alarm's owning position. -/
theorem atPos_removeReport (i : Nat) (r : Reason) (h : ownerOf s i = p) : AtPos p s (removeReport i r s) := by
  subst h
  simp only [removeReport]
  refine .trans (.trans (.trans (?_ : AtPos _ s _) (atPos_modDyn _ _ i _))
    (.when (atPos_leaveEscalation ..))) (.when (atPos_removedReport ..))
  refine .ite (fun _ => ?_) fun _ => .when ?_
  · exact (((atPos_leaveAnn _ s i).trans (atPos_notify ..)).trans (atPos_promotion ..)).trans (atPos_judgeHorn ..)
  · exact (atPos_leaveDeferred ..).trans (atPos_refill ..)

end load

/-! ### Flood mode -/

/-- R57, R58: beside flood mode itself, what its change does leaves the loads. -/
theorem kept_floodTurned_loads (p : Pos) (on : Bool) (s : State) :
    Kept [.alarms, .lists, .links, .journal, .positions] (modLoad p (fun d => { d with flood := on }) s)
      (floodTurned p on s) := by
  simp only [floodTurned]
  exact ((((quiet_append ..).mono (by simp)).trans ((quiet_notifyBoth ..).mono (by simp))).trans
    ((quiet_floodLists _ p on).mono (by simp))).trans ((quiet_floodReport ..).mono (by simp)) |>.kept

theorem floodTurned_loads (p : Pos) (on : Bool) (s : State) :
    (floodTurned p on s).loads = (modLoad p (fun d => { d with flood := on }) s).loads :=
  (kept_floodTurned_loads p on s).agrees .loads (by simp)

/-- R56: what flood evaluation leaves of a position's load: only flood mode may change. -/
theorem evaluateFlood_loads (p : Pos) (s : State) :
    (evaluateFlood p s).loads.get p =
      { s.loads.get p with
        flood := if (s.loads.get p).flood then decide ((s.loads.get p).x < (s.loads.get p).load)
                 else decide ((s.loads.get p).e ≤ (s.loads.get p).load) } := by
  have key : ∀ on, (floodTurned p on s).loads.get p = { s.loads.get p with flood := on } := fun on => by
    rw [floodTurned_loads, modLoad_get_self]
  simp only [evaluateFlood]
  generalize hd : s.loads.get p = d at *
  obtain ⟨load, flood, limit, decay, k, e, x, h⟩ := d
  cases flood
  · by_cases hl : e ≤ load
    · simp [hl, key]
    · simp [hl, hd]
  · by_cases hl : load ≤ x
    · simp [hl, key, Nat.not_lt.2 hl]
    · simp [hl, hd, Nat.lt_of_not_le hl]

end Sys2Proof.Machine
end

