-- ==== Sys2Proof/Laws/Items.lean ====
section
/-! SUPPORT. What shared operations tell the links and do to the items of a review. `Told told s t` says that the notices
`told` joined the queues of the links that are ready for them; `ReportedAt p w s t` says in the terms of section 7.4.3 what a
report did. One lemma for each operation, and the two ways to join them: `trans`, and the end of a command. -/

namespace Sys2Proof.Machine

/-! ### Item work -/

@[simp] theorem noItems_apply (items : List Item) : noItems items = [] := rfl
@[simp] theorem ItemWork.onlyIf_true (w : ItemWork) : w.onlyIf true = w := rfl
@[simp] theorem ItemWork.onlyIf_false (w : ItemWork) : w.onlyIf false = noItems := rfl
@[simp] theorem ItemWork.result_noItems (items : List Item) : noItems.result items = items := rfl

@[simp] theorem ItemWork.result_andThen (w v : ItemWork) (items : List Item) :
    (w.andThen v).result items = v.result (w.result items) := by
  simp [ItemWork.result, ItemWork.andThen, List.foldl_append]

@[simp] theorem ItemWork.andThen_noItems (w : ItemWork) : w.andThen noItems = w := by
  funext items; simp [ItemWork.andThen]

@[simp] theorem ItemWork.noItems_andThen (w : ItemWork) : noItems.andThen w = w := by
  funext items; simp [ItemWork.andThen]

theorem ItemWork.andThen_assoc (u v w : ItemWork) : (u.andThen v).andThen w = u.andThen (v.andThen w) := by
  funext items; simp [ItemWork.andThen, ItemWork.result, List.foldl_append]

/-! ### Notices -/

/-- A link that takes a notice as R167 says of one with room: it is UP, with no SNAPSHOT due or in progress. -/
structure LinkState.Ready (k : LinkState) : Prop where
  up : k.up = true
  due : k.snapshotDue = false
  snapshot : k.snapshot = []

/-- R167: a notice joins the queue of a link that is ready and has room. -/
theorem LinkState.join_ready (console : Bool) (n : Notice) (k : LinkState) (h : k.Ready) (room : k.queue.length < 32) :
    k.join console n = { k with queue := k.queue ++ [⟨n, false⟩] } := by
  simp [LinkState.join, h.up, h.due, h.snapshot, room, Config.queueCapacity]

/-- The notices `told` joined the queue of every link that was ready and had room for them, and nothing else did. -/
def Told (told : Link → List Notice) (s t : State) : Prop :=
  ∀ l, (s.links.get l).Ready → (s.links.get l).queue.length + (told l).length ≤ 32 →
    (t.links.get l).Ready ∧ (t.links.get l).sending = (s.links.get l).sending ∧
      (t.links.get l).queue = (s.links.get l).queue ++ (told l).map fun n => ⟨n, false⟩

namespace Told
variable {a b : Link → List Notice} {s t u : State}

theorem of_links (h : t.links = s.links) : Told (fun _ => []) s t := fun l hr _ => by simp [h, hr]

theorem refl (s : State) : Told (fun _ => []) s s := of_links rfl

theorem trans (h : Told a s t) (k : Told b t u) : Told (fun l => a l ++ b l) s u := fun l hr room => by
  simp only [List.length_append] at room
  obtain ⟨h1, h2, h3⟩ := h l hr (by omega)
  obtain ⟨k1, k2, k3⟩ := k l h1 (by rw [h3, List.length_append, List.length_map]; omega)
  exact ⟨k1, k2.trans h2, by rw [k3, h3, List.map_append, List.append_assoc]⟩

theorem congr (h : Told a s t) (e : ∀ l, b l = a l) : Told b s t := funext e ▸ h

end Told

theorem told_notify (l : Link) (n : Notice) (s : State) : Told (fun m => if m = l then [n] else []) s (notify l n s) := by
  intro m hr room
  by_cases h : m = l
  · subst h
    simp only [if_true, List.length_singleton] at room
    rw [notify, modLink_get_self, LinkState.join_ready _ _ _ hr (by omega)]
    exact ⟨⟨hr.up, hr.due, hr.snapshot⟩, rfl, by simp⟩
  · rw [notify, modLink_get, if_neg h]
    simp [h, hr]

theorem told_notify_desk (p : Pos) (n : Notice) (s : State) : Told (atDesk p [n]) s (notify (.console p) n s) :=
  told_notify _ _ _

theorem told_notifyBoth (p : Pos) (n : Notice) (s : State) : Told (atBoth p [n]) s (notifyBoth p n s) := by
  unfold notifyBoth
  split
  · subst p
    exact (told_notify _ _ _).congr fun l => by simp [atBoth]
  · rename_i hp
    refine ((told_notify _ _ _).trans (told_notify _ _ _)).congr fun l => ?_
    by_cases h : l = .console p
    · subst h; simp [atBoth, hp]
    · by_cases h0 : l = .console .p0 <;> simp [atBoth, h, h0, Ne.symm hp]

/-- A link that is sending, with no SNAPSHOT in progress, has its queue at the end of a command as it stood. -/
theorem settle_queue (s : State) (l : Link) (hs : (s.links.get l).sending ≠ none) (hn : (s.links.get l).snapshot = []) :
    ((settle s).links.get l).queue = (s.links.get l).queue := by
  obtain ⟨u, -, hg, hf⟩ := settle_get s l
  obtain ⟨f, hf'⟩ := Option.ne_none_iff_exists'.1 hs
  have h : startNext l u = u := by simp [startNext, hg, hf']
  rw [hf, settleLink, h, modLink_get_self, hg]
  simp [LinkState.rest, LinkState.dropStalled, LinkState.judgeHold, hn]

/-- What was told before the end of a command is announced after it. -/
theorem Told.announced {told : Link → List Notice} {s t : State} (h : Told told s t) : Announced told s (settle t) := by
  intro l
  simp only
  intro up sending due snapshot room
  obtain ⟨h1, h2, h3⟩ := h l ⟨up, due, snapshot⟩ room
  rw [settle_queue t l (by rwa [h2]) h1.snapshot, h3]
  simp [List.map_map, Function.comp_def]

/-! ### Reports -/

/-- Work on the items of position `p` outside the judgement of its state: the items, and their ITEM notices. -/
structure ItemsDone (p : Pos) (w : ItemWork) (s t : State) : Prop where
  items : (t.positions.get p).items = w.result (s.positions.get p).items
  others : ∀ q, q ≠ p → t.positions.get q = s.positions.get q
  state : (t.positions.get p).state = (s.positions.get p).state
  told : Told (atDesk p ((w (s.positions.get p).items).map fun c => .item c.item)) s t

namespace ItemsDone
variable {p : Pos} {v w : ItemWork} {s t u : State}

theorem refl (p : Pos) (s : State) : ItemsDone p noItems s s :=
  ⟨rfl, fun _ _ => rfl, rfl, (Told.refl s).congr fun l => by simp [atDesk]⟩

theorem trans (h : ItemsDone p w s t) (k : ItemsDone p v t u) : ItemsDone p (w.andThen v) s u where
  items := by rw [k.items, h.items, ItemWork.result_andThen]
  others q hq := (k.others q hq).trans (h.others q hq)
  state := k.state.trans h.state
  told := (h.told.trans k.told).congr fun l => by
    by_cases hl : l = .console p <;> simp [atDesk, hl, ItemWork.andThen, h.items]

end ItemsDone

theorem changeItem_done (p : Pos) (it : Item) (s : State) : ItemsDone p (fun _ => [.changed it]) s (changeItem p it s) where
  items := by simp [changeItem, itemNotice, notify, ItemWork.result, ItemChange.apply]
  others q hq := by simp [changeItem, itemNotice, notify, modPos_get, hq]
  state := by simp [changeItem, itemNotice, notify]
  told := ((Told.of_links (t := modPos p _ s) rfl).trans (told_notify_desk _ _ _)).congr fun l => by simp [ItemChange.item]

/-- R128, R129: an item is appended where its kind has room. -/
theorem appendItem_done (p : Pos) (k : ItemKind) (subject count : Nat) (s : State) :
    ItemsDone p (fun items => if summaryKinds.contains k || hasFreePlace items then [appendedItem items k subject count] else [])
      s (appendItem p k subject count s) := by
  by_cases h : (summaryKinds.contains k || hasFreePlace (s.positions.get p).items) = true
  · rw [appendItem, if_pos h]
    exact {
      items := by simp only [ItemWork.result]; rw [if_pos h]; simp [itemNotice, notify, ItemChange.apply, appendedItem]
      others := fun q hq => by simp [itemNotice, notify, modPos_get, hq]
      state := by simp [itemNotice, notify]
      told := ((Told.of_links (t := modPos p _ s) rfl).trans (told_notify_desk _ _ _)).congr fun l => by rw [if_pos h]; simp [ItemChange.item, appendedItem] }
  · rw [appendItem, if_neg h]
    exact {
      items := by simp only [ItemWork.result]; rw [if_neg h]; rfl
      others := fun _ _ => rfl
      state := rfl
      told := (Told.refl s).congr fun l => by rw [if_neg h]; simp [atDesk] }

theorem ItemsDone.at_items {p : Pos} {v w : ItemWork} {s t : State} (h : ItemsDone p w s t)
    (e : w (s.positions.get p).items = v (s.positions.get p).items) : ItemsDone p v s t where
  items := by rw [h.items, ItemWork.result, ItemWork.result, e]
  others := h.others
  state := h.state
  told := e ▸ h.told

theorem resolveItem_done (p : Pos) (k : ItemKind) (subject : Nat) (s : State) :
    ItemsDone p (itemResolved k subject) s (resolveItem p k subject s) := by
  unfold resolveItem
  split <;> rename_i h
  · exact (changeItem_done ..).at_items (by simp only [itemResolved]; rw [unresolved?]; simp only [standingItem?, findItem?] at h; rw [h])
  · exact (ItemsDone.refl ..).at_items (by simp only [itemResolved]; rw [unresolved?]; simp only [standingItem?, findItem?] at h; rw [h]; rfl)

theorem lowerSummary_done (p : Pos) (k : ItemKind) (s : State) : ItemsDone p (summaryFalls k) s (lowerSummary p k s) := by
  unfold lowerSummary
  split <;> rename_i h <;> simp only [findItem?] at h
  · exact (changeItem_done ..).at_items (by simp only [summaryFalls]; rw [h])
  · exact (ItemsDone.refl ..).at_items (by simp only [summaryFalls]; rw [h]; rfl)

/-- R131 to R133: an item rises, with the free value that is next where its count is 65535 (log 7). -/
theorem raiseItem_done (wrapped : ItemKind → Nat) (p : Pos) (it : Item) (s : State)
    (h : wrapped it.kind = (Config.countOverflow s.free).toNat) :
    ItemsDone p (fun _ => [risenItem wrapped it]) s (raiseItem p it s) := by
  by_cases hc : it.count < 65535
  · simpa [raiseItem, raisedCount, hc, Item.reopen, risenItem] using changeItem_done p _ s
  · have e := changeItem_done p (it.reopen (Config.countOverflow s.free).toNat) { s with free := s.free + 1 }
    simp only [raiseItem, raisedCount, if_neg hc, risenItem, h]
    exact ⟨e.items, e.others, e.state, e.told⟩

theorem raiseSummary_done (wrapped : ItemKind → Nat) (p : Pos) (k : ItemKind) (subject : Nat) (s : State)
    (hk : summaryKinds.contains k = true) (h : wrapped k = (Config.countOverflow s.free).toNat) :
    ItemsDone p (summaryRises wrapped k subject) s (raiseSummary p k subject s) := by
  unfold raiseSummary
  split <;> rename_i hi <;> simp only [findItem?] at hi
  · rename_i it
    have hkind : it.kind = k := by simpa using List.find?_some hi
    exact (raiseItem_done wrapped p it s (by rw [hkind, h])).at_items (by simp only [summaryRises]; rw [hi])
  · exact (appendItem_done ..).at_items (by simp only [summaryRises]; rw [hi]; simp only [hk, Bool.true_or, if_true])

theorem arrivalRises_done (wrapped : ItemKind → Nat) (p : Pos) (i : Nat) (s : State)
    (h : wrapped .arrival = (Config.countOverflow s.free).toNat) :
    ItemsDone p (arrivalRises wrapped i) s (match standingItem? s p .arrival i with
      | some it => raiseItem p it s
      | none => appendItem p .arrival i 1 s) := by
  split <;> rename_i hi <;> simp only [standingItem?, findItem?] at hi
  · rename_i it
    have hkind : it.kind = .arrival := by
      have := List.find?_some hi; simp only [Bool.and_eq_true, beq_iff_eq] at this; exact this.1.1
    exact (raiseItem_done wrapped p it s (by rw [hkind, h])).at_items
      (by simp only [arrivalRises]; rw [unresolved?, hi])
  · exact (appendItem_done ..).at_items (by simp only [arrivalRises]; rw [unresolved?, hi]; simp [summaryKinds])

/-- R131 to R136: a report has an effect only at a position in REVIEW. -/
theorem reported {p : Pos} {w : ItemWork} {s t : State} (h : inReview s p = true → ItemsDone p w s t)
    (k : inReview s p = false → t = s) : ItemsFollow p w s t ∧ Told (atDesk p (itemNotices p w s)) s t := by
  by_cases hr : (s.positions.get p).state = .review
  · have h := h (by simpa [inReview] using hr)
    refine ⟨fun q => ?_, h.told.congr fun l => by simp [itemNotices, hr]⟩
    by_cases hq : q = p
    · subst hq; simp [h.items, hr]
    · simp [h.others q hq, hq]
  · obtain rfl := k (by simpa [inReview] using hr)
    refine ⟨fun q => ?_, (Told.refl _).congr fun l => by simp [atDesk, itemNotices, hr]⟩
    rw [if_neg]; rintro ⟨rfl, hq⟩; exact hr hq

/-- R131: a REMOVED report. -/
theorem removedReport_spec (p : Pos) (i : Nat) (s : State) : let w := itemsRemoved (priorityOf s i)
    ItemsFollow p w s (removedReport p i s) ∧ Told (atDesk p (itemNotices p w s)) s (removedReport p i s) :=
  reported (fun h => by rw [removedReport, if_pos h]; exact lowerSummary_done ..) fun h => by simp [removedReport, h]

/-- R134: a SHELF_ENDED report. -/
theorem shelfEndedReport_spec (p : Pos) (i : Nat) (s : State) : let w := itemResolved .shelf i
    ItemsFollow p w s (shelfEndedReport p i s) ∧ Told (atDesk p (itemNotices p w s)) s (shelfEndedReport p i s) :=
  reported (fun h => by rw [shelfEndedReport, if_pos h]; exact resolveItem_done ..) fun h => by simp [shelfEndedReport, h]

/-- R134: a SHELVED report of a first shelve, where the list has a free place (R112). -/
theorem shelvedReport_spec_first (p : Pos) (i effective : Nat) (s : State) (room : HasRoom s p) :
    let w := itemsShelved i effective; let t := shelvedReport p i effective false s
    ItemsFollow p w s t ∧ Told (atDesk p (itemNotices p w s)) s t :=
  reported (fun h => by
    have hf := room (by simpa [inReview] using h)
    simp only [shelvedReport, if_pos h, Bool.false_eq_true, if_false]
    exact (appendItem_done ..).at_items (by simp [itemsShelved, hf])) fun h => by simp [shelvedReport, h]

/-- R134: a SHELVED report of a renewal. -/
theorem shelvedReport_spec_renewed (p : Pos) (i effective : Nat) (s : State) :
    let w := itemsRenewed i effective; let t := shelvedReport p i effective true s
    ItemsFollow p w s t ∧ Told (atDesk p (itemNotices p w s)) s t :=
  reported (fun h => by
    simp only [shelvedReport, if_pos h, if_true]
    split <;> rename_i hi <;> simp only [standingItem?, findItem?] at hi
    · exact (changeItem_done ..).at_items (by simp only [itemsRenewed]; rw [unresolved?, hi]; rfl)
    · exact (ItemsDone.refl ..).at_items (by simp only [itemsRenewed]; rw [unresolved?, hi]; rfl)) fun h => by
      simp [shelvedReport, h]

/-- R131, R132: a PLACED report of an alarm of priority 1 to 4. -/
theorem placedReport_spec (p : Pos) (i : Nat) (s : State) (hk : summaryKinds.contains (.unack (priorityOf s i)) = true) :
    ∃ wrapped, let w := itemsPlaced wrapped (priorityOf s i) i
      ItemsFollow p w s (placedReport p i s) ∧ Told (atDesk p (itemNotices p w s)) s (placedReport p i s) := by
  let u := raiseSummary p (.unack (priorityOf s i)) (priorityOf s i) s
  let wrapped (k : ItemKind) := (Config.countOverflow (if k = .arrival then u.free else s.free)).toNat
  have hu : ItemsDone p (summaryRises wrapped (.unack (priorityOf s i)) (priorityOf s i)) s u :=
    raiseSummary_done wrapped p _ _ s hk (by simp [wrapped])
  refine ⟨wrapped, reported (fun h => ?_) fun h => by simp [placedReport, h]⟩
  simp only [placedReport, if_pos h, itemsPlaced]
  split <;> rename_i h1
  · rw [beq_iff_eq.2 h1]
    exact hu.trans (arrivalRises_done wrapped p i u (by simp [wrapped]))
  · rw [beq_eq_false_iff_ne.2 h1, ItemWork.onlyIf_false, ItemWork.andThen_noItems]
    exact hu

/-- R132, R133: a LIFECYCLE report. -/
theorem lifecycleReport_spec (i : Nat) (old new : Lifecycle) (s : State) :
    ∃ wrapped, let p := ownerOf s i; let w := itemsLifecycle wrapped p i old new
      ItemsFollow p w s (lifecycleReport i old new s) ∧
        Told (atDesk p (itemNotices p w s)) s (lifecycleReport i old new s) := by
  let p := ownerOf s i
  let u := if new = .raised ∨ new = .returned then s else resolveItem p .arrival i s
  let wrapped (_ : ItemKind) := (Config.countOverflow u.free).toNat
  have hu : ItemsDone p ((itemResolved .arrival i).onlyIf (!(new == .raised || new == .returned))) s u := by
    by_cases h : new = .raised ∨ new = .returned
    · rw [show u = s from if_pos h, show (new == .raised || new == .returned) = true by simpa using h]
      exact .refl ..
    · rw [show u = resolveItem p .arrival i s from if_neg h, show (new == .raised || new == .returned) = false by simpa using h]
      exact resolveItem_done ..
  refine ⟨wrapped, reported (fun h => ?_) fun h => by simp [lifecycleReport, h]⟩
  simp only [lifecycleReport, if_pos h]
  refine hu.trans ?_
  by_cases hl : new = .latched
  · rw [if_pos hl, if_pos hl]
    exact raiseSummary_done wrapped p .latched p.num u rfl rfl
  · rw [if_neg hl, if_neg hl]
    by_cases ho : old = .latched
    · rw [if_pos ho, beq_iff_eq.2 ho]
      exact lowerSummary_done ..
    · rw [if_neg ho, beq_eq_false_iff_ne.2 ho]
      exact .refl ..

/-- R43: the judgement of a horn line sends HORN where the line changed. -/
theorem told_judgeHorn (p : Pos) (s : State) : Told (atDesk p (hornNotices p s (judgeHorn p s))) s (judgeHorn p s) := by
  by_cases h : hornSounds s p = (s.lists.get p).horn
  · rw [judgeHorn, if_pos h]
    exact (Told.refl s).congr fun l => by simp [atDesk, hornNotices]
  · rw [judgeHorn, if_neg h]
    refine ((Told.of_links (t := modLists p _ s) rfl).trans (told_notify_desk _ _ _)).congr fun l => ?_
    simp [hornNotices, notify, h]

end Sys2Proof.Machine
end

