-- ==== Sys2Proof/Laws/PerInstr.lean ====
section
/-! SUPPORT. One family over every command: the body of a well-formed request is at least as long as the fixed fields of its
kind, so that step 2 of R164 refuses no frame that carries all its fields. -/

namespace Sys2Proof.Laws.BodyLength

/-- R164, R176: the acting operator's byte and the fields of a well-formed request fill the fixed length of its kind. -/
def Statement (i : Instr) : Prop :=
  i.wf = true → ∀ k h fields, requestFields i = some (k, h, fields) → fixedLength k ≤ 1 + fields.length

theorem length_flatMap_be8 (ns : List Nat) : (ns.flatMap be8).length = ns.length := by
  induction ns with
  | nil => rfl
  | cons n ns ih => rw [List.flatMap_cons, List.length_append, ih, List.length_cons, Nat.add_comm]; rfl

theorem coldStart : Statement .coldStart := fun _ _ _ _ e => by cases e

theorem oneSecondStep : Statement .oneSecondStep := fun _ _ _ _ e => by cases e

theorem frameDiscarded (l : Link) (bytes : List Byte) : Statement (.frameDiscarded l bytes) := fun _ _ _ _ e => by cases e

theorem unknownKindFrame (l : Link) (kind : Byte) (tag : Byte) : Statement (.unknownKindFrame l kind tag) := fun _ _ _ _ e => by cases e

theorem frameSent (l : Link) : Statement (.frameSent l) := fun _ _ _ _ e => by cases e

theorem flowHold (l : Link) (value : Option Byte) : Statement (.flowHold l value) := fun _ _ _ _ e => by cases e

theorem flowGo (l : Link) : Statement (.flowGo l) := fun _ _ _ _ e => by cases e

theorem defineAlarm (h : Header) (f : AlarmFields) : Statement (.defineAlarm h f) := fun _ _ _ _ e => by cases e; exact Nat.le_of_eq rfl

theorem defineOperator (h : Header) (id : Nat) (present : Nat) (badge : Word) (level : Nat) : Statement (.defineOperator h id present badge level) := fun _ _ _ _ e => by cases e; exact Nat.le_of_eq rfl

theorem defineGrant (h : Header) (id : Nat) (kind : Nat) (scope : Nat) (binding : Nat) : Statement (.defineGrant h id kind scope binding) := fun _ _ _ _ e => by cases e; exact Nat.le_of_eq rfl

theorem definePosition (h : Header) (f : PositionFields) : Statement (.definePosition h f) := fun _ _ _ _ e => by cases e; exact Nat.le_of_eq rfl

theorem groupMaskMask (h : Header) (action : Nat) (groups : Word) : Statement (.groupMaskMask h action groups) := fun _ _ _ _ e => by cases e; exact Nat.le_of_eq rfl

theorem groupMaskUnmask (h : Header) (groups : Word) : Statement (.groupMaskUnmask h groups) := fun _ _ _ _ e => by cases e; exact Nat.le_of_eq rfl

theorem timeSet (h : Header) (time : Word) : Statement (.timeSet h time) := fun _ _ _ _ e => by cases e; exact Nat.le_of_eq rfl

theorem status (h : Header) : Statement (.status h) := fun _ _ _ _ e => by cases e; exact Nat.le_of_eq rfl

theorem operatorRead (h : Header) (id : Nat) : Statement (.operatorRead h id) := fun _ _ _ _ e => by cases e; exact Nat.le_of_eq rfl

theorem relayReset (h : Header) : Statement (.relayReset h) := fun _ _ _ _ e => by cases e; exact Nat.le_of_eq rfl

theorem commission (h : Header) (hold : Nat) (rates : List Nat) : Statement (.commission h hold rates) := fun w _ _ _ e => by
  obtain ⟨⟨⟨-, -⟩, hl⟩, -⟩ : ((h.wf = true ∧ isHalf hold = true) ∧ rates.length = 8) ∧ rates.all isByte = true := by
    simpa only [Instr.wf, Bool.and_eq_true, beq_iff_eq] using w
  cases e
  rw [List.length_append, length_flatMap_be8, hl]
  exact Nat.le_of_eq rfl

theorem alarmEventRaise (h : Header) (index : Nat) (event : Nat) : Statement (.alarmEventRaise h index event) := fun _ _ _ _ e => by cases e; exact Nat.le_of_eq rfl

theorem alarmEventClear (h : Header) (index : Nat) : Statement (.alarmEventClear h index) := fun _ _ _ _ e => by cases e; exact Nat.le_of_eq rfl

theorem outOfService (h : Header) (index : Nat) : Statement (.outOfService h index) := fun _ _ _ _ e => by cases e; exact Nat.le_of_eq rfl

theorem returnToService (h : Header) (index : Nat) : Statement (.returnToService h index) := fun _ _ _ _ e => by cases e; exact Nat.le_of_eq rfl

theorem revokeGrant (h : Header) (slot : Nat) : Statement (.revokeGrant h slot) := fun _ _ _ _ e => by cases e; exact Nat.le_of_eq rfl

theorem alarmStateActive (h : Header) (index : Nat) (state : Nat) : Statement (.alarmStateActive h index state) := fun _ _ _ _ e => by cases e; exact Nat.le_of_eq rfl

theorem alarmStateInactive (h : Header) (index : Nat) : Statement (.alarmStateInactive h index) := fun _ _ _ _ e => by cases e; exact Nat.le_of_eq rfl

theorem resyncEnd (h : Header) : Statement (.resyncEnd h) := fun _ _ _ _ e => by cases e; exact Nat.le_of_eq rfl

theorem restart (h : Header) : Statement (.restart h) := fun _ _ _ _ e => by cases e; exact Nat.le_of_eq rfl

theorem alarmRead (h : Header) (index : Nat) : Statement (.alarmRead h index) := fun _ _ _ _ e => by cases e; exact Nat.le_of_eq rfl

theorem listRead (h : Header) (selector : Nat) (position : Nat) (start : Nat) (count : Nat) : Statement (.listRead h selector position start count) := fun _ _ _ _ e => by cases e; exact Nat.le_of_eq rfl

theorem loadQuery (h : Header) (selector : Nat) : Statement (.loadQuery h selector) := fun _ _ _ _ e => by cases e; exact Nat.le_of_eq rfl

theorem journalRead (h : Header) (start : Word) (count : Nat) : Statement (.journalRead h start count) := fun _ _ _ _ e => by cases e; exact Nat.le_of_eq rfl

theorem positionRead (h : Header) (position : Nat) : Statement (.positionRead h position) := fun _ _ _ _ e => by cases e; exact Nat.le_of_eq rfl

theorem bypassRead (h : Header) : Statement (.bypassRead h) := fun _ _ _ _ e => by cases e; exact Nat.le_of_eq rfl

theorem shelfRead (h : Header) (position : Nat) : Statement (.shelfRead h position) := fun _ _ _ _ e => by cases e; exact Nat.le_of_eq rfl

theorem itemRead (h : Header) (position : Nat) (start : Nat) (count : Nat) : Statement (.itemRead h position start count) := fun _ _ _ _ e => by cases e; exact Nat.le_of_eq rfl

theorem ack (h : Header) (index : Nat) : Statement (.ack h index) := fun _ _ _ _ e => by cases e; exact Nat.le_of_eq rfl

theorem ackList (h : Header) (count : Nat) (indices : List Nat) : Statement (.ackList h count indices) := fun _ _ _ _ e => by
  cases e
  rw [List.length_append, ← Nat.add_assoc]
  exact Nat.le_add_right _ _

theorem shelve (h : Header) (index : Nat) (duration : Nat) : Statement (.shelve h index duration) := fun _ _ _ _ e => by cases e; exact Nat.le_of_eq rfl

theorem unshelve (h : Header) (index : Nat) : Statement (.unshelve h index) := fun _ _ _ _ e => by cases e; exact Nat.le_of_eq rfl

theorem latchReset (h : Header) (index : Nat) : Statement (.latchReset h index) := fun _ _ _ _ e => by cases e; exact Nat.le_of_eq rfl

theorem silence (h : Header) : Statement (.silence h) := fun _ _ _ _ e => by cases e; exact Nat.le_of_eq rfl

theorem bypassDeclare (h : Header) (area : Nat) (interlock : Nat) (duration : Nat) : Statement (.bypassDeclare h area interlock duration) := fun _ _ _ _ e => by cases e; exact Nat.le_of_eq rfl

theorem bypassEnd (h : Header) (area : Nat) (interlock : Nat) : Statement (.bypassEnd h area interlock) := fun _ _ _ _ e => by cases e; exact Nat.le_of_eq rfl

theorem noteAdd (h : Header) (code : Nat) (length : Nat) (text : List Byte) : Statement (.noteAdd h code length text) := fun _ _ _ _ e => by
  cases e
  rw [List.length_append, ← Nat.add_assoc]
  exact Nat.le_add_right _ _

theorem signOn (h : Header) (badge : Word) : Statement (.signOn h badge) := fun _ _ _ _ e => by cases e; exact Nat.le_of_eq rfl

theorem signOff (h : Header) : Statement (.signOff h) := fun _ _ _ _ e => by cases e; exact Nat.le_of_eq rfl

theorem handoverOffer (h : Header) (incoming : Nat) : Statement (.handoverOffer h incoming) := fun _ _ _ _ e => by cases e; exact Nat.le_of_eq rfl

theorem handoverTake (h : Header) (badge : Word) : Statement (.handoverTake h badge) := fun _ _ _ _ e => by cases e; exact Nat.le_of_eq rfl

theorem itemConfirm (h : Header) (count : Nat) (numbers : List Nat) : Statement (.itemConfirm h count numbers) := fun _ _ _ _ e => by
  cases e
  rw [List.length_append, ← Nat.add_assoc]
  exact Nat.le_add_right _ _

theorem handoverAccept (h : Header) : Statement (.handoverAccept h) := fun _ _ _ _ e => by cases e; exact Nat.le_of_eq rfl

theorem handoverWithdraw (h : Header) : Statement (.handoverWithdraw h) := fun _ _ _ _ e => by cases e; exact Nat.le_of_eq rfl

theorem handoverCancel (h : Header) (position : Nat) : Statement (.handoverCancel h position) := fun _ _ _ _ e => by cases e; exact Nat.le_of_eq rfl

theorem reliefTake (h : Header) (badge : Word) : Statement (.reliefTake h badge) := fun _ _ _ _ e => by cases e; exact Nat.le_of_eq rfl

theorem reliefReturn (h : Header) (badge : Word) : Statement (.reliefReturn h badge) := fun _ _ _ _ e => by cases e; exact Nat.le_of_eq rfl

theorem reliefClear (h : Header) (position : Nat) : Statement (.reliefClear h position) := fun _ _ _ _ e => by cases e; exact Nat.le_of_eq rfl

theorem areaTransfer (h : Header) (area : Nat) (target : Nat) : Statement (.areaTransfer h area target) := fun _ _ _ _ e => by cases e; exact Nat.le_of_eq rfl

theorem grantTemporary (h : Header) (target : Nat) (kind : Nat) (scope : Nat) : Statement (.grantTemporary h target kind scope) := fun _ _ _ _ e => by cases e; exact Nat.le_of_eq rfl

theorem grantEnd (h : Header) (slot : Nat) : Statement (.grantEnd h slot) := fun _ _ _ _ e => by cases e; exact Nat.le_of_eq rfl

theorem operatorUnlock (h : Header) (id : Nat) : Statement (.operatorUnlock h id) := fun _ _ _ _ e => by cases e; exact Nat.le_of_eq rfl

theorem decayExpiry (p : Pos) : Statement (.decayExpiry p) := fun _ _ _ _ e => by cases e

theorem reminderExpiry (index : Nat) : Statement (.reminderExpiry index) := fun _ _ _ _ e => by cases e

theorem shelfExpiry (index : Nat) : Statement (.shelfExpiry index) := fun _ _ _ _ e => by cases e

theorem dueExpiry (slot : Nat) : Statement (.dueExpiry slot) := fun _ _ _ _ e => by cases e

theorem reliefLimitExpiry (p : Pos) (frame : Nat) : Statement (.reliefLimitExpiry p frame) := fun _ _ _ _ e => by cases e

theorem offerTimeout (p : Pos) : Statement (.offerTimeout p) := fun _ _ _ _ e => by cases e

theorem reviewTimeout (p : Pos) : Statement (.reviewTimeout p) := fun _ _ _ _ e => by cases e

theorem holdTimerExpiry (l : Link) : Statement (.holdTimerExpiry l) := fun _ _ _ _ e => by cases e

end Sys2Proof.Laws.BodyLength
end

