-- ==== Sys2Proof/Tests/Slice0.lean ====
section
/-! SUPPORT. Tests: what WellFormed refuses, frames written out byte by byte from the manual's tables, one or two small
tests of a command with values from the manual, and for every statement with hypotheses a state and operands that meet
them. -/

namespace Sys2Proof.Tests
open Sys2Proof.Machine

/-! ### A small plant -/

/-- A header on a link, from an operator, with TAG 9 and the longest body. -/
def hdr (l : Link) (op : Nat) : Header := { link := l, tag := 9, len := 240, op := op }
/-- A request of the gateway. -/
def gate : Header := hdr .plant 0
/-- A request at a console. -/
def desk (p : Pos) (op : Nat) : Header := hdr (.console p) op

/-- The next state of a command; the state itself where it has none. -/
def after (c : Instr) (s : State) : State := match exec c s with | .next t => t | _ => s

/-- A definition in area 0: priority 2, group 3, ack level 3, escalation after 1 reminder. -/
def defn2 : AlarmDef :=
  { area := 0, priority := 2, cls := .process, ackLevel := 3, group := 3, shelvable := true, maxShelve := 28800,
    reminder := 30, escalation := 1, inService := true }

/-- A dynamic record in a lifecycle with an input. -/
def dyn (lc : Lifecycle) (input : Input) : AlarmDyn :=
  { input := input, lifecycle := lc, acknowledger := none, shelved := false, escalated := false, overflow := false,
    annTime := some 100, reminders := 0 }

/-- An alarm in a lifecycle. -/
def alarm (lc : Lifecycle) : Alarm := ⟨defn2, dyn lc .active⟩

/-- An operator with a badge and an engagement. -/
def operator (badge : Word) (e : Option (Pos × Role)) : Operator :=
  { badge := badge, level := 0, locked := false, failures := 0, engagement := e }

/-- A grant of a kind for every area, carried. -/
def grant (o : Nat) (k : GrantKind) : Grant := { operator := o, kind := k, scope := none, binding := none, temporary := false }

/-- The grants of the plant: operator 1 has every kind but SUPERVISE, operators 2 and 4 OPERATE, operator 3 OPERATE and
SUPERVISE; slot 8 is the lowest empty one. -/
def grants : Table Grant :=
  [(0, grant 1 .operate), (1, grant 1 .shelve), (2, grant 1 .latchReset), (3, grant 1 .bypass), (4, grant 2 .operate),
   (5, grant 4 .operate), (6, grant 3 .operate), (7, grant 3 .supervise)]

/-- A position held by an operator. -/
def heldBy (o : Nat) : PosContext := { PosContext.cold with state := .staffed, holder := some o }

/-- The plant: operator 1 at P1, which owns area 0, and operator 3 at P0, which owns the rest; operators 2 and 4 are free. -/
def plant : State :=
  { State.reset with
    runState := .running, millTime := 500, areas := .p1 :: List.replicate 15 .p0,
    operators := [(1, operator 7 (some (.p1, .holder))), (2, operator 8 none), (3, operator 9 (some (.p0, .holder))),
                  (4, operator 10 none)],
    grants := grants, positions := { PerPos.all PosContext.cold with p0 := heldBy 3, p1 := heldBy 1 } }

/-- The plant with one alarm, at the last index, in a lifecycle. -/
def withAlarm (a : Alarm) : State := { plant with alarms := [(2047, a)] }

/-- The plant with the alarm raised and on P1's annunciation list, with a reminder's remaining time. -/
def annunciated (r : Option Nat) : State :=
  modLists .p1 (fun v => { v with ann := [⟨2047, 100, false, r⟩] }) (withAlarm (alarm .raised))

/-- The plant with P1 in OFFERED to operator 2. -/
def offered : State :=
  modPos .p1 (fun c => { c with state := .offered, incoming := some 2, timer := some 0 }) plant

/-- An open item. -/
def item (n : Nat) : Item :=
  { number := n, kind := .note, subject := 0, count := 1, confirmed := false, resolved := false, arrived := false }

/-- The plant with P1 in REVIEW, taken by operator 2, with some items. -/
def review (items : List Item) : State :=
  setEngagement 2 (some (.p1, .incoming))
    (modPos .p1 (fun c => { c with state := .review, incoming := some 2, timer := some 0, items := items }) plant)

/-- The plant with operator 1 stacked at P1 under operator 2. -/
def relieved : State :=
  setEngagement 1 (some (.p1, .stacked)) (setEngagement 2 (some (.p1, .holder))
    (modPos .p1 (fun c => { c with holder := some 2, relief := [⟨1, 400, 0, false⟩] }) plant))

/-- The plant with P1's alarm raised and annunciated, its reminder running and the horn line sounding. -/
def sounding : State := modLists .p1 (fun v => { v with horn := true }) (annunciated (some 0))

/-- The plant with P1 in REVIEW with some items, and one alarm, at the last index. -/
def reviewed (items : List Item) (a : Alarm) : State := { review items with alarms := [(2047, a)] }

/-- An item of a kind with a subject. -/
def itemOf (n : Nat) (k : ItemKind) (subject : Nat) : Item := { item n with kind := k, subject := subject }

/-! ### WellFormed: an ill-formed term for each check -/

theorem test_wf_header_length : (Instr.status { gate with len := 241 }).wf = false := by decide
theorem test_wf_header_operator : (Instr.status { gate with op := 256 }).wf = false := by decide
theorem test_wf_unknown_kind : (Instr.unknownKindFrame .plant 1 0).wf = false := by decide
theorem test_wf_unknown_kind_flow : (Instr.unknownKindFrame .plant 96 0).wf = false := by decide
theorem test_wf_flow_hold : (Instr.flowHold .plant (some 0)).wf = false := by decide
theorem test_wf_define_alarm : (Instr.defineAlarm gate ⟨0, 256, 1, 0, 0, 0, 0, 0, 0, 0, 0⟩).wf = false := by decide
theorem test_wf_define_alarm_half : (Instr.defineAlarm gate ⟨0, 0, 1, 0, 0, 0, 0, 65536, 0, 0, 0⟩).wf = false := by decide
theorem test_wf_define_operator : (Instr.defineOperator gate 256 1 0 0).wf = false := by decide
theorem test_wf_define_grant : (Instr.defineGrant gate 1 0 0 256).wf = false := by decide
theorem test_wf_define_position : (Instr.definePosition gate ⟨0, 0, 65536, 0, 0, 0, 0, 0, 0, 0⟩).wf = false := by decide
theorem test_wf_mask_action : (Instr.groupMaskMask gate 0 2).wf = false := by decide
theorem test_wf_commission_rates : (Instr.commission gate 10 [0, 0, 0]).wf = false := by decide
theorem test_wf_event_code : (Instr.alarmEventRaise gate 0 0).wf = false := by decide
theorem test_wf_state_code : (Instr.alarmStateActive gate 0 0).wf = false := by decide
theorem test_wf_byte_field : (Instr.operatorRead gate 256).wf = false := by decide
theorem test_wf_half_field : (Instr.ack gate 65536).wf = false := by decide
theorem test_wf_list_read : (Instr.listRead gate 0 0 65536 1).wf = false := by decide
theorem test_wf_journal_read : (Instr.journalRead gate 0 256).wf = false := by decide
theorem test_wf_item_read : (Instr.itemRead gate 0 256 1).wf = false := by decide
theorem test_wf_ack_list : (Instr.ackList gate 2 [5]).wf = false := by decide
theorem test_wf_shelve : (Instr.shelve gate 0 65536).wf = false := by decide
theorem test_wf_bypass_declare : (Instr.bypassDeclare gate 0 1 4294967296).wf = false := by decide
theorem test_wf_bypass_end : (Instr.bypassEnd gate 256 1).wf = false := by decide
theorem test_wf_note_add : (Instr.noteAdd gate 0 2 [0x41]).wf = false := by decide
theorem test_wf_item_confirm : (Instr.itemConfirm gate 1 [256]).wf = false := by decide
theorem test_wf_area_transfer : (Instr.areaTransfer gate 0 256).wf = false := by decide
theorem test_wf_grant_temporary : (Instr.grantTemporary gate 256 0 0).wf = false := by decide
theorem test_wf_timer_index : (Instr.reminderExpiry 2048).wf = false := by decide
theorem test_wf_timer_slot : (Instr.dueExpiry 16).wf = false := by decide
theorem test_wf_timer_frame : (Instr.reliefLimitExpiry .p0 2).wf = false := by decide
/-- What a rule refuses is well formed: an event byte without a code, a count of 0. -/
theorem test_wf_judged_later : (Instr.alarmEventRaise gate 0 2).wf = true ∧ (Instr.ackList gate 0 []).wf = true := by decide

/-! ### Frames written out byte by byte -/

/-- Table 10-3: the 16-bit check over the nine characters "123456789" (R163). -/
theorem test_crc_of_the_manual : crc [0x31, 0x32, 0x33, 0x34, 0x35, 0x36, 0x37, 0x38, 0x39] = 0x29B1#16 := by
  decide +kernel

/-- A frame as a good frame of a KIND carries it. -/
def frame (kind : Nat) (body : List Byte) : Frame := frameOf (BitVec.ofNat 8 kind) 9 1 body
/-- What the frame of a KIND is on a link. -/
def read (l : Link) (kind : Nat) (body : List Byte) : Instr := decodeFrame l (frame kind body)
/-- The header of a frame with a body of a length. -/
def lengthened (l : Link) (op len : Nat) : Header := { link := l, tag := 9, len := len, op := op }

theorem test_read_flow : read .plant 96 [0] = .flowGo .plant ∧ read .plant 96 [1] = .flowHold .plant (some 1) ∧
    read .plant 96 [] = .flowHold .plant none := by decide
theorem test_read_define_alarm :
    read .plant 1 [0, 0x07, 0xFF, 6, 1, 0, 2, 3, 1, 0x70, 0x80, 0x00, 0x1E, 1, 1] =
      .defineAlarm (lengthened .plant 0 15) ⟨2047, 6, 1, 0, 2, 3, 1, 28800, 30, 1, 1⟩ := by decide
theorem test_read_group_mask :
    read .plant 5 [0, 0, 0, 0, 0, 8] = .groupMaskUnmask (lengthened .plant 0 6) 8 ∧
    read .plant 5 [0, 1, 0, 0, 0, 8] = .groupMaskMask (lengthened .plant 0 6) 1 8 := by decide
theorem test_read_alarm_event :
    read .plant 11 [0, 0x04, 0xC5, 1] = .alarmEventRaise (lengthened .plant 0 4) 1221 1 ∧
    read .plant 11 [0, 0x04, 0xC5, 0] = .alarmEventClear (lengthened .plant 0 4) 1221 := by decide
theorem test_read_ack_list :
    read (.console .p3) 33 [14, 2, 0x04, 0xCD, 0x04, 0xCE] = .ackList (lengthened (.console .p3) 14 6) 2 [1229, 1230] := by
  decide
theorem test_read_bypass_declare :
    read (.console .p3) 38 [14, 5, 0, 55, 0, 0, 0x0E, 0x10] = .bypassDeclare (lengthened (.console .p3) 14 8) 5 55 3600 := by
  decide
theorem test_read_sign_on :
    read (.console .p3) 41 [14, 0, 0, 0, 7] = .signOn (lengthened (.console .p3) 14 5) 7 := by decide
theorem test_read_item_confirm :
    read (.console .p3) 45 [20, 4, 4, 12, 15, 16] = .itemConfirm (lengthened (.console .p3) 20 6) 4 [4, 12, 15, 16] := by
  decide
theorem test_read_relief_clear :
    read (.console .p0) 51 [9, 3] = .reliefClear (lengthened (.console .p0) 9 2) 3 := by decide
theorem test_read_grant_temporary :
    read (.console .p0) 53 [9, 20, 0, 5] = .grantTemporary (lengthened (.console .p0) 9 4) 20 0 5 := by decide
theorem test_read_load_query : read .plant 20 [0, 0xFF] = .loadQuery (lengthened .plant 0 2) 255 := by decide
theorem test_read_journal_read :
    read .plant 21 [0, 0, 0, 0x1F, 0xB8, 64] = .journalRead (lengthened .plant 0 6) 8120 64 := by decide
theorem test_read_unknown_kind : read .plant 26 [0] = .unknownKindFrame .plant 26 9 := by decide

/-! ### Witnesses: for each statement with hypotheses, a state and operands that meet them, clause by clause

The name of a witness is that of its statement. -/

/-- A link that is sending a frame. -/
def sendingOn (l : Link) (s : State) : State := modLink l (fun k => { k with sending := some (frame 64 []) }) s

/-- A link that is sending, with room for exactly a number of notices. -/
def hearing (l : Link) (room : Nat) (s : State) : State :=
  modLink l (fun k => { k with
    sending := some (frame 64 []), queue := List.replicate (32 - room) ⟨.remind 2047 1, false⟩ }) s

/-- What `Announced` asks of a link to which a number of notices is told. -/
abbrev Hears (s : State) (l : Link) (told : Nat) : Prop :=
  let k := s.links.get l
  k.up = true ∧ k.sending ≠ none ∧ k.snapshotDue = false ∧ k.snapshot = [] ∧ k.queue.length + told ≤ 32

/-- The state with a command at the front of its queue. -/
def waiting (c : Instr) (s : State) : State := { s with pending := [c] }

/-- A hold timer that runs at P6, at its last second, and links that have none. -/
theorem test_OneSecondStepCountsTheClockAndTheDurations :
    (let k := (modLink (.console .p6) (fun k => { k with
        flow := .hold, holdTimer := some 1, queue := [⟨.fault .plant, false⟩] }) plant).links.get (.console .p6)
     k.holdTimer = some 1 ∧ k.up = true ∧ k.flow = .hold ∧ k.queue ≠ [] ∧ k.allowance = false) ∧
    (plant.links.get .plant).flow = .go ∧ (modLink .plant (fun k => { k with up := false }) plant).links.plant.up = false := by
  decide

/-- A decay in flood mode at the least load above X, with the largest k. -/
def decaying : State :=
  waiting (.decayExpiry .p3) (modLoad .p3 (fun d => { d with load := 12001, flood := true, decay := 0, k := 255 }) plant)
theorem test_LoadInvIsKept : LoadInv decaying ∧ step decaying = .next (after (.decayExpiry .p3) { decaying with pending := [] }) := by
  refine ⟨?_, rfl⟩
  intro p; cases p <;> unfold PosLoad.Sound <;> decide

/-- A held link with a full queue, and a DOWN one, when a HORN notice joins P1's full queue. -/
def heldLinks : State :=
  let full (k : LinkState) : LinkState := { k with
    flow := .hold, holdTimer := some 10, queue := List.replicate 32 ⟨.remind 2047 1, false⟩ }
  waiting (.silence (desk .p1 1)) (modLink (.console .p1) full (modLink (.console .p2) (fun k => { k with up := false })
    (modLists .p1 (fun v => { v with horn := true }) plant)))
theorem test_LinkInvIsKept :
    LinkInv heldLinks ∧ step heldLinks = .next (after (.silence (desk .p1 1)) { heldLinks with pending := [] }) := by
  refine ⟨⟨?_, ?_⟩, rfl⟩
  · intro l; cases l with
    | console p => cases p <;> unfold LinkState.Sound <;> decide +kernel
    | plant => unfold LinkState.Sound; decide
  · exact ⟨by decide, by decide, fun q h => absurd h (by simp [show heldLinks.links.plant.queue = [] from rfl])⟩

/-- Three retained entries that straddle the wrap of the sequence. -/
def journaled : State :=
  let e (n : Word) : Entry := ⟨n, 400, .timeSet, none, none, none, 0⟩
  { plant with journal := [e 0xFFFFFFFE, e 0xFFFFFFFF, e 0], nextSeq := 1 }
theorem test_journaled : JournalInv journaled := by
  unfold JournalInv; decide
theorem test_JournalInvIsKept :
    JournalInv (waiting (.timeSet gate 7) journaled) ∧
      step (waiting (.timeSet gate 7) journaled) = .next (after (.timeSet gate 7) journaled) :=
  ⟨by unfold JournalInv; decide, rfl⟩

/-- An alarm raised where P1's annunciation list is full. -/
def fullList : State :=
  modLists .p1 (fun v => { v with ann := List.replicate 128 ⟨2047, 100, false, none⟩ }) (withAlarm (alarm .normal))
theorem test_CapacityInvIsKept :
    CapacityInv (waiting (.alarmEventRaise gate 2047 1) fullList) ∧
      step (waiting (.alarmEventRaise gate 2047 1) fullList) = .next (after (.alarmEventRaise gate 2047 1) fullList) := by
  refine ⟨⟨?_, by decide, ?_, rfl, by decide, by decide, by decide, by decide, by decide, by decide⟩, rfl⟩
  · intro p; cases p <;> decide +kernel
  · intro p; cases p <;> decide

theorem test_DeskInvIsKept :
    DeskInv (waiting (.reviewTimeout .p1) (review [item 0])) ∧
      step (waiting (.reviewTimeout .p1) (review [item 0])) = .next (after (.reviewTimeout .p1) (review [item 0])) := by
  refine ⟨?_, rfl⟩
  intro p; cases p <;> unfold PosContext.Sound <;> decide

/-- The engagements of the plant, when operator 2 signs on at P6. -/
theorem test_DeskInvIsKept_engagements :
    EngagementInv (waiting (.signOn (desk .p6 2) 8) plant) ∧
      step (waiting (.signOn (desk .p6 2) 8) plant) = .next (after (.signOn (desk .p6 2) 8) plant) := by
  refine ⟨⟨?_, by decide, ?_, ?_, ?_⟩, rfl⟩
  · intro p; cases p <;> unfold PosContext.Sound <;> decide
  · intro o p role
    by_cases h1 : o = 1
    · subst h1; cases p <;> cases role <;> simp only [Serves] <;> decide
    by_cases h3 : o = 3
    · subst h3; cases p <;> cases role <;> simp only [Serves] <;> decide
    · have none_engaged : engagementOf plant o = none := by
        by_cases h2 : o = 2
        · subst h2; rfl
        by_cases h4 : o = 4
        · subst h4; rfl
        simp [engagementOf, operator?, Table.get?, plant, Ne.symm h1, Ne.symm h2, Ne.symm h3, Ne.symm h4]
      refine ⟨fun h => absurd (none_engaged.symm.trans h) (by simp), fun h => ?_⟩
      cases p <;> cases role <;> simp [Serves, waiting, plant, PerPos.all, PerPos.get, heldBy, PosContext.cold, State.reset,
        Ne.symm h1, Ne.symm h3] at h
  · intro p; cases p <;> decide
  · intro p o a h ha hp
    cases p <;> simp [waiting, plant, PerPos.all, PerPos.get, heldBy, PosContext.cold, State.reset] at h <;> subst h <;>
      revert hp <;> revert a <;> decide

theorem test_AlarmInvIsKept :
    AlarmInv (waiting (.ack (desk .p1 1) 2047) (annunciated none)) ∧
      step (waiting (.ack (desk .p1 1) 2047) (annunciated none)) = .next (after (.ack (desk .p1 1) 2047) (annunciated none)) := by
  refine ⟨?_, rfl⟩
  unfold AlarmInv Alarm.Sound AlarmDef.Sound; decide

/-- The plant with its alarm raised and listed and its horn line sounding, when operator 1 shelves it. -/
theorem test_AlarmInvIsKept_places :
    PlaceInv (waiting (.shelve (desk .p1 1) 2047 60) sounding) ∧
      step (waiting (.shelve (desk .p1 1) 2047 60) sounding) =
        .next (after (.shelve (desk .p1 1) 2047 60) sounding) := by
  refine ⟨⟨⟨?_, by decide, ?_, rfl, by decide, by decide, by decide, by decide, by decide, by decide⟩, ?_, ?_, ?_, ?_, ?_, ?_, ?_, ?_⟩, rfl⟩
  · intro p; cases p <;> decide
  · intro p; cases p <;> decide
  · unfold AlarmInv Alarm.Sound AlarmDef.Sound; decide
  · intro p; cases p <;> unfold InRankOrder InShelfOrder <;> decide
  · unfold InRankOrder; decide
  · intro p; cases p <;> decide
  · decide
  · intro p; cases p <;> decide
  · intro i a h
    by_cases hi : i = 2047
    · subst hi; cases h; unfold InItsPlace; decide
    · exact absurd h (by simp [alarm?, Table.get?, waiting, sounding, annunciated, modLists, withAlarm, Ne.symm hi])
  · intro p; cases p <;> unfold DeskSounds <;> decide

theorem test_OnlyTheNamedCommandsChangeAPart :
    Part.mask.changedBy (.ack (desk .p1 1) 2047) = false ∧ Part.areas.changedBy (.alarmEventRaise gate 2047 1) = false ∧
      Part.operators.changedBy (.restart gate) = true := by decide

theorem test_EveryRequestIsAnsweredOnce :
    requestFields (.ack (desk .p1 1) 2047) = some (.ack, desk .p1 1, [7, 255]) ∧
    exec (.decayExpiry .p3) plant = .next (after (.decayExpiry .p3) plant) ∧ requestFields (.decayExpiry .p3) = none :=
  ⟨by decide, rfl, by decide⟩

/-- ACK of an index that is not defined is refused with UNKNOWN_INDEX. -/
theorem test_RefusedRequestsChangeNothingElse :
    requestFields (.ack (desk .p1 1) 2047) = some (.ack, desk .p1 1, [7, 255]) ∧
    exec (.ack (desk .p1 1) 2047) plant = .next (after (.ack (desk .p1 1) 2047) plant) ∧
    outgoing (after (.ack (desk .p1 1) 2047) plant) (.console .p1) = outgoing plant (.console .p1) ++
      [⟨32, 9, true, true, false, false, [1, 17, 7, 255, 0, 32]⟩] :=
  ⟨by decide, rfl, by decide +kernel⟩

/-- The last length that is too short, the plant link for a console kind, and a console kind in UNCONFIGURED. -/
theorem test_TheLiuRefusesInOrder :
    lengthened (.console .p1) 1 2 = { desk .p1 1 with len := 2 } ∧ (2 < fixedLength .ack ∧ fixedLength .ack ≤ 3) ∧
    linkAllowed (linkRule .ack) .plant = false ∧
    (linkAllowed (linkRule .ack) (.console .p1) = true ∧ runStateAllowed .ack (.console .p1) .unconfigured = false) := by
  decide

theorem test_DecodeOfEncodeIsTheCommand :
    (let c := Instr.noteAdd (lengthened (.console .p6) 255 5) 255 2 [0x41, 0x7E]
     c.wf = true ∧ encodeFrame c = some (.console .p6, receivedFrame 40 9 [255, 255, 2, 0x41, 0x7E])) ∧
    (let c := Instr.flowHold .plant none
     c.wf = true ∧ encodeFrame c = some (.plant, receivedFrame 96 0 []) ∧ requestFields c = none) := by decide

theorem test_AWholeFrameIsReceived : (frame 40 (List.replicate 240 0)).body.length ≤ 240 := by decide +kernel

/-- A frame with a wrong CHECK, a LEN of 241, and a frame that is not yet whole. -/
theorem test_BadAndUnknownFramesAreTurnedAway :
    assemble (seekSync ((plant.links.get .plant).received ++ [0x00, 0xA5, 1, 7, 9, 1, 0, 0, 0])) = .badCheck ∧
    assemble (seekSync ((plant.links.get .plant).received ++ [0xA5, 241])) = .tooLong ∧
    assemble (seekSync ((plant.links.get .plant).received ++ [0xA5, 240, 7, 9, 1, 0])) = .waiting := by decide +kernel

/-- A link with a number of REMIND notices waiting. -/
def queued (n : Nat) (due : Bool) : LinkState :=
  { LinkState.cold with queue := List.replicate n ⟨.remind 2047 1, false⟩, snapshotDue := due }
theorem test_ANoticeJoinsAQueue :
    { LinkState.cold with up := false }.up = false ∧
    (Notice.isList (.remind 0 1) = true ∧ (queued 0 true).snapshotDue = true) ∧
    ((queued 31 false).up = true ∧ (queued 31 false).snapshotDue = false ∧ (queued 31 false).queue.length < 32) ∧
    (32 ≤ (queued 32 false).queue.length ∧ (∃ q ∈ (queued 32 false).queue, q.notice.isList = true)) ∧
    (let k := { queued 0 false with queue := List.replicate 32 ⟨.fault .plant, false⟩ }
     32 ≤ k.queue.length ∧ ∀ q ∈ k.queue, q.notice.isList = false) := by decide

/-- P1's link as it finishes a frame, with what waits. -/
def finishing (f : LinkState → LinkState) : State := modLink (.console .p1) f (sendingOn (.console .p1) plant)
theorem test_TheNextFrameStarts :
    (let f : Frame := ⟨10, 9, true, true, false, false, [0, 0, 10, 0]⟩
     let s := modLink .plant (fun k => { k with sending := some f, storedRate := 3 }) plant
     s.links.plant.sending = some f ∧ f.kind = 10 ∧ f.reply = true ∧ f.last = true ∧ f.body.head? = some 0) ∧
    (∀ f, ((finishing f).links.get (.console .p1)).sending = some (frame 64 []) → isCommissionReply (.console .p1) (frame 64 []) = false) ∧
    ((finishing fun k => { k with replies := [frame 7 [0]] }).links.get (.console .p1)).replies = [frame 7 [0]] ∧
    ((finishing fun k => { k with flow := .hold }).links.get (.console .p1)).mayNotify = false ∧
    (let k := (finishing fun k => { k with snapshotDue := true }).links.get (.console .p1)
     k.replies = [] ∧ k.mayNotify = true ∧ k.snapshot = [] ∧ k.snapshotDue = true ∧ k.flow = .go) ∧
    (let s := modLists .p1 (fun v => { v with ann := List.replicate 17 ⟨2047, 100, false, none⟩ })
       (finishing fun k => { k with flow := .hold, allowance := true, snapshotDue := true })
     let k := s.links.get (.console .p1)
     k.replies = [] ∧ k.mayNotify = true ∧ k.snapshot = [] ∧ k.snapshotDue = true ∧ k.flow = .hold ∧ (s.lists.get .p1).ann ≠ []) ∧
    (let k := (finishing fun k => { k with snapshot := [frame 64 [], frame 64 [0]] }).links.get (.console .p1)
     k.replies = [] ∧ k.mayNotify = true ∧ k.snapshot = [frame 64 [], frame 64 [0]] ∧ k.flow = .go) ∧
    (let k := (finishing fun k => { k with
        flow := .hold, allowance := true, snapshot := [frame 64 [], frame 64 [0]] }).links.get (.console .p1)
     k.replies = [] ∧ k.mayNotify = true ∧ k.snapshot = [frame 64 [], frame 64 [0]] ∧ k.flow = .hold) ∧
    (let k := (finishing fun k => { k with flow := .hold, allowance := true, queue := [⟨.fault .plant, false⟩] }).links.get (.console .p1)
     k.replies = [] ∧ k.mayNotify = true ∧ k.snapshot = [] ∧ k.snapshotDue = false ∧ k.queue = [⟨.fault .plant, false⟩] ∧
       k.flow = .hold) ∧
    (let k := (finishing id).links.get (.console .p1)
     k.replies = [] ∧ k.snapshot = [] ∧ k.snapshotDue = false ∧ k.queue = []) :=
  ⟨by decide, fun _ _ => by decide, by decide, by decide, by decide, by decide, by decide, by decide, by decide, by decide⟩

/-- R170, R171: the start of a SNAPSHOT ends the condition of the hold timer, and its abandonment begins it again: the timer
starts anew at the hold time of 10 s. -/
theorem test_the_hold_timer_after_an_abandonment :
    (let s := modLists .p1 (fun v => { v with ann := [⟨2047, 100, false, none⟩] })
       (finishing fun k => { k with flow := .hold, allowance := true, snapshotDue := true, holdTimer := some 3 })
     let k := (after (.frameSent (.console .p1)) s).links.get (.console .p1)
     k.snapshotDue = true ∧ k.snapshot = [] ∧ k.allowance = false ∧ k.holdTimer = some 10) := by decide +kernel

theorem test_FlowRecordsHoldAndFreeTheLink :
    (let k := (sendingOn .plant (modLink .plant (fun k => { k with up := false, flow := .hold }) plant)).links.get .plant
     k.sending ≠ none ∧ k.up = false ∧ k.flow = .hold) ∧
    (let k := (sendingOn (.console .p6) plant).links.get (.console .p6)
     k.sending ≠ none ∧ k.up = true ∧ k.flow = .go) ∧
    (some (2 : Byte) ≠ some 1 ∧ (none : Option Byte) ≠ some 1) := by decide

/-- P6's link with its hold timer expired; P0's link is UP with 31 notices waiting, or DOWN with the plant link. -/
def expired (up : Bool) : State :=
  modLink (.console .p6) (fun k => { k with flow := .hold, holdTimer := some 0 })
    (modLink .plant (fun k => { k with up := up })
      (modLink (.console .p0) (fun _ => { queued 31 false with up := up, sending := some (frame 64 []) }) plant))
theorem test_AHeldLinkGoesDown :
    (((expired true).links.get (.console .p6)).holdTimer = some 0 ∧
      (faultChain (.console .p6)).find? (fun x => ((expired true).links.get x).up) = some (.console .p0) ∧
      ((expired true).links.get (.console .p0)).sending ≠ none ∧
      ((expired true).links.get (.console .p0)).queue.length + ((expired true).links.get (.console .p6)).queue.length < 32) ∧
    (((expired false).links.get (.console .p6)).holdTimer = some 0 ∧
      ∀ m ∈ faultChain (.console .p6), ((expired false).links.get m).up = false) ∧
    (let s := modLink (.console .p0) (fun k => { k with
        flow := .hold, holdTimer := some 0, queue := [⟨.fault (.console .p6), false⟩] }) (sendingOn .plant plant)
     (s.links.get (.console .p0)).holdTimer = some 0 ∧
       (faultChain (.console .p0)).find? (fun x => (s.links.get x).up) = some .plant ∧
       (s.links.get .plant).sending ≠ none ∧ (s.links.get .plant).snapshot = [] ∧
       (s.links.get .plant).queue.length + (s.links.get (.console .p0)).queue.length < 32) := by decide

theorem test_RelayResetDeEnergises :
    (Passes .relayReset gate { plant with relay := true } ∧ FromGatewayOrSupervisor gate { plant with relay := true } ∧
      (∀ l, (({ plant with relay := true } : State).links.get l).up = true)) ∧
    (Passes .relayReset (desk .p0 3) plant ∧ FromGatewayOrSupervisor (desk .p0 3) plant ∧ plant.relay = false) ∧
    (let s := modLink .plant (fun k => { k with up := false }) plant
     Passes .relayReset (desk .p0 3) s ∧ FromGatewayOrSupervisor (desk .p0 3) s ∧ (s.links.get .plant).up = false ∧
      ∀ m : Link, m.num < Link.num .plant → (s.links.get m).up = true) := by
  refine ⟨⟨by decide, by decide, ?_⟩, by decide, by decide, by decide, by decide, ?_⟩
  · intro l; rcases l with p | _ <;> first | rfl | (cases p <;> rfl)
  · intro m h; rcases m with p | _
    · cases p <;> rfl
    · exact absurd h (by decide)

theorem test_CommissionAndResyncEndOpenThePart :
    (Passes .commission gate State.reset ∧ State.reset.runState = .unconfigured ∧
      ∀ r ∈ [3, 0, 0, 0, 0, 0, 0, 3], r ≤ 3) ∧
    Passes .resyncEnd gate { withAlarm (alarm .normal) with runState := .resync } := by decide

theorem test_RestartRestoresTheParts :
    (Passes .restart gate (review [item 0]) ∧ (review [item 0]).grants.wf = true ∧
      ∀ p, ((review [item 0]).positions.get p).state = .review →
        ∃ o, ((review [item 0]).positions.get p).incoming = some o ∧
          engagementOf (review [item 0]) o = some (p, .incoming)) ∧
    (Passes .restart gate offered ∧ ∀ p, (offered.positions.get p).state ≠ .review) ∧
    ((sendingOn (.console .p6) plant).links.get (.console .p6)).sending ≠ none := by
  refine ⟨⟨by decide, by decide, ?_⟩, ⟨by decide, ?_⟩, by decide⟩
  · intro p h
    cases p <;> first | exact ⟨2, by decide, by decide⟩ | exact absurd h (by decide)
  · intro p; cases p <;> decide

theorem test_TimeSetWritesTheClock : Passes .timeSet gate State.reset := by decide

theorem test_ReadsAnswerFromTheStateAndChangeNothing :
    Passes .status gate State.reset ∧
    (Passes .alarmRead gate (annunciated none) ∧ isDefined (annunciated none) 2047 = true) ∧
    (Passes .listRead (desk .p1 1) plant ∧ 3 ≤ 3 ∧ 1 ≤ 32) ∧
    (Passes .journalRead (desk .p0 3) plant ∧ FromGatewayOrSupervisor (desk .p0 3) plant ∧ 1 ≤ 64) ∧
    Passes .positionRead (desk .p1 1) plant ∧ Passes .bypassRead (desk .p1 1) plant ∧ Passes .shelfRead (desk .p1 1) plant ∧
    Passes .itemRead (desk .p1 1) plant ∧
    (Passes .operatorRead gate State.reset ∧ FromGatewayOrSupervisor gate State.reset ∧ 1 ≤ 64) := by decide

/-- The start sequence is retained at the oldest entry; ahead at the next sequence; behind just before the oldest. -/
theorem test_AStartIsRetainedAheadOrBehind :
    (0 < journaled.journal.length ∧ (0xFFFFFFFE : Word) = journaled.nextSeq - BitVec.ofNat 32 (journaled.journal.length - 0)) ∧
    ((1 : Word) - journaled.nextSeq).toNat < 2147483648 ∧
    (2147483648 ≤ ((0xFFFFFFFD : Word) - journaled.nextSeq).toNat ∧
      journaled.journal.length < (journaled.nextSeq - (0xFFFFFFFD : Word)).toNat) := by decide

theorem test_LoadQueryReadsAndClearsLimit :
    Passes .loadQuery gate plant ∧ FromGatewayOrSupervisor gate plant ∧ (6 ≤ 6 ∧ 255 = 255) := by decide

theorem test_AnAdditionSaturatesAndIsEvaluated :
    (let s := modLoad .p3 (fun d => { d with load := 64335 }) plant
     (s.loads.get .p3).load + 1200 ≤ 65535 ∧ 65535 < (s.loads.get .p3).load + 1201) := by decide

theorem test_DecayTakesOffItsShare :
    (let s := modLoad .p3 (fun d => { d with load := 1, decay := 0 }) plant
     (s.loads.get .p3).decay = 0 ∧ 0 < (s.loads.get .p3).load) ∧ (decaying.loads.get .p3).decay = 0 := by decide
/-- A decay that leaves flood mode sweeps one of two deferred entries into the last place: LOAD and ANNUNCIATE. -/
theorem test_DecayTakesOffItsShare_notices :
    (let s := hearing (.console .p3) 2 (modLists .p3 (fun v => { v with
        ann := List.replicate 127 ⟨7, 100, true, none⟩, deferred := [⟨7, 90⟩, ⟨2047, 100⟩] }) decaying)
     let t := after (.decayExpiry .p3) s
     (s.loads.get .p3).decay = 0 ∧ ((s.lists.get .p3).deferred.map (·.alarm)).Nodup ∧ (s.loads.get .p3).flood = true ∧
       (t.loads.get .p3).flood = false ∧ (loadNotices .p3 s t).length = 1 ∧ (t.lists.get .p3).ann.length = 128 ∧
       Hears s (.console .p3) 2) := by decide +kernel

/-- DEFINE_ALARM of the last index: new, again in UNCONFIGURED, and again for a NORMAL alarm in RUNNING. -/
theorem test_DefineAlarmStoresTheDefinition :
    (let f : AlarmFields := ⟨2047, 15, 4, 2, 3, 31, 1, 0, 65535, 255, 0⟩
     Passes .defineAlarm gate State.reset ∧ f.index ≤ 2047 ∧ f.area ≤ 15 ∧ 1 ≤ f.priority ∧ f.priority ≤ 4 ∧
       classOf? f.cls = some .safety ∧ f.ackLevel ≤ 3 ∧ f.group ≤ 31 ∧ alarm? State.reset 2047 = none) ∧
    (let s := { withAlarm (alarm .outOfService) with runState := .unconfigured }
     Passes .defineAlarm gate s ∧ alarm? s 2047 = some (alarm .outOfService)) ∧
    (let s := withAlarm (alarm .normal)
     Passes .defineAlarm gate s ∧ s.runState ≠ .unconfigured ∧ alarm? s 2047 = some (alarm .normal) ∧
       (alarm .normal).dyn.shelved = false) := by decide

/-- A RAISE of a RETURNED alarm, withheld by its group or not, and one of a HELD alarm. -/
theorem test_ARaiseRaisesTheAlarm :
    (let s := withAlarm (alarm .returned)
     Passes .alarmEvent gate s ∧ alarm? s 2047 = some (alarm .returned) ∧ isWithheld s 2047 = false ∧
       isWithheld { s with mask := 8 } 2047 = true) ∧
    alarm? (withAlarm (alarm .held)) 2047 = some (alarm .held) := by decide
/-- A RAISE of a RETURNED alarm in place, and one from NORMAL that turns flood ON at an owner in REVIEW: ANNUNCIATE, HORN,
LOAD and two ITEM. -/
theorem test_ARaiseRaisesTheAlarm_lists :
    (let s := modLists .p1 (fun v => { v with ann := [⟨2047, 100, true, none⟩] }) (withAlarm (alarm .returned))
     isWithheld s 2047 = false ∧ onAnn s (ownerOf s 2047) 2047 = true ∧ (s.loads.get (ownerOf s 2047)).Sound) ∧
    (let s := hearing (.console .p1) 5
       (modLoad .p1 (fun d => { d with load := 23999 }) (reviewed [itemOf 0 (.unack 2) 2] (alarm .normal)))
     let t := after (.alarmEventRaise gate 2047 1) s
     Passes .alarmEvent gate s ∧ isWithheld s 2047 = false ∧ defn2.Sound ∧ (s.loads.get .p1).Sound ∧
       (s.positions.get .p1).state = .review ∧ (t.loads.get .p1).flood = true ∧ (t.lists.get .p1).horn = true ∧
       (t.positions.get .p1).items.length = 2 ∧ Hears s (.console .p1) 5) := by
  unfold PosLoad.Sound AlarmDef.Sound; decide +kernel

theorem test_AClearReturnsTheAlarm :
    (let s := annunciated none
     Passes .alarmEvent gate s ∧ alarm? s 2047 = some (alarm .raised) ∧ isWithheld s 2047 = false) ∧
    (let a : Alarm := ⟨{ defn2 with cls := .safety, group := 0 }, dyn .held .active⟩
     alarm? (withAlarm a) 2047 = some a ∧ a.defn.cls = .safety) ∧
    alarm? (withAlarm (alarm .latched)) 2047 = some (alarm .latched) := by decide
/-- A CLEAR that quietens the horn: UPDATE and HORN; and one of a HELD SAFETY alarm at an owner in REVIEW: one ITEM. -/
theorem test_AClearReturnsTheAlarm_notices :
    (let s := hearing (.console .p1) 2 sounding
     Passes .alarmEvent gate s ∧ alarm? s 2047 = some (alarm .raised) ∧ isWithheld s 2047 = false ∧
       onAnn s (ownerOf s 2047) 2047 = true ∧ (hornNotices .p1 s (after (.alarmEventClear gate 2047) s)).length = 1 ∧
       Hears s (.console .p1) 2) ∧
    (let a : Alarm := ⟨{ defn2 with cls := .safety, group := 0 }, dyn .held .active⟩
     let s := hearing (.console .p1) 1 (reviewed [itemOf 0 .latched 1] a)
     alarm? s 2047 = some a ∧ (s.positions.get .p1).state = .review ∧ Hears s (.console .p1) 1) := by decide +kernel

theorem test_AnAlarmStateIsUnweighted :
    (let s := { withAlarm (alarm .latched) with runState := .resync }
     Passes .alarmState gate s ∧ alarm? s 2047 = some (alarm .latched) ∧ isWithheld s 2047 = false) ∧
    (let s := { annunciated none with runState := .resync }
     Passes .alarmState gate s ∧ alarm? s 2047 = some (alarm .raised) ∧ isWithheld s 2047 = false) ∧
    alarm? (withAlarm (alarm .held)) 2047 = some (alarm .held) := by decide
/-- An INACTIVE of a RAISED alarm that is withheld, and of a HELD one that is not SAFETY; an ACTIVE of a RETURNED one in
place. -/
theorem test_AnAlarmStateIsUnweighted_forms :
    (let s := { withAlarm (alarm .raised) with runState := .resync, mask := 8 }
     Passes .alarmState gate s ∧ alarm? s 2047 = some (alarm .raised) ∧ isWithheld s 2047 = true) ∧
    (let s := { withAlarm (alarm .held) with runState := .resync }
     Passes .alarmState gate s ∧ alarm? s 2047 = some (alarm .held) ∧ (alarm .held).defn.cls ≠ .safety) ∧
    (let s := modLists .p1 (fun v => { v with ann := [⟨2047, 100, true, none⟩] })
       { withAlarm (alarm .returned) with runState := .resync }
     Passes .alarmState gate s ∧ alarm? s 2047 = some (alarm .returned) ∧ isWithheld s 2047 = false) := by decide

theorem test_ServiceStateFollowsTheGateway :
    (let s := annunciated none
     Passes .outOfService gate s ∧ alarm? s 2047 = some (alarm .raised) ∧ isListed s 2047 = true ∧ s.alarms.wf = true ∧
       OnePlace s 2047) ∧
    (Passes .outOfService gate (withAlarm (alarm .outOfService)) ∧ Passes .returnToService gate (annunciated none)) ∧
    (let s := withAlarm (alarm .outOfService)
     Passes .returnToService gate s ∧ alarm? s 2047 = some (alarm .outOfService) ∧ isSuppressed s 2047 = false ∧
       isSuppressed { s with mask := 8 } 2047 = true) := by decide
/-- At an owner in REVIEW: a shelved alarm with its SHELF item, and one that returns RAISED. -/
theorem test_ServiceStateFollowsTheGateway_items :
    (let a : Alarm := ⟨defn2, { dyn .held .active with shelved := true }⟩
     let s := reviewed [itemOf 0 .shelf 2047] a
     Passes .outOfService gate s ∧ alarm? s 2047 = some a ∧ (s.positions.get (ownerOf s 2047)).state = .review ∧
       (unresolved? (s.positions.get .p1).items .shelf 2047).isSome = true) ∧
    (let s := reviewed [itemOf 0 (.unack 2) 2] (alarm .outOfService)
     Passes .returnToService gate s ∧ alarm? s 2047 = some (alarm .outOfService) ∧ defn2.Sound) := by
  unfold AlarmDef.Sound; decide

theorem test_MaskingSuppressesTheGroups :
    (let s := withAlarm (alarm .returned)
     Passes .groupMask gate s ∧ (8 : Word) ≠ 0 ∧ (8 : Word).getLsbD 0 = false ∧ (8 : Word) &&& ~~~s.mask ≠ 0 ∧
       (8 : Word) &&& ~~~(8 : Word) = 0) ∧
    (let s := annunciated none
     Passes .groupMask gate s ∧ ((8 : Word) &&& ~~~s.mask).getLsbD defn2.group = true ∧ (alarm .raised).isOpen = true ∧
       s.alarms.wf = true ∧ OnePlace s 2047 ∧ isListed s 2047 = true) := by decide

theorem test_UnmaskingPlacesTheAlarms :
    (let s := { withAlarm (alarm .raised) with mask := 8 }
     Passes .groupMask gate s ∧ (0x80000008 : Word) ≠ 0 ∧ (0x80000008 : Word).getLsbD 0 = false ∧
       ((0x80000008 : Word) &&& s.mask).getLsbD (alarm .raised).defn.group = true ∧ (0x80000000 : Word) &&& s.mask = 0) := by
  decide

/-- A priority 4 alarm. -/
def low : Alarm := ⟨{ defn2 with priority := 4 }, dyn .normal .active⟩
/-- P1 with lists of some lengths that hold alarm 7, in flood or not, and the alarm 2047. -/
def placing (flood : Bool) (ann deferred : Nat) (a seven : Alarm) : State :=
  modLoad .p1 (fun d => { d with flood := flood }) (modLists .p1 (fun v => { v with
    ann := List.replicate ann ⟨7, 100, false, none⟩, deferred := List.replicate deferred ⟨7, 100⟩ })
      { plant with alarms := [(7, seven), (2047, a)] })
/-- The cases of a placement: deferred in flood with 255 deferred; into room with 127 listed; behind a full list; displacing
an entry; and into a full deferred list, in flood behind its lowest entry or in its place, and outside flood behind it. -/
theorem test_APlacementFollowsItsCases :
    (let s := placing true 0 255 low low
     (s.loads.get .p1).flood = true ∧ low.defn.priority = 4 ∧ (s.lists.get .p1).deferred.length < 256) ∧
    (let s := placing true 127 256 (alarm .normal) low
     ¬((s.loads.get .p1).flood = true ∧ (alarm .normal).defn.priority = 4) ∧ (s.lists.get .p1).ann.length < 128) ∧
    (let s := placing false 128 255 low (alarm .normal)
     128 ≤ (s.lists.get .p1).ann.length ∧ (s.lists.get .p1).ann.getLast? = some ⟨7, 100, false, none⟩ ∧
       outranks (priorityOf s 2047, 500, 2047) (priorityOf s 7, 100, 7) = false ∧ (s.lists.get .p1).deferred.length < 256) ∧
    (let s := placing false 128 255 (alarm .normal) low
     128 ≤ (s.lists.get .p1).ann.length ∧ (s.lists.get .p1).ann.getLast? = some ⟨7, 100, false, none⟩ ∧
       outranks (priorityOf s 2047, 500, 2047) (priorityOf s 7, 100, 7) = true ∧ (s.lists.get .p1).deferred.length < 256) ∧
    (let s := placing true 0 256 low (alarm .normal)
     256 ≤ (s.lists.get .p1).deferred.length ∧ (s.lists.get .p1).deferred.getLast? = some ⟨7, 100⟩ ∧
       (s.loads.get .p1).flood = true ∧ low.defn.priority = 4 ∧ outranks (rankOf s 2047 500) (rankOf s 7 100) = false) ∧
    (let s := placing true 0 256 low low
     256 ≤ (s.lists.get .p1).deferred.length ∧ (s.lists.get .p1).deferred.getLast? = some ⟨7, 100⟩ ∧
       (s.loads.get .p1).flood = true ∧ outranks (rankOf s 2047 99) (rankOf s 7 100) = true) ∧
    (let s := placing false 128 256 low (alarm .normal)
     128 ≤ (s.lists.get .p1).ann.length ∧ (s.lists.get .p1).ann.getLast? = some ⟨7, 100, false, none⟩ ∧
       outranks (priorityOf s 2047, 500, 2047) (priorityOf s 7, 100, 7) = false ∧
       (s.lists.get .p1).deferred.getLast? = some ⟨7, 100⟩ ∧ outranks (rankOf s 2047 500) (rankOf s 7 100) = false) := by
  decide +kernel

/-- A reminder at 0: the first one is due at the escalation count 1, where 63 entries leave room; it is not due again; with
64 entries it displaces the lowest, or does not. -/
theorem test_AReminderCountsAndEscalates :
    (let s := { annunciated (some 0) with escalation := List.replicate 63 ⟨7, 90⟩ }
     alarm? s 2047 = some (alarm .raised) ∧ ownerOf s 2047 = .p1 ∧
       (∃ e ∈ (s.lists.get (ownerOf s 2047)).ann, e.alarm = 2047 ∧ e.reminder = some 0) ∧
       (alarm .raised).defn.escalation ≠ 0 ∧ (alarm .raised).defn.escalation ≤ min 15 ((alarm .raised).dyn.reminders + 1) ∧
       (alarm .raised).dyn.escalated = false ∧ s.escalation.length < 64) ∧
    (let a : Alarm := ⟨defn2, { dyn .raised .active with escalated := true, reminders := 15 }⟩
     let s := { annunciated (some 0) with alarms := [(2047, a)] }
     alarm? s 2047 = some a ∧ (∃ e ∈ (s.lists.get (ownerOf s 2047)).ann, e.alarm = 2047 ∧ e.reminder = some 0)) ∧
    (let s := { annunciated (some 0) with
       alarms := [(7, low), (2047, alarm .raised)], escalation := List.replicate 64 ⟨7, 90⟩ }
     alarm? s 2047 = some (alarm .raised) ∧ 64 ≤ s.escalation.length ∧ s.escalation.getLast? = some ⟨7, 90⟩ ∧
       outranks (rankOf s 2047 100) (rankOf s 7 90) = true ∧ alarm? s 7 = some low) ∧
    (let s := { annunciated (some 0) with
       alarms := [(7, alarm .raised), (2047, alarm .raised)], escalation := List.replicate 64 ⟨7, 90⟩ }
     64 ≤ s.escalation.length ∧ s.escalation.getLast? = some ⟨7, 90⟩ ∧
       outranks (rankOf s 2047 100) (rankOf s 7 90) = false) := by
  decide +kernel
/-- A reminder that displaces an escalated alarm, at an owner whose load state is sound: P1 is told REMIND, P0 two ESCALATE. -/
theorem test_AReminderCountsAndEscalates_notices :
    (let s := hearing (.console .p1) 1 (hearing (.console .p0) 2 { annunciated (some 0) with
       alarms := [(7, low), (2047, alarm .raised)], escalation := List.replicate 64 ⟨7, 90⟩ })
     let t := after (.reminderExpiry 2047) s
     (s.loads.get (ownerOf s 2047)).Sound ∧ outranks (rankOf s 2047 100) (rankOf s 7 90) = true ∧
       (t.loads.get .p1).flood = (s.loads.get .p1).flood ∧ Hears s (.console .p1) 1 ∧ Hears s (.console .p0) 2) := by
  unfold PosLoad.Sound; decide +kernel

theorem test_SilenceQuietensTheHorn :
    Passes .silence (desk .p1 1) (annunciated none) ∧ Holds (annunciated none) 1 .p1 := by decide

/-! Chapter 6 -/

theorem test_AckAcknowledgesTheAlarm :
    (let s := annunciated none
     Passes .ack (desk .p1 1) s ∧ alarm? s 2047 = some (alarm .raised) ∧ MayAct s 1 2047 .operate defn2.ackLevel .p1 ∧
       isWithheld s 2047 = false ∧ s.alarms.wf = true ∧ OnePlace s 2047 ∧ isListed s 2047 = true) ∧
    (let s := annunciated none
     Passes .ack (desk .p0 3) s ∧ MayAct s 3 2047 .operate defn2.ackLevel .p0) ∧
    (let s := withAlarm (alarm .latched)
     alarm? s 2047 = some (alarm .latched) ∧ MayAct s 1 2047 .operate defn2.ackLevel .p1 ∧ isWithheld s 2047 = false) := by
  decide
/-- A full annunciation list with an entry to promote, an escalated alarm and an owner in REVIEW: RETRACT, ANNUNCIATE, HORN
and ITEM at P1, ESCALATE at P0. -/
theorem test_AckAcknowledgesTheAlarm_notices :
    (let a : Alarm := ⟨defn2, { dyn .raised .active with escalated := true }⟩
     let s := hearing (.console .p1) 4 (hearing (.console .p0) 1 (modLists .p1 (fun v => { v with
       ann := ⟨2047, 100, false, none⟩ :: List.replicate 127 ⟨7, 100, true, none⟩, deferred := [⟨8, 90⟩], horn := true })
       { reviewed [itemOf 0 (.unack 2) 2] a with escalation := [⟨2047, 100⟩] }))
     let t := after (.ack (desk .p1 1) 2047) s
     Passes .ack (desk .p1 1) s ∧ alarm? s 2047 = some a ∧ MayAct s 1 2047 .operate defn2.ackLevel .p1 ∧
       isWithheld s 2047 = false ∧ OnePlace s 2047 ∧ (s.lists.get .p1).ann.length ≤ 128 ∧
       (departureNotices .p1 2047 .acknowledged s).length = 2 ∧ (hornNotices .p1 s t).length = 1 ∧
       (s.positions.get .p1).state = .review ∧ Hears s (.console .p1) 4 ∧ Hears s (.console .p0) 1) := by decide +kernel

/-- Eight alarms, of which the last is RAISED and the others RETURNED. -/
def eight : State :=
  { plant with alarms := (List.range 7).map (fun n => (n, alarm .returned)) ++ [(2047, alarm .raised)] }
theorem test_AckListAcknowledgesEachAlarm :
    (let indices := List.range 7 ++ [2047]
     Passes .ackList (lengthened (.console .p1) 1 18) eight ∧ 1 ≤ indices.length ∧ indices.length ≤ 8 ∧
       2 + 2 * indices.length ≤ 18 ∧ Holds eight 1 .p1 ∧
       ∀ i ∈ indices, MayAct eight 1 i .operate (alarmAt eight i).defn.ackLevel .p1 ∧ isWithheld eight i = false ∧
         lifecycleOf eight i ≠ .outOfService) := by decide +kernel
/-- One named alarm, of the last index: undefined; of another position's area, for one who does not supervise at P0;
without a grant; above the level; shelved; and suppressed. -/
theorem test_AckListAcknowledgesEachAlarm_refused :
    (Passes .ackList (lengthened (.console .p1) 1 4) plant ∧ 2047 ≤ 2047 ∧ Holds plant 1 .p1 ∧ alarm? plant 2047 = none) ∧
    (let s := { annunciated none with areas := List.replicate 16 .p0 }
     Holds s 1 .p1 ∧ alarm? s 2047 = some (alarm .raised) ∧ ownerOf s 2047 ≠ .p1 ∧ Pos.p1 ≠ .p0) ∧
    (let s := { annunciated none with grants := [] }
     Holds s 1 .p1 ∧ ownerOf s 2047 = .p1 ∧ holdsFor s.grants 1 .operate defn2.area .p1 = false) ∧
    (let s := { annunciated none with
       alarms := [(2047, ⟨{ defn2 with ackLevel := 1 }, dyn .raised .active⟩)],
       operators := [(1, { operator 7 (some (.p1, .holder)) with level := 2 })] }
     Holds s 1 .p1 ∧ ownerOf s 2047 = .p1 ∧ holdsFor s.grants 1 .operate defn2.area .p1 = true ∧
       (alarmAt s 2047).defn.ackLevel < levelOf s 1) ∧
    (let a : Alarm := ⟨defn2, { dyn .raised .active with shelved := true }⟩
     alarm? (withAlarm a) 2047 = some a ∧ MayAct (withAlarm a) 1 2047 .operate defn2.ackLevel .p1) ∧
    (let s := { withAlarm (alarm .raised) with mask := 8 }
     MayAct s 1 2047 .operate defn2.ackLevel .p1 ∧ (alarm .raised).dyn.shelved = false ∧ isSuppressed s 2047 = true) := by decide

/-- P1's shelf with 31 other entries. -/
def shelf31 : State :=
  modLists .p1 (fun v => { v with shelf := List.replicate 31 ⟨7, 1, 90, 60, 60⟩ }) (annunciated none)
/-- The alarm shelved, in a lifecycle, with a remaining time. -/
def shelved (lc : Lifecycle) (remaining : Nat) : State :=
  modLists .p1 (fun v => { v with shelf := [⟨2047, 1, 400, remaining, 1800⟩] })
    (withAlarm ⟨defn2, { dyn lc .active with shelved := true }⟩)
theorem test_ShelveEntersOrRenewsTheShelf :
    (let s := shelf31
     Passes .shelve (desk .p1 1) s ∧ alarm? s 2047 = some (alarm .raised) ∧ MayAct s 1 2047 .shelve defn2.ackLevel .p1 ∧
       defn2.shelvable = true ∧ isSuppressed s 2047 = false ∧ (s.lists.get (ownerOf s 2047)).shelf.length < 32 ∧
       s.alarms.wf = true ∧ OnePlace s 2047 ∧ isListed s 2047 = true ∧
       HasRoom s (ownerOf s 2047)) ∧
    (let s := shelved .held 5
     Passes .shelve (desk .p1 1) s ∧ MayAct s 1 2047 .shelve defn2.ackLevel .p1 ∧ (alarmAt s 2047).dyn.shelved = true ∧
       ∃ e ∈ (s.lists.get (ownerOf s 2047)).shelf, e.alarm = 2047) := by decide +kernel
/-- R113: the reply to a renewing SHELVE of 5 s gives RENEWED, the 60 s it was clamped to, and the mark CLAMPED. -/
theorem test_the_renewing_reply :
    outgoing (after (.shelve (desk .p1 1) 2047 5) (shelved .held 5)) (.console .p1) =
      [⟨34, 9, true, true, false, false, [0, 3, 0, 60, 1]⟩] := by decide +kernel
/-- At an owner in REVIEW: a first SHELVE with one free place, told as RETRACT and two ITEM; and a renewal. -/
theorem test_ShelveEntersOrRenewsTheShelf_items :
    (let s := hearing (.console .p1) 3 (modLists .p1 (fun v => { v with ann := [⟨2047, 100, true, none⟩] })
       (reviewed (itemOf 0 (.unack 2) 2 :: (List.range 89).map (fun n => item (n + 1))) (alarm .raised)))
     Passes .shelve (desk .p1 1) s ∧ MayAct s 1 2047 .shelve defn2.ackLevel .p1 ∧ HasRoom s (ownerOf s 2047) ∧
       Numbered (s.positions.get (ownerOf s 2047)).items ∧ OnePlace s 2047 ∧ (s.lists.get .p1).ann.length ≤ 128 ∧
       Hears s (.console .p1) 3) ∧
    (let a : Alarm := ⟨defn2, { dyn .held .active with shelved := true }⟩
     let s := hearing (.console .p1) 1 (modLists .p1 (fun v => { v with shelf := [⟨2047, 1, 400, 5, 1800⟩] })
       (reviewed [itemOf 0 .shelf 2047] a))
     Passes .shelve (desk .p1 1) s ∧ MayAct s 1 2047 .shelve defn2.ackLevel .p1 ∧
       (∃ e ∈ (s.lists.get (ownerOf s 2047)).shelf, e.alarm = 2047) ∧ Hears s (.console .p1) 1) := by decide +kernel

theorem test_AShelveEndsWithAPlacement :
    (let s := shelved .raised 5
     Passes .unshelve (desk .p1 1) s ∧ MayAct s 1 2047 .shelve defn2.ackLevel .p1 ∧ (alarmAt s 2047).dyn.shelved = true ∧
       (s.lists.get (ownerOf s 2047)).shelf.find? (fun x => x.alarm == 2047) = some ⟨2047, 1, 400, 5, 1800⟩ ∧
       isSuppressed s 2047 = false) ∧
    (let s := shelved .held 0
     (s.lists.get (ownerOf s 2047)).shelf.find? (fun x => x.alarm == 2047) = some ⟨2047, 1, 400, 0, 1800⟩) := by decide
/-- An expiry that places the alarm at an owner in REVIEW: ANNUNCIATE, HORN and two ITEM. -/
theorem test_AShelveEndsWithAPlacement_notices :
    (let a : Alarm := ⟨defn2, { dyn .raised .active with shelved := true }⟩
     let s := hearing (.console .p1) 4 (modLists .p1 (fun v => { v with shelf := [⟨2047, 1, 400, 0, 1800⟩] })
       (reviewed [itemOf 0 .shelf 2047] a))
     let t := after (.shelfExpiry 2047) s
     alarm? s 2047 = some a ∧ defn2.Sound ∧ (s.loads.get (ownerOf s 2047)).Sound ∧ isSuppressed s 2047 = false ∧
       (t.lists.get .p1).horn = true ∧ (t.positions.get .p1).items.length = 2 ∧ Hears s (.console .p1) 4) := by
  unfold PosLoad.Sound AlarmDef.Sound; decide +kernel

theorem test_LatchResetClearsTheLatch :
    (let s := withAlarm (alarm .latched)
     Passes .latchReset (desk .p1 1) s ∧ alarm? s 2047 = some (alarm .latched) ∧
       MayAct s 1 2047 .latchReset (min defn2.ackLevel 1) .p1) ∧
    (let s := withAlarm (alarm .raised)
     alarm? s 2047 = some (alarm .raised) ∧ MayAct s 1 2047 .latchReset (min defn2.ackLevel 1) .p1) := by decide
/-- At an owner in REVIEW with an ARRIVAL item of the alarm and the LATCHED item: two ITEM. -/
theorem test_LatchResetClearsTheLatch_items :
    (let s := hearing (.console .p1) 2 (reviewed [itemOf 0 .latched 1, itemOf 1 .arrival 2047] (alarm .latched))
     Passes .latchReset (desk .p1 1) s ∧ alarm? s 2047 = some (alarm .latched) ∧ Hears s (.console .p1) 2) := by decide +kernel

/-! Chapter 4 -/

theorem test_OperatorRecordsAreWrittenRemovedAndUnlocked :
    (Passes .defineOperator gate State.reset ∧ 64 ≤ 64 ∧ 3 ≤ 3 ∧ engagementOf State.reset 64 = none ∧
      operator? State.reset 64 = none) ∧
    (Passes .defineOperator gate plant ∧ (operator? plant 2).isSome = true ∧ engagementOf plant 2 = none ∧
      plant.grants.wf = true) ∧
    (Passes .operatorUnlock (desk .p0 3) plant ∧ Supervises plant 3 ∧ operator? plant 2 = some (operator 8 none)) := by
  decide

/-- The plant with a grant table full but for its last slot. -/
def slot255 : State := { plant with grants := (List.range 255).map fun n => (n, (grants.map Prod.snd).getD n (grant 2 .operate)) }
/-- A temporary grant bound to P1. -/
def temporary (k : GrantKind) : Grant := ⟨1, k, some 15, some .p1, true⟩
theorem test_AGrantTakesTheLowestEmptySlot :
    (let g : Grant := ⟨4, .supervise, some 15, some .p6, false⟩
     Passes .defineGrant gate slot255 ∧ (operator? slot255 g.operator).isSome = true ∧ g.temporary = false ∧
       (∀ e ∈ slot255.grants, e.2 ≠ g) ∧ 255 < 256 ∧ slot255.grants.get? 255 = none ∧
       ∀ m, m < 255 → slot255.grants.get? m ≠ none) ∧
    (let g := temporary .operate
     Passes .grantTemporary (desk .p0 3) plant ∧ Supervises plant 3 ∧ engagementOf plant g.operator = some (.p1, .holder) ∧
       g.kind ≠ .supervise ∧ g.binding = some .p1 ∧ (∀ e ∈ plant.grants, e.2 ≠ g) ∧ plant.grants.get? 8 = none ∧
       ∀ m, m < 8 → plant.grants.get? m ≠ none) ∧
    (∀ a, (temporary .operate).scope = some a → a < 16) :=
  ⟨by decide +kernel, by decide, by intro a h; cases h; decide⟩

/-- The plant with a temporary grant in the last slot. -/
def granted : State := { plant with grants := grants ++ [(255, temporary .operate)] }
/-- Slot 0, operator 1's OPERATE, is in use for area 0; a BYPASS grant and a second OPERATE grant are not. -/
theorem test_AGrantEndsUnlessItIsInUse :
    (Passes .revokeGrant gate plant ∧ plant.grants.get? 3 = some (grant 1 .bypass)) ∧
    (Passes .grantEnd (desk .p0 3) granted ∧ Supervises granted 3 ∧ 255 < 256 ∧
      granted.grants.get? 255 = some (temporary .operate) ∧
      ∀ a, a < 16 → (granted.positions.get (areaOwner granted a)).state ≠ .vacant →
        (granted.positions.get (areaOwner granted a)).holder = some 1 →
        holdsFor (granted.grants.erase 255) 1 .operate a (areaOwner granted a) = true) ∧
    (plant.grants.get? 0 = some (grant 1 .operate) ∧ (plant.positions.get .p1).state ≠ .vacant ∧
      (plant.positions.get .p1).holder = some 1 ∧ (∀ q, q ≠ .p1 → (plant.positions.get q).holder ≠ some 1) ∧
      areaOwner plant 0 = .p1 ∧ holdsFor (plant.grants.erase 0) 1 .operate 0 .p1 = false ∧
      ∀ b, b < 0 → areaOwner plant b = .p1 → holdsFor (plant.grants.erase 0) 1 .operate b .p1 = true) := by
  refine ⟨by decide, by decide, by decide, by decide, by decide, ?_, by decide, by decide, ?_⟩
  · intro q h; cases q <;> first | decide | exact absurd rfl h
  · intro b h; exact absurd h (Nat.not_lt_zero b)
/-- The temporary OPERATE grant of the last slot is the only one that covers area 0. -/
theorem test_AGrantEndsUnlessItIsInUse_temporary :
    (let g : Grant := ⟨1, .operate, some 0, some .p1, true⟩
     let s : State := { plant with grants := grants.tail ++ [(255, g)] }
     Passes .grantEnd (desk .p0 3) s ∧ Supervises s 3 ∧ 255 < 256 ∧ s.grants.get? 255 = some g ∧
      (s.positions.get .p1).state ≠ .vacant ∧ (s.positions.get .p1).holder = some 1 ∧
      (∀ q, q ≠ .p1 → (s.positions.get q).holder ≠ some 1) ∧ areaOwner s 0 = .p1 ∧
      holdsFor (s.grants.erase 255) 1 .operate 0 .p1 = false ∧
      ∀ b, b < 0 → areaOwner s b = .p1 → holdsFor (s.grants.erase 255) 1 .operate b .p1 = true) := by
  refine ⟨by decide, by decide, by decide, by decide, by decide, by decide, ?_, by decide, by decide, ?_⟩
  · intro q h; cases q <;> first | decide | exact absurd rfl h
  · intro b h; exact absurd h (Nat.not_lt_zero b)

/-- An operator of level 2 at P1, and one locked. -/
def levelled (level : Nat) (grants : Table Grant) : State :=
  { withAlarm ⟨{ defn2 with ackLevel := 1 }, dyn .raised .active⟩ with
    grants := grants,
    operators := [(1, { operator 7 (some (.p1, .holder)) with level := level }), (3, operator 9 (some (.p0, .holder)))] }
theorem test_AccessChecksRefuseInOrder :
    (Passes .ack (desk .p1 255) plant ∧ operator? plant 255 = none) ∧
    ((operator? plant 2).isSome = true ∧ ¬Holds plant 2 .p1) ∧
    (let s := levelled 2 [(0, grant 3 .operate)]
     Passes .ack (desk .p0 3) s ∧ (alarm? s 2047).isSome = true ∧ Holds s 3 .p0 ∧ ownerOf s 2047 ≠ .p0 ∧
       holdsFor s.grants 3 .supervise 0 .p0 = false) ∧
    (let s := levelled 2 []
     Holds s 1 .p1 ∧ ownerOf s 2047 = .p1 ∧ holdsFor s.grants 1 .operate 0 .p1 = false) ∧
    (let s := levelled 2 grants
     Holds s 1 .p1 ∧ ownerOf s 2047 = .p1 ∧ holdsFor s.grants 1 .operate 0 .p1 = true ∧ 1 < levelOf s 1) ∧
    (let r (locked : Bool) (failures : Nat) : Operator := { operator 8 none with locked := locked, failures := failures }
     let s (locked : Bool) (failures : Nat) : State := { plant with operators := [(2, r locked failures)] }
     Passes .signOn (desk .p2 2) (s true 0) ∧ ((s true 0).positions.get .p2).state = .vacant ∧
       operator? (s true 0) 2 = some (r true 0) ∧ operator? (s false 1) 2 = some (r false 1) ∧ (r false 1).failures < 2 ∧
       operator? (s false 2) 2 = some (r false 2) ∧ 2 ≤ (r false 2).failures ∧ (8 : Word) ≠ 7) := by decide

/-! Chapter 5 -/

theorem test_DefinePositionStoresTheConfiguration :
    Passes .definePosition gate State.reset ∧ (⟨6, 255, 0, 0, 0, 0, 0, 0, 65535, 65535⟩ : PositionFields).position = Pos.num .p6 := by
  decide

theorem test_SignOnAndSignOffTakeAndLeaveTheDesk :
    (Passes .signOn (desk .p6 2) plant ∧ (plant.positions.get .p6).state = .vacant ∧ BadgePasses plant 2 8 ∧
      MayTakeDesk plant 2 .p6 ∧ operator? plant 2 = some (operator 8 none)) ∧
    (let s := { plant with areas := List.replicate 16 .p0 }
     Passes .signOff (desk .p1 1) s ∧ Holds s 1 .p1 ∧ (s.positions.get .p1).holder = some 1 ∧
       (s.positions.get .p1).state = .staffed ∧ (s.positions.get .p1).relief = [] ∧ (∀ a, a < 16 → areaOwner s a ≠ .p1) ∧
       s.grants.wf = true) := by decide

/-- Area 15 goes from P0 to P1, whose shelf it fills. -/
def transfer : State :=
  modLists .p0 (fun v => { v with shelf := [⟨2046, 1, 90, 60, 60⟩], deferred := [⟨2047, 100⟩] })
    (modLists .p1 (fun v => { v with shelf := List.replicate 31 ⟨7, 1, 90, 60, 60⟩ })
      { plant with alarms := [(2046, ⟨{ defn2 with area := 15 }, { dyn .raised .active with shelved := true }⟩),
                              (2047, ⟨{ defn2 with area := 15 }, dyn .raised .active⟩)] })
theorem test_AreaTransferMovesTheArea :
    (Passes .areaTransfer (desk .p0 3) transfer ∧ 15 ≤ 15 ∧ Holds transfer 3 .p0 ∧
      holdsFor transfer.grants 3 .supervise 15 .p0 = true ∧ areaOwner transfer 15 = .p0 ∧ Pos.p1 ≠ .p0 ∧
      (transfer.positions.get .p0).state ≠ .offered ∧ (transfer.positions.get .p0).state ≠ .review ∧
      (transfer.positions.get .p1).state = .staffed ∧ (transfer.positions.get .p1).holder = some 1 ∧
      holdsFor transfer.grants 1 .operate 15 .p1 = true) ∧
    (transfer.lists.get .p1).shelf.length +
      (transfer.lists.get .p0).shelf.countP (fun e => (alarmAt transfer e.alarm).defn.area == 15) ≤ 32 := by
  decide +kernel
theorem test_AreaTransferMovesTheArea_capacity : CapacityInv transfer := by
  refine ⟨?_, by decide, ?_, rfl, by decide, by decide, by decide, by decide, by decide, by decide⟩
  · intro p; cases p <;> decide +kernel
  · intro p; cases p <;> decide

/-- A bypass in the last slot of a register that is full but for it, and the review of its area's owner. -/
def bypass (n due : Nat) : Bypass := ⟨n, 999, 1, 400, 3600, due, false⟩
/-- P1 in REVIEW with a BYPASS item for slot 15, and the register with 15 or 16 entries, the last in area 0. -/
def bypassed (n : Nat) : State :=
  { review [{ item 0 with kind := .bypass, subject := 15 }] with
    bypasses := (List.range n).map fun m => (m, bypass (15 - m) 0) }
theorem test_BypassesAreDeclaredEndedAndFallDue :
    (let s := bypassed 15
     Passes .bypassDeclare (desk .p1 1) s ∧ Holds s 1 .p1 ∧ areaOwner s 0 = .p1 ∧ holdsFor s.grants 1 .bypass 0 .p1 = true ∧
       (∀ e ∈ s.bypasses, ¬(e.2.area = 0 ∧ e.2.interlock = 999)) ∧ s.bypasses.get? 15 = none ∧
       (∀ m, m < 15 → s.bypasses.get? m ≠ none) ∧ HasRoom s (areaOwner s 0)) ∧
    (let s := bypassed 16
     Passes .bypassEnd (desk .p1 1) s ∧
       s.bypasses.find? (fun e => e.2.area == 0 && e.2.interlock == 999) = some (15, bypass 0 0) ∧
       (s.positions.get (areaOwner s 0)).state = .review ∧
       (s.positions.get (areaOwner s 0)).items.find? (fun x => x.kind == .bypass && x.subject == 15 && !x.resolved) =
         some { item 0 with kind := .bypass, subject := 15 }) ∧
    (let s := bypassed 16
     s.bypasses.get? 15 = some (bypass 0 0) ∧ (bypass 0 0).due = 0 ∧ (bypass 0 0).overdue = false) ∧
    Numbered ((bypassed 16).positions.get .p1).items := by decide +kernel
/-- One ITEM at P1 for the declaration and the end, one BYPASS_DUE at P1 and at P0 for the expiry. -/
theorem test_BypassesAreDeclaredEndedAndFallDue_notices :
    (∀ n, n = 15 ∨ n = 16 → let s := hearing (.console .p0) 1 (hearing (.console .p1) 1 (bypassed n))
      Hears s (.console .p1) 1 ∧ Hears s (.console .p0) 1 ∧ (s.positions.get .p1).state = .review) := by
  rintro n (rfl | rfl) <;> decide +kernel

theorem test_ANoteIsRetained :
    (let text : List Byte := 32 :: List.replicate 47 126
     let s := modPos .p1 (fun c => { c with notes := List.replicate 7 ⟨1, []⟩ }) (review [item 0])
     Passes .noteAdd (lengthened (.console .p1) 1 51) s ∧ text.length ≤ 48 ∧ 3 + text.length ≤ 51 ∧
       (∀ b ∈ text, 32 ≤ b.toNat ∧ b.toNat ≤ 126) ∧ Holds s 1 .p1 ∧ (s.positions.get .p1).notes.length < 8 ∧
       HasRoom s .p1) := by decide +kernel
theorem test_ANoteIsRetained_notices : Hears (hearing (.console .p1) 1 (review [item 0])) (.console .p1) 1 := by decide +kernel

/-! Chapter 7 -/

theorem test_AnOfferAndATakeOpenTheReview :
    (Passes .handoverOffer (desk .p1 1) plant ∧ Holds plant 1 .p1 ∧ (plant.positions.get .p1).state = .staffed ∧
      (plant.positions.get .p1).relief = [] ∧ (operator? plant 2).isSome = true ∧ engagementOf plant 2 = none) ∧
    (Passes .handoverTake (desk .p1 2) offered ∧ (offered.positions.get .p1).state = .offered ∧ BadgePasses offered 2 8 ∧
      operator? offered 2 = some (operator 8 none) ∧ (offered.positions.get .p1).incoming = some 2 ∧
      (operator 8 none).level ≤ (offered.positions.get .p1).staffing) := by decide

theorem test_ConfirmedItemsAllowTheAcceptance :
    (let s := review ((List.range 16).map item)
     Passes .itemConfirm (lengthened (.console .p1) 2 18) s ∧ 1 ≤ (List.range 16).length ∧ (List.range 16).length ≤ 16 ∧
       2 + (List.range 16).length ≤ 18 ∧ engagementOf s 2 = some (.p1, .incoming) ∧
       ∀ n ∈ List.range 16, n < (s.positions.get .p1).items.length) ∧
    (let s := review [{ item 0 with confirmed := true }]
     Passes .handoverAccept (desk .p1 2) s ∧ operator? s 2 = some (operator 8 (some (.p1, .incoming))) ∧
       (∀ it ∈ (s.positions.get .p1).items, it.isOpen = false) ∧
       (∀ a, a < 16 → areaOwner s a = .p1 → holdsFor s.grants 2 .operate a .p1 = true) ∧ LoadAllows s 2 .p1 ∧
       (s.positions.get .p1).holder = some 1 ∧ Holds s 1 .p1 ∧ s.grants.wf = true) ∧
    (let s := review [{ item 0 with confirmed := true }, item 1]
     Passes .handoverAccept (desk .p1 2) s ∧ engagementOf s 2 = some (.p1, .incoming) ∧
       (s.positions.get .p1).items.find? Item.isOpen = some (item 1)) := by decide +kernel

theorem test_AHandoverEndsWithoutAcceptance :
    (let s := offered
     (s.positions.get .p1).incoming = some 2 ∧ s.grants.wf = true ∧ (s.positions.get .p1).state = .offered ∧
       Passes .handoverWithdraw (desk .p1 1) s ∧ Holds s 1 .p1 ∧ Passes .handoverCancel (desk .p0 3) s ∧ Supervises s 3 ∧
       (s.positions.get .p1).timer = some 0) ∧
    (let s := review [item 0]
     (s.positions.get .p1).incoming = some 2 ∧ s.grants.wf = true ∧ (s.positions.get .p1).state = .review ∧
       engagementOf s 2 = some (.p1, .incoming) ∧ Passes .handoverWithdraw (desk .p1 2) s ∧
       Passes .handoverCancel (desk .p0 3) s ∧ Supervises s 3 ∧ (s.positions.get .p1).timer = some 0) := by decide
/-- HANDOVER at P1 and at P0: the last place of each queue. -/
theorem test_the_handover_notices :
    ∀ s, s = plant ∨ s = offered ∨ s = review [item 0] → let t := hearing (.console .p0) 1 (hearing (.console .p1) 1 s)
      Hears t (.console .p0) 1 ∧ Hears t (.console .p1) 1 := by
  rintro s (rfl | rfl | rfl) <;> decide +kernel

/-! Chapter 8 -/

/-- A RELIEF_TAKE of the second frame, and a RELIEF_RETURN to the bottom one past two others. -/
theorem test_ReliefIsTakenAndReturned :
    (let s := relieved
     Passes .reliefTake (desk .p1 4) s ∧ (s.positions.get .p1).state = .staffed ∧ BadgePasses s 4 10 ∧ MayTakeDesk s 4 .p1 ∧
       (s.positions.get .p1).relief.length < 2 ∧ LoadAllows s 4 .p1 ∧ (s.positions.get .p1).holder = some 2 ∧
       operator? s 4 = some (operator 10 none) ∧ operator? s 2 = some (operator 8 (some (.p1, .holder)))) ∧
    (let s := after (.reliefTake (desk .p1 4) 10) relieved
     Passes .reliefReturn (desk .p1 1) s ∧ BadgePasses s 1 7 ∧ (s.positions.get .p1).relief[0]? = some ⟨1, 400, 0, false⟩ ∧
       (s.positions.get .p1).relief.length = 2 ∧ uncovered? s s.grants 1 .p1 = none ∧
       levelOf s 1 ≤ (s.positions.get .p1).staffing ∧ (s.positions.get .p1).holder = some 4 ∧ s.grants.wf = true ∧
       engagementOf s 4 = some (.p1, .holder) ∧ engagementOf s 2 = some (.p1, .stacked) ∧ [4, 2].Nodup) ∧
    (∀ m x, m < 0 → (relieved.positions.get .p1).relief[m]? = some x → x.operator ≠ 1) ∧
    (∀ e ∈ relieved.grants, e.2.temporary = false) :=
  ⟨by decide, by decide +kernel, fun m _ h => absurd h (Nat.not_lt_zero m), by decide⟩

theorem test_ReliefIsClearedAndFallsOverdue :
    (Passes .reliefClear (desk .p0 3) relieved ∧ Supervises relieved 3 ∧ (relieved.positions.get .p1).relief ≠ [] ∧
      relieved.grants.wf = true ∧ (∀ e ∈ relieved.grants, e.2.temporary = false) ∧
      ((relieved.positions.get .p1).relief.map (·.operator)).Nodup ∧ engagementOf relieved 1 = some (.p1, .stacked)) ∧
    (let s := after (.reliefTake (desk .p1 4) 10) relieved
     (s.positions.get .p1).relief[1]? = some ⟨2, 500, 1800, false⟩) ∧
    ((relieved.positions.get .p1).relief[0]? = some ⟨1, 400, 0, false⟩) :=
  ⟨by decide, by decide +kernel, by decide⟩
theorem test_ReliefIsClearedAndFallsOverdue_notices :
    (let s := hearing (.console .p0) 1 (hearing (.console .p1) 1 relieved)
     (s.positions.get .p1).relief[0]? = some ⟨1, 400, 0, false⟩ ∧ Hears s (.console .p0) 1 ∧ Hears s (.console .p1) 1) := by
  decide +kernel

/-! ### Values of the worked sequence (chapter 12) -/

/-- P1 with a load, outside flood or in it, its decay timer expired. -/
def loaded (load : Nat) (flood : Bool) (s : State) : State :=
  modLoad .p1 (fun d => { d with load := load, flood := flood, decay := 0 }) s

/-- 12.1 and 12.2: the decays from 15000 to 14766 and, in flood, from 26766 to 26348. -/
theorem test_decay_of_the_manual :
    ((after (.decayExpiry .p1) (loaded 15000 false plant)).loads.get .p1).load = 14766 ∧
    ((after (.decayExpiry .p1) (loaded 26766 true plant)).loads.get .p1).load = 26348 := by decide +kernel
/-- 12.2: the priority 1 raise that brings 23166 to 24366 turns flood ON, and the journal gains ALARM_RAISED with detail 1
before FLOOD_ENTERED with detail 24366. -/
theorem test_the_raise_that_turns_flood_on :
    (let s := loaded 23166 false (withAlarm ⟨{ defn2 with priority := 1 }, dyn .normal .active⟩)
     let t := after (.alarmEventRaise gate 2047 1) s
     (t.loads.get .p1).load = 24366 ∧ (t.loads.get .p1).flood = true ∧
     t.journal.map (fun e => (e.kind, e.detail)) = [(.alarmRaised, 1), (.floodEntered, 24366)]) := by decide +kernel
/-- 12.2: in flood a priority 4 alarm goes to the deferred list, and its weight is 80. -/
theorem test_the_raise_in_flood :
    (let t := after (.alarmEventRaise gate 2047 1) (loaded 26348 true (withAlarm low))
     (t.lists.get .p1).deferred = [⟨2047, 500⟩] ∧ (t.lists.get .p1).ann = [] ∧ (t.loads.get .p1).load = 26428) := by
  decide +kernel
/-- 12.3: an accept with items open is refused with ITEMS_OPEN and the lowest; one under a load of 18120 with LOAD_HIGH. -/
theorem test_the_refused_accepts :
    outgoing (after (.handoverAccept (desk .p1 2)) (review [{ item 0 with confirmed := true }, item 1])) (.console .p1) =
      [⟨46, 9, true, true, false, false, [1, 23, 0, 1, 0, 46]⟩] ∧
    outgoing (after (.handoverAccept (desk .p1 2)) (loaded 18120 true (review []))) (.console .p1) =
      [⟨46, 9, true, true, false, false, [1, 24, 0x46, 0xC8, 0, 46]⟩] := by decide +kernel
/-- 12.3 and 12.4: the detail of ACKNOWLEDGED is the requesting position × 256 + HELD 2, here P1's and P0's. -/
theorem test_the_detail_of_acknowledged :
    (after (.ack (desk .p1 1) 2047) (annunciated none)).journal.map (·.detail) = [258] ∧
    (after (.ack (desk .p0 3) 2047) (annunciated none)).journal.map (·.detail) = [2] := by decide +kernel
/-- 12.4: the expiry that reaches escalation count 1 writes ESCALATED with detail 1, sends ESCALATE ENTERED to P0 and
restarts the reminder. -/
theorem test_the_escalation :
    (let t := after (.reminderExpiry 2047) (annunciated (some 0))
     t.escalation = [⟨2047, 100⟩] ∧ t.journal.map (fun e => (e.kind, e.detail)) = [(.escalated, 1)] ∧
     outgoing t (.console .p0) = [noticeFrame (.escalate 2047 2 0 .p1 none)] ∧
     (t.lists.get .p1).ann = [⟨2047, 100, false, some 30⟩]) := by decide +kernel

end Sys2Proof.Tests
end

section
/-! PROOFS. Cold start: what R46 and R106 say of the PLU and the PCU. The state that cold start gives is the one of reset
outside the queue of commands and the counter of free values, so each clause is read off the state of reset. -/

namespace Sys2Proof.Machine

/-- R178: cold start forgets the whole prior state but the waiting commands and the counter of free values (log 4). -/
theorem exec_coldStart (s : State) :
    exec .coldStart s = .next { State.reset with free := s.free, pending := s.pending } := rfl

/-- R46: after reset every position has the cold lists. -/
theorem reset_lists_get (p : Pos) : State.reset.lists.get p = PosLists.cold := PerPos.get_all _ p

/-- R106: after reset every position has the cold context. -/
theorem reset_positions_get (p : Pos) : State.reset.positions.get p = PosContext.cold := PerPos.get_all _ p

/-- R106: a map of areas that all belong to P0 gives every area to P0. A number past the map reads as P0 too, by
`areaOwner`'s default. -/
theorem areaOwner_of_areas_replicate {t : State} {n : Nat} (h : t.areas = List.replicate n .p0) (a : Nat) :
    areaOwner t a = .p0 := by
  rw [areaOwner, h, List.getD_eq_getElem?_getD, List.getElem?_getD_replicate_default_eq]

/-- R66: where no operator has a record, none is engaged. -/
theorem engagementOf_of_operators_nil {t : State} (h : t.operators = []) (o : Nat) : engagementOf t o = none := by
  rw [engagementOf, operator?, h, Table.get?, ite_self, Option.bind_none]

/-- Settles O2: the witness is the state of reset with the queue and the counter of `s`. The lists and the contexts are the
cold ones at every position, the area map is P0's throughout, and no operator is left to be engaged. -/
theorem coldStartLeavesListsAndDesksEmpty : Obligations.ColdStartLeavesListsAndDesksEmpty := by
  intro s
  refine ⟨_, exec_coldStart s, rfl, rfl, fun p => ?lists, fun p => ?contexts, ?areas, rfl, ?engagements⟩
  case lists => simp [reset_lists_get, PosLists.cold]
  case contexts => simp [reset_positions_get, PosContext.cold]
  case areas => exact areaOwner_of_areas_replicate rfl
  case engagements => exact engagementOf_of_operators_nil rfl

end Sys2Proof.Machine
end

section
/-! PROOFS. Load: what R54 says of an addition. The weight saturates the load of one position, and flood evaluation may then
turn flood mode; whatever changes outside the loads is the work of that turn. -/

namespace Sys2Proof.Machine

/-! ### The saturating sum -/

/-- R54: the load state after an addition of a weight, before flood evaluation. -/
def PosLoad.added (w : Nat) (d : PosLoad) : PosLoad :=
  if d.load + w ≤ Config.maxLoad then { d with load := d.load + w } else { d with load := Config.maxLoad, limit := true }

theorem addLoad_eq (p : Pos) (w : Nat) (s : State) : addLoad p w s = evaluateFlood p (modLoad p (PosLoad.added w) s) := rfl

namespace PosLoad
variable {w : Nat} {d : PosLoad}

theorem added_of_le (h : d.load + w ≤ 65535) : d.added w = { d with load := d.load + w } := if_pos h

theorem added_of_lt (h : 65535 < d.load + w) : d.added w = { d with load := 65535, limit := true } :=
  if_neg (Nat.not_le.2 h)

/-- R54: an addition writes the load and LIMIT alone. -/
theorem added_eq (w : Nat) (d : PosLoad) : d.added w = { d with load := (d.added w).load, limit := (d.added w).limit } := by
  rcases Nat.lt_or_ge 65535 (d.load + w) with h | h
  · rw [added_of_lt h]
  · rw [added_of_le h]

@[simp] theorem added_flood : (d.added w).flood = d.flood := by rw [added_eq]
@[simp] theorem added_decay : (d.added w).decay = d.decay := by rw [added_eq]
@[simp] theorem added_k : (d.added w).k = d.k := by rw [added_eq]
@[simp] theorem added_e : (d.added w).e = d.e := by rw [added_eq]
@[simp] theorem added_x : (d.added w).x = d.x := by rw [added_eq]
@[simp] theorem added_h : (d.added w).h = d.h := by rw [added_eq]

end PosLoad

/-! ### Flood evaluation that turns nothing -/

theorem floodTurned_flood (p : Pos) (on : Bool) (s : State) : ((floodTurned p on s).loads.get p).flood = on := by
  rw [floodTurned_loads, modLoad_get_self]

/-- R56: flood evaluation either turns flood mode or does nothing. -/
theorem evaluateFlood_eq_self {p : Pos} {s : State}
    (h : ((evaluateFlood p s).loads.get p).flood = (s.loads.get p).flood) : evaluateFlood p s = s := by
  simp only [evaluateFlood] at h ⊢
  split_ifs at h ⊢ with enters leaves
  · rw [floodTurned_flood] at h
    simp [← h] at enters
  · rw [floodTurned_flood] at h
    simp [← h] at leaves
  · rfl

/-! ### The addition -/

/-- R54, R56: the load state an addition leaves: the saturating sum, evaluated for flood. -/
theorem addLoad_loads (p : Pos) (w : Nat) (s : State) :
    (addLoad p w s).loads.get p =
      { (s.loads.get p).added w with
        flood := if (s.loads.get p).flood then decide ((s.loads.get p).x < ((s.loads.get p).added w).load)
                 else decide ((s.loads.get p).e ≤ ((s.loads.get p).added w).load) } := by
  rw [addLoad_eq, evaluateFlood_loads]
  simp

/-- R54: an addition that leaves flood mode as it was changes nothing outside the loads. -/
theorem kept_addLoad_of_flood_eq {p : Pos} {w : Nat} {s : State}
    (h : ((addLoad p w s).loads.get p).flood = (s.loads.get p).flood) : Kept [.loads] s (addLoad p w s) := by
  rw [addLoad_eq] at h ⊢
  rw [evaluateFlood_eq_self (by simpa using h)]
  exact (quiet_modLoad ..).kept

/-- Settles O30: the load state is the saturating sum evaluated for flood (`addLoad_loads`), the frame outside the loads holds
because an evaluation that turns nothing does nothing, and the other positions are untouched because the work is at `p`. -/
theorem anAdditionSaturatesAndIsEvaluated : Obligations.AnAdditionSaturatesAndIsEvaluated := by
  intro p w s d e
  have he : e = { d.added w with
      flood := if d.flood then decide (d.x < (d.added w).load) else decide (d.e ≤ (d.added w).load) } := addLoad_loads p w s
  refine ⟨fun hle => ?sum, fun hlt => ?saturated, ?flood, ?k, ?e, ?x, ?h, ?decay, kept_addLoad_of_flood_eq,
    (atPos_addLoad p s w).loads⟩
  case sum => simp [he, PosLoad.added_of_le hle]
  case saturated => simp [he, PosLoad.added_of_lt hlt]
  all_goals simp [he]

end Sys2Proof.Machine
end

section
/-! PROOFS. Links: the five cases in which a notice meets the queue of a link (R167, R169), one equation each. -/

namespace Sys2Proof.Machine

namespace LinkState
variable {k : LinkState} {console : Bool} {n : Notice}

theorem join_down (h : k.up = false) : k.join console n = k := by simp [join, h]

theorem join_covered (h : n.isList = true ∧ k.snapshotDue = true) : k.join console n = k := by
  simp [join, h.1, h.2]

theorem join_room (up : k.up = true) (fresh : ¬(n.isList = true ∧ k.snapshotDue = true)) (room : k.queue.length < 32) :
    k.join console n = { k with queue := k.queue ++ [⟨n, !k.snapshot.isEmpty⟩] } := by
  have hf : (n.isList && k.snapshotDue) = false := by simpa using fresh
  simp [join, up, hf, room, Config.queueCapacity]

theorem join_full_list (up : k.up = true) (fresh : ¬(n.isList = true ∧ k.snapshotDue = true)) (full : 32 ≤ k.queue.length)
    (list : ∃ q ∈ k.queue, q.notice.isList = true) :
    k.join console n = { k with
      queue := (k.queue.filter fun q => !q.notice.isList) ++ if n.isList then [] else [⟨n, !k.snapshot.isEmpty⟩],
      snapshotDue := k.snapshotDue || console } := by
  have hf : (n.isList && k.snapshotDue) = false := by simpa using fresh
  have hl : (k.queue.any fun q => q.notice.isList) = true := by simpa using list
  simp only [join, up, hf, Nat.not_lt.2 full, hl, Config.queueCapacity, Bool.not_true, Bool.false_eq_true, if_false, if_true]
  split <;> simp

theorem join_full_other (up : k.up = true) (fresh : ¬(n.isList = true ∧ k.snapshotDue = true)) (full : 32 ≤ k.queue.length)
    (other : ∀ q ∈ k.queue, q.notice.isList = false) :
    k.join console n = { k with
      queue := k.queue.tail ++ [⟨n, !k.snapshot.isEmpty⟩], snapshotDue := k.snapshotDue || console } := by
  have hf : (n.isList && k.snapshotDue) = false := by simpa using fresh
  have hl : (k.queue.any fun q => q.notice.isList) = false := by simpa using other
  simp [join, up, hf, Nat.not_lt.2 full, hl, Config.queueCapacity]

/-- R167, R169: the cases of a notice and a queue, one of which always holds. -/
theorem join_cases (k : LinkState) (n : Notice) :
    k.up = false ∨ k.up = true ∧ ((n.isList = true ∧ k.snapshotDue = true) ∨
      ¬(n.isList = true ∧ k.snapshotDue = true) ∧ (k.queue.length < 32 ∨
        32 ≤ k.queue.length ∧ ((∃ q ∈ k.queue, q.notice.isList = true) ∨ ∀ q ∈ k.queue, q.notice.isList = false))) := by
  rcases Bool.eq_false_or_eq_true k.up with up | up
  · refine .inr ⟨up, (Classical.em _).imp_right fun fresh => ⟨fresh, (Nat.lt_or_ge _ _).imp_right fun full => ⟨full, ?_⟩⟩⟩
    by_cases list : ∃ q ∈ k.queue, q.notice.isList = true
    · exact .inl list
    · exact .inr fun q hq => by simpa using fun h => list ⟨q, hq, h⟩
  · exact .inl up

end LinkState

/-- Settles O19: each clause is the equation of its case, and the last is what every case leaves. -/
theorem aNoticeJoinsAQueue : Obligations.ANoticeJoinsAQueue := by
  intro k console n j
  refine ⟨LinkState.join_down, fun _ list due => LinkState.join_covered ⟨list, due⟩, fun up fresh room => ?room,
    fun up fresh full list => ?list, fun up fresh full other => ?other, LinkState.join_fields ..⟩
  case room => simp [j, LinkState.join_room up fresh room]
  case list =>
    simp only [j, LinkState.join_full_list up fresh full list, List.map_append, List.filter_map, and_true]
    congr 1
    split <;> rfl
  case other => simp [j, LinkState.join_full_other up fresh full other]

end Sys2Proof.Machine
end

section
/-! PROOFS. The invariants of the blocks, part by part: `Keeps s t` says that work from `s` to `t` keeps the load, journal,
alarm, desk and capacity invariants, and of every link all but its hold timer, which the end of a command judges. It composes,
so that one lemma for each update of one record gives one for every shared operation, and so for every command. -/

namespace Sys2Proof.Machine

/-! ### The invariants, record by record -/

/-- R25, R108: the lists of a position within their capacities. -/
def PosLists.Fits (v : PosLists) : Prop := v.ann.length ≤ 128 ∧ v.deferred.length ≤ 256 ∧ v.shelf.length ≤ 32

/-- R128, R129: an item list within its capacity, with a place held for each summary kind, and numbered. -/
def ItemsFit (items : List Item) : Prop := items.length + heldPlaces items ≤ 96 ∧ Numbered items

/-- R104, R129, R146: a context within its capacities. -/
def PosContext.Fits (c : PosContext) : Prop := c.notes.length ≤ 8 ∧ c.relief.length ≤ 2 ∧ ItemsFit c.items

theorem capacityInv_iff (s : State) : CapacityInv s ↔
    (∀ p, (s.lists.get p).Fits) ∧ s.escalation.length ≤ 64 ∧ (∀ p, (s.positions.get p).Fits) ∧ s.areas.length = 16 ∧
      s.alarms.wf = true ∧ s.operators.wf = true ∧ s.grants.wf = true ∧ s.bypasses.wf = true ∧
      (∀ e ∈ s.grants, e.1 < 256) ∧ (∀ e ∈ s.bypasses, e.1 < 16) := Iff.rfl

/-- R167 to R173: what a link keeps while a command is at work: its invariant but for the hold timer. -/
def LinkState.Calm (k : LinkState) : Prop :=
  k.queue.length ≤ 32 ∧ (k.up = false → k.queue = []) ∧
    (k.snapshotDue = true → k.queue.countP (fun q => q.notice.isList) ≤ 1) ∧
    (k.snapshot ≠ [] → k.queue.countP (fun q => q.notice.isList && !q.since) ≤ 1) ∧
    (k.allowance = true → k.flow = .hold)

/-- R167 to R173: a link at rest between two updates, and, for the plant link, what it holds. -/
def CalmAt (l : Link) (k : LinkState) : Prop := k.Calm ∧ (l = .plant → PlantSound k)

def LinksCalm (s : State) : Prop := ∀ l, CalmAt l (s.links.get l)

theorem LinkState.sound_iff (k : LinkState) : k.Sound ↔ k.Calm ∧ k.holdTimer.isSome = k.holdRuns := by
  simp only [LinkState.Sound, LinkState.Calm, and_assoc]

/-- R171: the link invariant is the calm of every link with its hold timer judged. -/
theorem linkInv_iff (s : State) :
    LinkInv s ↔ LinksCalm s ∧ ∀ l, (s.links.get l).holdTimer.isSome = (s.links.get l).holdRuns := by
  constructor
  · rintro ⟨h, hp⟩
    refine ⟨fun l => ⟨((LinkState.sound_iff _).1 (h l)).1, ?_⟩, fun l => ((LinkState.sound_iff _).1 (h l)).2⟩
    rintro rfl
    exact hp
  · rintro ⟨hc, ht⟩
    exact ⟨fun l => (LinkState.sound_iff _).2 ⟨(hc l).1, ht l⟩, (hc .plant).2 rfl⟩

/-! ### The algebra of `Keeps` -/

/-- The invariants that hold whatever the lengths of the lists. -/
structure Steady (s t : State) : Prop where
  load : LoadInv s → LoadInv t
  calm : LinksCalm s → LinksCalm t
  journal : JournalInv s → JournalInv t
  alarm : AlarmInv s → AlarmInv t
  desk : DeskInv s → DeskInv t

/-- Work that keeps the invariants of the blocks. -/
structure Keeps (s t : State) : Prop extends Steady s t where
  capacity : CapacityInv s → CapacityInv t

namespace Steady
variable {s t u : State}

theorem refl (s : State) : Steady s s := ⟨id, id, id, id, id⟩

theorem trans (h : Steady s t) (k : Steady t u) : Steady s u :=
  ⟨k.load ∘ h.load, k.calm ∘ h.calm, k.journal ∘ h.journal, k.alarm ∘ h.alarm, k.desk ∘ h.desk⟩

end Steady

namespace Keeps
variable {s t u : State}

theorem refl (s : State) : Keeps s s := ⟨.refl s, id⟩

theorem trans (h : Keeps s t) (k : Keeps t u) : Keeps s u := ⟨h.toSteady.trans k.toSteady, k.capacity ∘ h.capacity⟩

theorem ite {c : Prop} [Decidable c] (h : c → Keeps s t) (k : ¬c → Keeps s u) : Keeps s (if c then t else u) := by
  split
  · exact h ‹_›
  · exact k ‹_›

theorem when {c : Prop} [Decidable c] (k : c → Keeps t u) : Keeps t (if c then u else t) := .ite k fun _ => .refl t

/-- One kind of work done for each element of a list. -/
theorem foldl {α : Type} {f : State → α → State} (h : ∀ s a, Keeps s (f s a)) (s : State) (l : List α) :
    Keeps s (l.foldl f s) := by
  induction l generalizing s with
  | nil => exact .refl s
  | cons a l ih => exact (h s a).trans (ih _)

/-- Work that leaves every part of which an invariant speaks. -/
theorem of_kept {ps : List Part} (h : Kept ps s t) (hp : ∀ p ∈ ps, p = .clock ∨ p = .device ∨ p = .mask ∨ p = .free ∨ p = .pending) :
    Keeps s t := by
  have part (p : Part) (hc : p ≠ .clock) (hd : p ≠ .device) (hm : p ≠ .mask) (hf : p ≠ .free) (hq : p ≠ .pending) :
      Agrees s t p := h.agrees p fun hmem => by simpa [hc, hd, hm, hf, hq] using hp p hmem
  have links : t.links = s.links := part .links nofun nofun nofun nofun nofun
  have alarms : t.alarms = s.alarms := part .alarms nofun nofun nofun nofun nofun
  have lists : t.lists = s.lists := part .lists nofun nofun nofun nofun nofun
  have escalation : t.escalation = s.escalation := part .escalation nofun nofun nofun nofun nofun
  have loads : t.loads = s.loads := part .loads nofun nofun nofun nofun nofun
  have operators : t.operators = s.operators := part .operators nofun nofun nofun nofun nofun
  have grants : t.grants = s.grants := part .grants nofun nofun nofun nofun nofun
  have positions : t.positions = s.positions := part .positions nofun nofun nofun nofun nofun
  have areas : t.areas = s.areas := part .areas nofun nofun nofun nofun nofun
  have bypasses : t.bypasses = s.bypasses := part .bypasses nofun nofun nofun nofun nofun
  obtain ⟨journal, seq⟩ : t.journal = s.journal ∧ t.nextSeq = s.nextSeq := part .journal nofun nofun nofun nofun nofun
  exact ⟨⟨by simp only [LoadInv, loads, imp_self], by simp only [LinksCalm, links, imp_self],
    by simp only [JournalInv, journal, seq, imp_self], by simp only [AlarmInv, alarms, imp_self],
    by simp only [DeskInv, positions, imp_self]⟩,
    by simp only [CapacityInv, lists, escalation, positions, areas, alarms, operators, grants, bypasses, imp_self]⟩

end Keeps

theorem Keeps.unless {t u : State} {c : Prop} [Decidable c] (k : ¬c → Keeps t u) : Keeps t (if c then t else u) :=
  .ite (fun _ => .refl t) k

/-! ### Updates of one record -/

section records
variable {s : State}

theorem steady_modLists {p : Pos} {f : PosLists → PosLists} : Steady s (modLists p f s) := ⟨id, id, id, id, id⟩

theorem keeps_modLists {p : Pos} {f : PosLists → PosLists} (h : (s.lists.get p).Fits → (f (s.lists.get p)).Fits) :
    Keeps s (modLists p f s) := by
  refine ⟨steady_modLists, fun hc => ?_⟩
  obtain ⟨lists, rest⟩ := (capacityInv_iff s).1 hc
  refine (capacityInv_iff _).2 ⟨fun q => ?_, rest⟩
  rw [modLists_get]
  split
  · exact h (lists p)
  · exact lists q

theorem keeps_modLoad {p : Pos} {f : PosLoad → PosLoad} (h : (s.loads.get p).Sound → (f (s.loads.get p)).Sound) :
    Keeps s (modLoad p f s) := by
  refine ⟨⟨fun hl q => ?_, id, id, id, id⟩, id⟩
  rw [modLoad_get]
  split
  · exact h (hl p)
  · exact hl q

theorem keeps_modPos {p : Pos} {f : PosContext → PosContext}
    (h : CapacityInv s → (s.positions.get p).Fits → (f (s.positions.get p)).Fits)
    (hd : (s.positions.get p).Sound → (f (s.positions.get p)).Sound) : Keeps s (modPos p f s) := by
  refine ⟨⟨id, id, id, id, fun hs q => ?_⟩, fun hc => ?_⟩
  · rw [modPos_get]
    split
    · exact hd (hs p)
    · exact hs q
  · obtain ⟨lists, escalation, contexts, rest⟩ := (capacityInv_iff s).1 hc
    refine (capacityInv_iff _).2 ⟨lists, escalation, fun q => ?_, rest⟩
    rw [modPos_get]
    split
    · exact h hc (contexts p)
    · exact contexts q

theorem Table.mem_insert {α : Type} {t : Table α} {i : Nat} {x : α} {e : Nat × α} (h : e ∈ t.insert i x) :
    e = (i, x) ∨ e ∈ t := by
  induction t with
  | nil => simpa [Table.insert] using h
  | cons a t ih =>
    obtain ⟨j, y⟩ := a
    simp only [Table.insert] at h
    split at h
    · simpa using h
    · split at h
      · simp only [List.mem_cons] at h ⊢; tauto
      · simp only [List.mem_cons] at h ⊢
        rcases h with h | h
        · tauto
        · have := ih h; tauto

/-- The entries of a table after a record is changed: those it had, and the changed one. -/
theorem Table.mem_modify {α : Type} {t : Table α} {i : Nat} {f : α → α} {e : Nat × α} (h : e ∈ t.modify i f) :
    (∃ x, t.get? i = some x ∧ e = (i, f x)) ∨ e ∈ t := by
  unfold Table.modify at h
  split at h
  · rcases Table.mem_insert h with h | h
    · exact .inl ⟨_, ‹_›, h⟩
    · exact .inr h
  · exact .inr h

theorem keeps_modAlarm {i : Nat} {f : Alarm → Alarm} (h : ∀ a, alarm? s i = some a → a.Sound → (f a).Sound) :
    Keeps s (modAlarm i f s) := by
  refine ⟨⟨id, id, id, fun ha e he => ?_, id⟩, fun hc => ?_⟩
  · rcases Table.mem_modify he with ⟨a, hget, rfl⟩ | he
    · obtain ⟨bound, sound⟩ := ha _ (Table.mem_of_get? hget)
      exact ⟨bound, h a hget sound⟩
    · exact ha e he
  · obtain ⟨lists, escalation, contexts, areas, alarms, rest⟩ := (capacityInv_iff s).1 hc
    exact (capacityInv_iff _).2 ⟨lists, escalation, contexts, areas, Table.wf_modify alarms _ _, rest⟩

theorem keeps_modDyn {i : Nat} {f : AlarmDyn → AlarmDyn}
    (h : ∀ a, alarm? s i = some a → a.Sound → Alarm.Sound { a with dyn := f a.dyn }) : Keeps s (modDyn i f s) :=
  keeps_modAlarm h

theorem keeps_operators {t : Table Operator} (h : s.operators.wf = true → t.wf = true) :
    Keeps s { s with operators := t } := by
  refine ⟨⟨id, id, id, id, id⟩, fun hc => ?_⟩
  obtain ⟨lists, escalation, contexts, areas, alarms, operators, rest⟩ := (capacityInv_iff s).1 hc
  exact (capacityInv_iff _).2 ⟨lists, escalation, contexts, areas, alarms, h operators, rest⟩

theorem keeps_modOperator {o : Nat} {f : Operator → Operator} : Keeps s (modOperator o f s) :=
  keeps_operators fun h => Table.wf_modify h _ _

theorem keeps_grants {t : Table Grant} (h : s.grants.wf = true → t.wf = true)
    (hb : (∀ e ∈ s.grants, e.1 < 256) → ∀ e ∈ t, e.1 < 256) : Keeps s { s with grants := t } := by
  refine ⟨⟨id, id, id, id, id⟩, fun hc => ?_⟩
  obtain ⟨lists, escalation, contexts, areas, alarms, operators, grants, bypasses, slots, rest⟩ := (capacityInv_iff s).1 hc
  exact (capacityInv_iff _).2 ⟨lists, escalation, contexts, areas, alarms, operators, h grants, bypasses, hb slots, rest⟩

theorem keeps_bypasses {t : Table Bypass} (h : s.bypasses.wf = true → t.wf = true)
    (hb : (∀ e ∈ s.bypasses, e.1 < 16) → ∀ e ∈ t, e.1 < 16) : Keeps s { s with bypasses := t } := by
  refine ⟨⟨id, id, id, id, id⟩, fun hc => ?_⟩
  obtain ⟨lists, escalation, contexts, areas, alarms, operators, grants, bypasses, slots, register⟩ := (capacityInv_iff s).1 hc
  exact (capacityInv_iff _).2 ⟨lists, escalation, contexts, areas, alarms, operators, grants, h bypasses, slots, hb register⟩

theorem keeps_areas {areas : List Pos} (h : areas.length = s.areas.length) : Keeps s { s with areas := areas } := by
  refine ⟨⟨id, id, id, id, id⟩, fun hc => ?_⟩
  obtain ⟨lists, escalation, contexts, sixteen, rest⟩ := (capacityInv_iff s).1 hc
  exact (capacityInv_iff _).2 ⟨lists, escalation, contexts, h.trans sixteen, rest⟩

theorem keeps_escalation {l : List ListEntry} (h : s.escalation.length ≤ 64 → l.length ≤ 64) :
    Keeps s { s with escalation := l } := by
  refine ⟨⟨id, id, id, id, id⟩, fun hc => ?_⟩
  obtain ⟨lists, escalation, rest⟩ := (capacityInv_iff s).1 hc
  exact (capacityInv_iff _).2 ⟨lists, h escalation, rest⟩

theorem keeps_modLink {l : Link} {f : LinkState → LinkState} (h : CalmAt l (s.links.get l) → CalmAt l (f (s.links.get l))) :
    Keeps s (modLink l f s) := by
  refine ⟨⟨id, fun hc m => ?_, id, id, id⟩, id⟩
  rw [modLink_get]
  split
  · subst m; exact h (hc l)
  · exact hc m

/-- R154: an entry takes the next sequence, and the ring drops its oldest entry when it is full. -/
theorem journalInv_append {k : EntryKind} {p : Option Pos} {o i : Option Nat} {d : Nat} (h : JournalInv s) :
    JournalInv (append k p o i d s) := by
  obtain ⟨bound, sequences⟩ := h
  generalize he : (⟨s.nextSeq, s.millTime, k, p, o, i, d⟩ : Entry) = e
  have step (m : Nat) : s.nextSeq + 1 - BitVec.ofNat 32 (m + 1) = s.nextSeq - BitVec.ofNat 32 m := by
    rw [BitVec.ofNat_add]; exact add_sub_add_right_eq_sub ..
  have grown (n : Nat) (hn : n < (s.journal ++ [e]).length) :
      (s.journal ++ [e])[n].sequence = s.nextSeq + 1 - BitVec.ofNat 32 (s.journal.length + 1 - n) := by
    rw [List.getElem_append]
    split
    · rename_i hlt
      rw [sequences n hlt, Nat.sub_add_comm hlt.le, step]
    · have last : n = s.journal.length := by simp at hn; omega
      subst last he
      simp
  have ring := append_journal k p o i d s _ he.symm
  rw [JournalInv, append_nextSeq, ring]
  split
  · rename_i room
    refine ⟨by simp; omega, fun n hn => ?_⟩
    rw [grown n hn]; simp
  · rename_i full
    refine ⟨by simp; omega, fun n hn => ?_⟩
    simp only [List.length_tail, List.length_append, List.length_singleton] at hn
    rw [List.getElem_tail, grown (n + 1) (by simp; omega)]
    simp only [List.length_tail, List.length_append, List.length_singleton]
    congr 2
    omega

theorem keeps_append {k : EntryKind} {p : Option Pos} {o i : Option Nat} {d : Nat} : Keeps s (append k p o i d s) :=
  ⟨⟨id, id, journalInv_append, id, id⟩, id⟩

end records

/-! ### LIU -/

/-- R167, R169: a notice leaves a link calm, whichever case of the queue it meets. -/
theorem LinkState.Calm.join {k : LinkState} (h : k.Calm) (console : Bool) (n : Notice) : (k.join console n).Calm := by
  obtain ⟨room, down, due, joined, allowance⟩ := h
  have counts (l : List Queued) (hl : ∀ q ∈ l, q.notice.isList = false) :
      l.countP (fun q => q.notice.isList) = 0 ∧ l.countP (fun q => q.notice.isList && !q.since) = 0 := by
    simp only [List.countP_eq_zero]
    exact ⟨fun q hq => by simp [hl q hq], fun q hq => by simp [hl q hq]⟩
  rcases k.join_cases n with dn | ⟨up, covered | ⟨fresh, short | ⟨full, list | other⟩⟩⟩
  · rw [join_down dn]; exact ⟨room, down, due, joined, allowance⟩
  · rw [join_covered covered]; exact ⟨room, down, due, joined, allowance⟩
  · rw [join_room up fresh short]
    refine ⟨by simpa using short, by simp [up], fun hd => ?_, fun hs => ?_, allowance⟩
    · have hn : n.isList = false := by simpa [show k.snapshotDue = true from hd] using fresh
      simpa [hn] using due hd
    · simpa [hs] using joined hs
  · rw [join_full_list up fresh full list]
    have kept : (k.queue.filter fun q => !q.notice.isList).length < k.queue.length := by
      simpa [List.length_filter_lt_length_iff_exists] using list
    obtain ⟨h0, h1⟩ := counts (k.queue.filter fun q => !q.notice.isList) (by simp)
    refine ⟨?_, by simp [up], fun _ => ?_, fun _ => ?_, allowance⟩
    · split <;> simp <;> omega
    · rw [List.countP_append, h0, Nat.zero_add]; exact List.countP_le_length.trans (by split <;> simp)
    · rw [List.countP_append, h1, Nat.zero_add]; exact List.countP_le_length.trans (by split <;> simp)
  · rw [join_full_other up fresh full other]
    obtain ⟨h0, h1⟩ := counts k.queue.tail fun q hq => other q (List.mem_of_mem_tail hq)
    refine ⟨by simp; omega, by simp [up], fun _ => ?_, fun _ => ?_, allowance⟩
    · rw [List.countP_append, h0, Nat.zero_add]; exact List.countP_le_length
    · rw [List.countP_append, h1, Nat.zero_add]; exact List.countP_le_length

/-- R169: FAULT notices alone join the plant link, which takes no snapshot. -/
theorem PlantSound.join {k : LinkState} (h : PlantSound k) (l : Link) : PlantSound (k.join false (.fault l)) := by
  obtain ⟨due, snapshot, faults⟩ := h
  have other (q : Queued) (hq : q ∈ k.queue) : q.notice.isList = false := by
    obtain ⟨x, hx⟩ := faults q hq
    rw [hx]; rfl
  have joined (q : Queued) (hq : q ∈ [(⟨.fault l, !k.snapshot.isEmpty⟩ : Queued)]) : ∃ x, q.notice = .fault x :=
    ⟨l, by rw [List.mem_singleton.1 hq]⟩
  rcases k.join_cases (.fault l) with dn | ⟨up, ⟨list, -⟩ | ⟨fresh, short | ⟨full, ⟨q, hq, list⟩ | -⟩⟩⟩
  · rw [LinkState.join_down dn]; exact ⟨due, snapshot, faults⟩
  · exact absurd list nofun
  · rw [LinkState.join_room up fresh short]
    exact ⟨due, snapshot, fun q hq => (List.mem_append.1 hq).elim (faults q) (joined q)⟩
  · rw [other q hq] at list; cases list
  · rw [LinkState.join_full_other up fresh full other]
    exact ⟨by simp [due], snapshot, fun q hq => (List.mem_append.1 hq).elim
      (fun h => faults q (List.mem_of_mem_tail h)) (joined q)⟩

section liu
variable {s : State}

theorem keeps_notify_console (p : Pos) (n : Notice) (s : State) : Keeps s (notify (.console p) n s) :=
  keeps_modLink fun h => ⟨h.1.join _ n, nofun⟩

theorem keeps_notify_fault (l x : Link) (s : State) : Keeps s (notify l (.fault x) s) :=
  keeps_modLink fun h => ⟨h.1.join _ _, by rintro rfl; exact (h.2 rfl).join x⟩

theorem keeps_notifyBoth (p : Pos) (n : Notice) (s : State) : Keeps s (notifyBoth p n s) := by
  unfold notifyBoth
  exact .ite (fun _ => keeps_notify_console ..) fun _ => (keeps_notify_console ..).trans (keeps_notify_console ..)

theorem keeps_relay (b : Bool) (s : State) : Keeps s { s with relay := b } := .of_kept (quiet_relay s b).kept (by simp)

theorem keeps_routeFault (x : Link) (c : List Link) (s : State) : Keeps s (routeFault x c s) := by
  unfold routeFault
  split
  · exact keeps_notify_fault ..
  · exact .unless fun _ => (keeps_relay true s).trans keeps_append

end liu

end Sys2Proof.Machine
end

section
/-! PROOFS. The invariants of the blocks over the shared operations: one `Keeps` lemma for each. -/

namespace Sys2Proof.Machine

/-! ### Item lists -/

theorem heldPlaces_eq_of_kinds {l m : List Item} (h : m.map (·.kind) = l.map (·.kind)) : heldPlaces m = heldPlaces l := by
  have any (k : ItemKind) (x : List Item) : (x.any fun it => it.kind == k) = (x.map (·.kind)).any (· == k) := by
    simp [List.any_map, Function.comp_def]
  simp only [heldPlaces, any, h]

/-- R129: an appended item leaves each held place or takes its own. -/
theorem heldPlaces_append (items : List Item) (it : Item) : heldPlaces (items ++ [it]) ≤ heldPlaces items ∧
    (it.kind ∈ summaryKinds → (∀ x ∈ items, x.kind ≠ it.kind) → heldPlaces (items ++ [it]) < heldPlaces items) := by
  have split : (summaryKinds.filter fun k => !(items ++ [it]).any fun x => x.kind == k) =
      (summaryKinds.filter fun k => !items.any fun x => x.kind == k).filter fun k => it.kind != k := by
    rw [List.filter_filter]
    refine List.filter_congr fun k _ => ?_
    rw [Bool.eq_iff_iff]; simp; tauto
  simp only [heldPlaces, split]
  refine ⟨List.length_filter_le .., fun hk fresh => ?_⟩
  rw [List.length_filter_lt_length_iff_exists]
  exact ⟨it.kind, List.mem_filter.2 ⟨hk, by simpa using fresh⟩, by simp⟩

theorem ItemsFit.nil : ItemsFit [] := ⟨by decide, nofun⟩

/-- R128, R129: an item that takes its own held place, or a free one, keeps the item list within its capacity. -/
theorem ItemsFit.append {items : List Item} (h : ItemsFit items) (it : Item) (number : it.number = items.length)
    (room : (it.kind ∈ summaryKinds ∧ ∀ x ∈ items, x.kind ≠ it.kind) ∨ hasFreePlace items = true) :
    ItemsFit (items ++ [it]) := by
  obtain ⟨bound, numbered⟩ := h
  obtain ⟨weak, strict⟩ := heldPlaces_append items it
  refine ⟨?_, fun n hn => ?_⟩
  · rw [List.length_append, List.length_singleton]
    rcases room with ⟨summary, fresh⟩ | free
    · have := strict summary fresh; omega
    · have : items.length + heldPlaces items < 96 := by simpa [hasFreePlace] using free
      omega
  · rw [List.getElem_append]
    split
    · exact numbered n ‹_›
    · simp at hn; simp; omega

/-- R128: in a numbered list a number names one item. -/
theorem Numbered.eq_of_number {items : List Item} (h : Numbered items) {x y : Item} (hx : x ∈ items) (hy : y ∈ items)
    (e : x.number = y.number) : x = y := by
  obtain ⟨n, hn, rfl⟩ := List.mem_iff_getElem.1 hx
  obtain ⟨m, hm, rfl⟩ := List.mem_iff_getElem.1 hy
  rw [h n hn, h m hm] at e
  subst e
  rfl

/-- R128: an item changed in place keeps its number and kind, and so the list its capacity. -/
theorem ItemsFit.change {items : List Item} (h : ItemsFit items) {x it : Item} (hx : x ∈ items) (number : it.number = x.number)
    (kind : it.kind = x.kind) : ItemsFit (items.map fun y => if y.number == it.number then it else y) := by
  obtain ⟨bound, numbered⟩ := h
  have kinds : (items.map fun y => if y.number == it.number then it else y).map (·.kind) = items.map (·.kind) := by
    rw [List.map_map]
    refine List.map_congr_left fun y hy => ?_
    simp only [Function.comp_apply, beq_iff_eq]
    split
    · rw [kind, Numbered.eq_of_number numbered hx hy (number.symm.trans (Eq.symm ‹_›))]
    · rfl
  refine ⟨by rwa [heldPlaces_eq_of_kinds kinds, List.length_map], fun n hn => ?_⟩
  rw [List.getElem_map]
  have := numbered n (by simpa using hn)
  split
  · rename_i e; rw [beq_iff_eq] at e; omega
  · exact this

theorem DesksKept.state {s t : State} (h : DesksKept s t) (q : Pos) : (t.positions.get q).state = (s.positions.get q).state :=
  congrArg (·.state) (h q)

theorem DesksKept.inReview {s t : State} (h : DesksKept s t) (q : Pos) : inReview t q = inReview s q := by
  simp only [Machine.inReview, h.state]

section items
variable {s : State} {p : Pos}

theorem keeps_items {f : List Item → List Item} (hr : inReview s p = true)
    (h : ItemsFit (s.positions.get p).items → ItemsFit (f (s.positions.get p).items)) :
    Keeps s (modPos p (fun c => { c with items := f c.items }) s) := by
  refine keeps_modPos (fun _ ⟨notes, relief, items⟩ => ⟨notes, relief, h items⟩) ?_
  rintro ⟨holder, incoming, timer, -, relief⟩
  exact ⟨holder, incoming, timer, fun _ => by simpa [inReview] using hr, relief⟩

theorem keeps_changeItem {x it : Item} (hr : inReview s p = true) (hx : x ∈ (s.positions.get p).items)
    (number : it.number = x.number := by rfl) (kind : it.kind = x.kind := by rfl) : Keeps s (changeItem p it s) :=
  (keeps_items (f := fun items => items.map fun y => if y.number == it.number then it else y) hr
    fun h => h.change hx number kind).trans (keeps_notify_console ..)

theorem keeps_appendItem {k : ItemKind} {v c : Nat} (hr : inReview s p = true)
    (fresh : k ∈ summaryKinds → ∀ x ∈ (s.positions.get p).items, x.kind ≠ k) : Keeps s (appendItem p k v c s) := by
  unfold appendItem
  refine .when fun room => ?_
  refine (keeps_items (f := fun items => items ++ [_]) hr fun h => h.append _ rfl ?_).trans (keeps_notify_console ..)
  rcases Bool.or_eq_true_iff.1 room with summary | free
  · have hk : k ∈ summaryKinds := by simpa using summary
    exact .inl ⟨hk, fresh hk⟩
  · exact .inr free

theorem raisedCount_positions (c : Nat) (s : State) : (raisedCount c s).2.positions = s.positions :=
  (quiet_raisedCount s c).kept.agrees .positions (by simp)

theorem keeps_raiseItem {it : Item} (hr : inReview s p = true) (hi : it ∈ (s.positions.get p).items) :
    Keeps s (raiseItem p it s) := by
  refine (Keeps.of_kept (quiet_raisedCount s it.count).kept (by simp)).trans (keeps_changeItem (x := it) ?_ ?_)
  · rwa [inReview, raisedCount_positions]
  · rwa [raisedCount_positions]

theorem findItem?_mem {f : Item → Bool} {it : Item} (h : findItem? s p f = some it) : it ∈ (s.positions.get p).items :=
  List.mem_of_find?_eq_some h

theorem keeps_raiseSummary {k : ItemKind} {v : Nat} (hr : inReview s p = true) : Keeps s (raiseSummary p k v s) := by
  unfold raiseSummary
  split
  · exact keeps_raiseItem hr (findItem?_mem ‹_›)
  · rename_i none
    exact keeps_appendItem hr fun _ x hx => by simpa using List.find?_eq_none.1 none x hx

theorem keeps_lowerSummary {k : ItemKind} (hr : inReview s p = true) : Keeps s (lowerSummary p k s) := by
  unfold lowerSummary
  split
  · exact keeps_changeItem hr (findItem?_mem ‹_›)
  · exact .refl s

theorem keeps_resolveItem {k : ItemKind} {v : Nat} (hr : inReview s p = true) : Keeps s (resolveItem p k v s) := by
  unfold resolveItem
  split
  · exact keeps_changeItem hr (findItem?_mem ‹_›)
  · exact .refl s

theorem keeps_placedReport (p : Pos) (i : Nat) (s : State) : Keeps s (placedReport p i s) := by
  simp only [placedReport]
  refine .when fun hr => (keeps_raiseSummary hr).trans (.when fun _ => ?_)
  have hr' := (atPos_raiseSummary p s (.unack (priorityOf s i)) (priorityOf s i)).desks.inReview p
  split
  · exact keeps_raiseItem (hr'.trans hr) (findItem?_mem ‹_›)
  · exact keeps_appendItem (hr'.trans hr) fun h => by simp [summaryKinds] at h

theorem keeps_removedReport (p : Pos) (i : Nat) (s : State) : Keeps s (removedReport p i s) := by
  unfold removedReport
  exact .when fun hr => keeps_lowerSummary hr

theorem keeps_lifecycleReport (i : Nat) (old new : Lifecycle) (s : State) : Keeps s (lifecycleReport i old new s) := by
  simp only [lifecycleReport]
  refine .when fun hr => ?_
  have hr' : inReview (if new = .raised ∨ new = .returned then s else resolveItem (ownerOf s i) .arrival i s)
      (ownerOf s i) = true := by
    split
    · exact hr
    · exact ((atPos_resolveItem _ s .arrival i).desks.inReview _).trans hr
  refine .trans (.unless fun _ => keeps_resolveItem hr) (.ite (fun _ => keeps_raiseSummary hr') fun _ => ?_)
  exact .when fun _ => keeps_lowerSummary hr'

theorem keeps_shelvedReport (p : Pos) (i e : Nat) (r : Bool) (s : State) : Keeps s (shelvedReport p i e r s) := by
  unfold shelvedReport
  refine .when fun hr => .ite (fun _ => ?_) fun _ => keeps_appendItem hr fun h => by simp [summaryKinds] at h
  split
  · exact keeps_changeItem hr (findItem?_mem ‹_›)
  · exact .refl s

theorem keeps_shelfEndedReport (p : Pos) (i : Nat) (s : State) : Keeps s (shelfEndedReport p i s) := by
  unfold shelfEndedReport
  exact .when fun hr => keeps_resolveItem hr

theorem keeps_floodReport (p : Pos) (e : Bool) (l : Nat) (s : State) : Keeps s (floodReport p e l s) := by
  unfold floodReport
  refine .when fun hr => ?_
  split
  · rename_i it found
    cases e <;> exact keeps_changeItem (x := it) hr (findItem?_mem found)
  · rename_i none
    exact .when fun _ => keeps_appendItem hr fun _ x hx => by simpa using List.find?_eq_none.1 none x hx

end items

/-! ### PLU -/

@[simp] theorem length_insertBy {α : Type} (before : α → α → Bool) (x : α) (l : List α) :
    (insertBy before x l).length = l.length + 1 := by
  induction l with
  | nil => rfl
  | cons y ys ih =>
    simp only [insertBy]
    split
    · rfl
    · rw [List.length_cons, ih, List.length_cons]

/-- A list from which a member is taken by its alarm is shorter. -/
theorem length_filter_lt_of_mem {α : Type} {f : α → Nat} {l : List α} {x : α} (h : x ∈ l) :
    (l.filter fun y => f y != f x).length < l.length :=
  List.length_filter_lt_length_iff_exists.2 ⟨x, h, by simp⟩

section lists
variable {s : State} {p : Pos} {i : Nat}

theorem keeps_setReminder (p : Pos) (i : Nat) (r : Option Nat) (s : State) : Keeps s (setReminder p i r s) :=
  keeps_modLists fun ⟨ann, deferred, shelf⟩ => ⟨by simpa using ann, deferred, shelf⟩

theorem keeps_leaveAnn (p : Pos) (i : Nat) (s : State) : Keeps s (leaveAnn p i s) :=
  keeps_modLists fun ⟨ann, deferred, shelf⟩ => ⟨(List.length_filter_le ..).trans ann, deferred, shelf⟩

theorem keeps_leaveDeferred (p : Pos) (i : Nat) (s : State) : Keeps s (leaveDeferred p i s) :=
  keeps_modLists fun ⟨ann, deferred, shelf⟩ => ⟨ann, (List.length_filter_le ..).trans deferred, shelf⟩

theorem keeps_setOverflow (i : Nat) (b : Bool) (s : State) : Keeps s (setOverflow i b s) := keeps_modDyn fun _ _ h => h

theorem steady_joinAnn (p : Pos) (i : Nat) (t : Word) (s : State) : Steady s (joinAnn p i t s) :=
  steady_modLists.trans (keeps_notify_console ..).toSteady

theorem keeps_joinAnn {t : Word} (room : (s.lists.get p).ann.length < 128) : Keeps s (joinAnn p i t s) :=
  (keeps_modLists fun ⟨_, deferred, shelf⟩ => ⟨by simpa using room, deferred, shelf⟩).trans (keeps_notify_console ..)

theorem steady_joinDeferred (p : Pos) (i : Nat) (t : Word) (s : State) : Steady s (joinDeferred p i t s) := by
  simp only [joinDeferred]
  exact (keeps_setOverflow i false s).toSteady.trans steady_modLists

theorem keeps_joinDeferred {t : Word} (room : (s.lists.get p).deferred.length < 256) : Keeps s (joinDeferred p i t s) := by
  simp only [joinDeferred]
  exact (keeps_setOverflow i false s).trans
    (keeps_modLists fun ⟨ann, _, shelf⟩ => ⟨ann, by simpa using room, shelf⟩)

theorem keeps_insertDeferred (p : Pos) (i : Nat) (t : Word) (s : State) : Keeps s (insertDeferred p i t s) := by
  simp only [insertDeferred]
  refine .ite (fun room => keeps_joinDeferred room) fun _ => ?_
  split
  · rename_i c last
    refine .ite (fun _ => ?_) fun _ => keeps_setOverflow ..
    have out : Keeps s (setOverflow c.alarm true (leaveDeferred p c.alarm s)) :=
      (keeps_leaveDeferred ..).trans (keeps_setOverflow ..)
    refine ⟨out.toSteady.trans (steady_joinDeferred ..), fun hc => (out.trans (keeps_joinDeferred ?_)).capacity hc⟩
    have bound := (((capacityInv_iff s).1 hc).1 p).2.1
    have shorter := length_filter_lt_of_mem (f := (·.alarm)) (List.mem_of_getLast? last)
    simpa [leaveDeferred] using shorter.trans_le bound
  · exact keeps_setOverflow ..

theorem insertDeferred_ann (p q : Pos) (i : Nat) (t : Word) (s : State) :
    ((insertDeferred p i t s).lists.get q).ann = (s.lists.get q).ann := by
  have joined (u : State) : ((joinDeferred p i t u).lists.get q).ann = (u.lists.get q).ann := by
    simp only [joinDeferred, modLists_get]
    split
    · subst q; rfl
    · rfl
  simp only [insertDeferred]
  split
  · exact joined s
  · split
    · split
      · rw [joined]
        simp only [setOverflow_lists, leaveDeferred, modLists_get]
        split
        · subst q; rfl
        · rfl
      · rfl
    · rfl

theorem keeps_placeOnLists (p : Pos) (i : Nat) (t : Word) (s : State) : Keeps s (placeOnLists p i t s) := by
  simp only [placeOnLists]
  refine .trans (t := modDyn i (fun d => { d with annTime := some t }) s) (keeps_modDyn fun _ _ h => h) ?_
  generalize modDyn i (fun d => { d with annTime := some t }) s = s
  refine .ite (fun _ => keeps_insertDeferred ..) fun _ => .ite (fun room => keeps_joinAnn room) fun _ => ?_
  split
  · rename_i b last
    refine .ite (fun _ => ?_) fun _ => keeps_insertDeferred ..
    have out := ((keeps_leaveAnn p b.alarm s).trans (keeps_notify_console p (.retract b.alarm .displaced) _)).trans
      (keeps_insertDeferred p b.alarm b.time _)
    refine ⟨out.toSteady.trans (steady_joinAnn ..), fun hc => (out.trans (keeps_joinAnn ?_)).capacity hc⟩
    have bound := (((capacityInv_iff s).1 hc).1 p).1
    have shorter := length_filter_lt_of_mem (f := (·.alarm)) (List.mem_of_getLast? last)
    rw [insertDeferred_ann]
    simpa [leaveAnn] using shorter.trans_le bound
  · exact keeps_insertDeferred ..

theorem keeps_judgeHorn (p : Pos) (s : State) : Keeps s (judgeHorn p s) := by
  simp only [judgeHorn]
  exact .unless fun _ => (keeps_modLists id).trans (keeps_notify_console ..)

theorem keeps_promote? {t : State} (h : promote? p s = some t) : Keeps s t := by
  unfold promote? at h
  split at h
  · rename_i room
    obtain ⟨e, -, rfl⟩ := Option.map_eq_some_iff.1 h
    exact (keeps_leaveDeferred p e.alarm s).trans (keeps_joinAnn (by simpa [leaveDeferred] using room))
  · cases h

theorem keeps_refill (p : Pos) (s : State) : Keeps s (refill p s) := by
  unfold refill
  refine .when fun room => ?_
  split
  · exact keeps_joinDeferred room
  · exact .refl s

theorem keeps_promotion (p : Pos) (s : State) : Keeps s (promotion p s) := by
  unfold promotion
  split
  · exact (keeps_promote? ‹_›).trans (keeps_refill ..)
  · exact .refl s

theorem keeps_promoteAll (n : Nat) (p : Pos) (s : State) : Keeps s (promoteAll n p s) := by
  induction n generalizing s with
  | zero => exact .refl s
  | succ n ih =>
    unfold promoteAll
    split
    · exact (keeps_promote? ‹_›).trans (ih _)
    · exact .refl s

theorem keeps_refillAll (n : Nat) (p : Pos) (s : State) : Keeps s (refillAll n p s) := by
  induction n generalizing s with
  | zero => exact .refl s
  | succ n ih => exact (keeps_refill p s).trans (ih _)

theorem keeps_restoreLists (p : Pos) (s : State) : Keeps s (restoreLists p s) :=
  ((keeps_promoteAll _ p s).trans (keeps_refillAll _ p _)).trans (keeps_judgeHorn p _)

theorem keeps_updateNotice (p : Pos) (i : Nat) (s : State) : Keeps s (updateNotice p i s) := by
  unfold updateNotice
  split
  · exact keeps_notify_console ..
  · exact .refl s

theorem keeps_returnReport (i : Nat) (s : State) : Keeps s (returnReport i s) := by
  simp only [returnReport]
  exact .when fun _ => ((keeps_setReminder ..).trans (keeps_updateNotice ..)).trans (keeps_judgeHorn ..)

end lists

/-! ### LDU -/

/-- R56: a load state after flood evaluation. -/
def PosLoad.evaluated (d : PosLoad) : PosLoad :=
  { d with flood := if d.flood then decide (d.x < d.load) else decide (d.e ≤ d.load) }

/-- R56: whatever the load, a load state whose values are in range is sound once it is evaluated. -/
theorem PosLoad.evaluated_sound {d : PosLoad} (load : d.load ≤ 65535) (k : 1 ≤ d.k ∧ d.k ≤ 255) (x : d.x < d.e)
    (e : d.e ≤ 65535) (h : 1 ≤ d.h ∧ d.h ≤ 65535) : d.evaluated.Sound := by
  refine ⟨load, k.1, k.2, x, e, h.1, h.2, fun turned => ?_, fun turned => ?_⟩ <;> simp only [evaluated] at turned ⊢ <;>
    split at turned <;> simp only [decide_eq_true_eq, decide_eq_false_iff_not] at turned <;> omega

section load
variable {s : State} {p : Pos}

theorem modLoad_modLoad (f g : PosLoad → PosLoad) : modLoad p g (modLoad p f s) = modLoad p (g ∘ f) s := by
  simp [modLoad]

theorem keeps_floodLists (p : Pos) (on : Bool) (s : State) :
    Keeps s (if on then floodEnterLists p s else floodLeaveLists p s) := by
  refine .ite (fun _ => keeps_modLists ?_) fun _ => .trans (keeps_modLists ?_) (keeps_restoreLists ..) <;>
    exact fun ⟨ann, deferred, shelf⟩ => ⟨by simpa using ann, deferred, shelf⟩

/-- R57, R58: what follows a change of flood mode keeps the invariants. -/
theorem keeps_afterFlood (p : Pos) (on : Bool) (s : State) :
    Keeps (modLoad p (fun d => { d with flood := on }) s) (floodTurned p on s) := by
  simp only [floodTurned]
  exact ((keeps_append.trans (keeps_notifyBoth ..)).trans (keeps_floodLists p on _)).trans (keeps_floodReport ..)

/-- R56: a change of a load state whose evaluation is sound, and then flood evaluation. -/
theorem keeps_evaluateFlood {f : PosLoad → PosLoad}
    (h : (s.loads.get p).Sound → (f (s.loads.get p)).evaluated.Sound) : Keeps s (evaluateFlood p (modLoad p f s)) := by
  have turned (on : Bool) (ho : (if (f (s.loads.get p)).flood then decide ((f (s.loads.get p)).x < (f (s.loads.get p)).load)
      else decide ((f (s.loads.get p)).e ≤ (f (s.loads.get p)).load)) = on) :
      Keeps s (floodTurned p on (modLoad p f s)) := by
    refine .trans ?_ (keeps_afterFlood ..)
    rw [modLoad_modLoad]
    exact keeps_modLoad (by simpa [PosLoad.evaluated, ho] using h)
  simp only [evaluateFlood, modLoad_get_self]
  refine .ite (fun on => ?_) fun off => .ite (fun left => ?_) fun stays => ?_
  · simp only [Bool.and_eq_true, Bool.not_eq_true', decide_eq_true_eq] at on
    exact turned true (by simp [on.1, on.2])
  · simp only [Bool.and_eq_true, decide_eq_true_eq] at left
    exact turned false (by simp [left.1, left.2])
  · refine keeps_modLoad fun hs => ?_
    have same : (f (s.loads.get p)).evaluated = f (s.loads.get p) := by
      generalize f (s.loads.get p) = d at off stays
      rcases hf : d.flood with _ | _ <;> simp [hf] at off stays <;> cases d <;> simp_all [PosLoad.evaluated]
    exact same ▸ h hs

theorem keeps_addLoad (p : Pos) (w : Nat) (s : State) : Keeps s (addLoad p w s) := by
  rw [addLoad_eq]
  refine keeps_evaluateFlood fun ⟨load, k1, k2, x, e, h1, h2, _⟩ => PosLoad.evaluated_sound ?_ ?_ ?_ ?_ ?_
  · rcases Nat.lt_or_ge 65535 ((s.loads.get p).load + w) with h | h
    · rw [PosLoad.added_of_lt h]
    · rw [PosLoad.added_of_le h]; exact h
  all_goals simp [*]

end load

/-! ### PLU: reports, and the escalation list -/

section reports
variable {s : State} {i : Nat}

theorem keeps_placeReport (i : Nat) (w : Bool) (s : State) : Keeps s (placeReport i w s) := by
  simp only [placeReport]
  exact (((keeps_placeOnLists ..).trans (keeps_judgeHorn ..)).trans (.when fun _ => keeps_addLoad ..)).trans
    (keeps_placedReport ..)

theorem keeps_reraiseReport (i : Nat) (w : Bool) (s : State) : Keeps s (reraiseReport i w s) := by
  simp only [reraiseReport]
  refine .trans (.when fun _ => ?_) (.when fun _ => keeps_addLoad ..)
  refine (((keeps_modLists fun ⟨ann, deferred, shelf⟩ => ?_).trans (keeps_setReminder ..)).trans (keeps_updateNotice ..)).trans
    (keeps_judgeHorn ..)
  exact ⟨by simpa using ann, deferred, shelf⟩

theorem keeps_escalateNotice (i : Nat) (left : Option Reason) (s : State) : Keeps s (escalateNotice i left s) :=
  keeps_notify_console ..

theorem keeps_leaveEscalation (i : Nat) (r : Reason) (s : State) : Keeps s (leaveEscalation i r s) :=
  ((keeps_escalation fun h => (List.length_filter_le ..).trans h).trans (keeps_modDyn fun _ _ h => h)).trans
    (keeps_escalateNotice ..)

/-- R41: an entry of the escalation list, whatever its length, and where it has room. -/
theorem steady_enterEscalation (i : Nat) (s : State) : Steady s (enterEscalation i s) := by
  simp only [enterEscalation]
  have entered : Steady s { s with escalation := insertBy (entryBefore s) ⟨i, (alarmAt s i).dyn.annTime.getD 0⟩ s.escalation } :=
    ⟨id, id, id, id, id⟩
  exact entered.trans (((keeps_modDyn fun _ _ h => h).trans keeps_append).trans (keeps_escalateNotice ..)).toSteady

theorem keeps_enterEscalation (room : s.escalation.length < 64) : Keeps s (enterEscalation i s) := by
  simp only [enterEscalation]
  exact (((keeps_escalation fun _ => by simpa using room).trans (keeps_modDyn fun _ _ h => h)).trans keeps_append).trans
    (keeps_escalateNotice ..)

theorem keeps_resetReminders (i : Nat) (s : State) : Keeps s (modDyn i (fun d => { d with reminders := 0 }) s) :=
  keeps_modDyn fun _ _ ⟨defn, ack, service, _⟩ => ⟨defn, ack, service, Nat.zero_le _⟩

theorem keeps_escalate (i : Nat) (s : State) : Keeps s (escalate i s) := by
  simp only [escalate]
  refine .ite (fun room => keeps_enterEscalation room) fun _ => ?_
  split
  · rename_i z last
    refine .ite (fun _ => ?_) fun _ => keeps_resetReminders ..
    have out := (keeps_resetReminders z.alarm s).trans (keeps_leaveEscalation z.alarm .displaced _)
    refine ⟨out.toSteady.trans (steady_enterEscalation ..), fun hc => (out.trans (keeps_enterEscalation ?_)).capacity hc⟩
    exact (length_filter_lt_of_mem (f := (·.alarm)) (List.mem_of_getLast? last)).trans_le ((capacityInv_iff s).1 hc).2.1
  · exact .refl s

theorem keeps_removeReport (i : Nat) (r : Reason) (s : State) : Keeps s (removeReport i r s) := by
  simp only [removeReport]
  refine .trans (.trans (.trans (?_ : Keeps s _) (keeps_modDyn ?_)) (.when fun _ => keeps_leaveEscalation ..))
    (.when fun _ => keeps_removedReport ..)
  · refine .ite (fun _ => ?_) fun _ => .when fun _ => (keeps_leaveDeferred ..).trans (keeps_refill ..)
    exact (((keeps_leaveAnn ..).trans (keeps_notify_console ..)).trans (keeps_promotion ..)).trans (keeps_judgeHorn ..)
  · rintro a - ⟨defn, ack, service, reminders⟩
    refine ⟨defn, ack, service, ?_⟩
    simp only
    split
    · exact Nat.zero_le _
    · exact reminders

end reports

/-! ### ATU -/

section atu
variable {s : State} {i : Nat}

theorem alarm?_modDyn (i j : Nat) (f : AlarmDyn → AlarmDyn) (s : State) :
    alarm? (modDyn i f s) j = if j = i then (alarm? s i).map (fun a => { a with dyn := f a.dyn }) else alarm? s j :=
  Table.get?_modify ..

theorem alarmAt_of_alarm? {a : Alarm} (h : alarm? s i = some a) : alarmAt s i = a := by rw [alarmAt, h, Option.getD_some]

/-- R6, R7: a lifecycle entered within service, with an acknowledger where it has one. -/
theorem Alarm.Sound.enter {a : Alarm} (h : a.Sound) {new : Lifecycle} {ack : Option Nat}
    (service : new = .outOfService ↔ a.dyn.lifecycle = .outOfService)
    (held : new = .held ∨ new = .latched → ack.isSome) : Alarm.Sound { a with dyn := a.dyn.enter new ack } := by
  obtain ⟨defn, -, inService, reminders⟩ := h
  refine ⟨defn, ?_, inService.trans service.symm, ?_⟩
  · simp only [AlarmDyn.enter]
    split
    · simp_all
    · simp_all
  · simp only [AlarmDyn.enter]
    split
    · exact Nat.zero_le _
    · exact reminders

theorem keeps_setInput (i : Nat) (input : Input) (s : State) : Keeps s (modDyn i (fun d => { d with input := input }) s) :=
  keeps_modDyn fun _ _ h => h

/-- R9: an alarm whose input alone is written stands in the lifecycle it stood in. -/
theorem alarm?_setInput {a : Alarm} {input : Input} (h : alarm? (modDyn i (fun d => { d with input := input }) s) i = some a) :
    a.dyn.lifecycle = (alarmAt s i).dyn.lifecycle ∧ a.dyn.acknowledger = (alarmAt s i).dyn.acknowledger := by
  rw [alarm?_modDyn, if_pos rfl] at h
  obtain ⟨b, hb, rfl⟩ := Option.map_eq_some_iff.1 h
  rw [alarmAt_of_alarm? hb]
  exact ⟨rfl, rfl⟩

theorem keeps_raiseAlarm (i : Nat) (e : Bool) (s : State) : Keeps s (raiseAlarm i e s) := by
  simp only [raiseAlarm]
  refine (keeps_setInput ..).trans (.unless fun changed => ?_)
  refine .trans (.trans (.trans (keeps_modDyn fun a ha sound => ?_) (.when fun _ => keeps_append)) (.unless fun _ => ?_))
    (keeps_lifecycleReport ..)
  · rw [← (alarm?_setInput ha).1] at changed ⊢
    refine sound.enter ?_ ?_ <;> revert changed <;> cases a.dyn.lifecycle <;> simp [raisedFrom]
  · exact .ite (fun _ => keeps_reraiseReport ..) fun _ => keeps_placeReport ..

theorem keeps_clearAlarm (i : Nat) (e : Bool) (s : State) : Keeps s (clearAlarm i e s) := by
  simp only [clearAlarm]
  refine (keeps_setInput ..).trans (.unless fun changed => ?_)
  refine .trans (.trans (.trans (keeps_modDyn fun a ha sound => ?_) (.when fun _ => keeps_append))
    (.when fun _ => keeps_returnReport ..)) (keeps_lifecycleReport ..)
  obtain ⟨same, ack⟩ := alarm?_setInput ha
  have held := sound.2.1
  rw [← same] at changed ⊢
  rw [← ack]
  refine sound.enter ?_ fun h => held.2 ?_ <;> revert changed <;> try revert h
  all_goals cases a.dyn.lifecycle <;> simp [clearedFrom] <;> split_ifs <;> simp

theorem keeps_acknowledge (o : Nat) (p : Pos) (i : Nat) (s : State) : Keeps s (acknowledge o p i s) := by
  unfold acknowledge
  split
  · rename_i acked
    refine .trans (.trans (.trans (keeps_modDyn fun a ha sound => ?_) keeps_append) (keeps_removeReport ..))
      (keeps_lifecycleReport ..)
    rw [alarmAt_of_alarm? ha]
    refine sound.enter ?_ fun _ => rfl
    rw [ackResult, alarmAt_of_alarm? ha] at acked
    revert acked
    cases a.dyn.lifecycle <;> simp [ackedFrom] <;> split_ifs <;> simp
  · exact .refl s

theorem keeps_leaveShelf (p : Pos) (i : Nat) (s : State) : Keeps s (leaveShelf p i s) :=
  (keeps_modLists fun ⟨ann, deferred, shelf⟩ => ⟨ann, deferred, (List.length_filter_le ..).trans shelf⟩).trans
    (keeps_modDyn fun _ _ h => h)

theorem keeps_endShelve (p : Pos) (i : Nat) (s : State) : Keeps s (endShelve p i s) :=
  .trans (.when fun _ => keeps_placeReport ..) (keeps_shelfEndedReport ..)

end atu

/-! ### ACU and PCU -/

section desks
variable {s : State}

theorem keeps_setEngagement (o : Nat) (e : Option (Pos × Role)) (s : State) :
    Keeps s (setEngagement o e s) := keeps_modOperator

theorem keeps_issueGrant {n : Nat} {g : Grant} (h : n < 256) : Keeps s (issueGrant n g s) :=
  (keeps_grants (fun wf => Table.wf_insert wf _ _) fun slots e he => by
    rcases Table.mem_insert he with rfl | he
    · exact h
    · exact slots e he).trans keeps_append

theorem keeps_endGrant (n : Nat) (g : Grant) (s : State) : Keeps s (endGrant n g s) :=
  (keeps_grants (fun wf => Table.wf_erase wf _) fun slots e he => slots e (List.mem_of_mem_filter he)).trans keeps_append

theorem keeps_endGrants (f : Grant → Bool) (s : State) : Keeps s (endGrants f s) :=
  .foldl (f := fun s (e : Nat × Grant) => endGrant e.1 e.2 s) (fun s e => keeps_endGrant e.1 e.2 s) s _

theorem keeps_release (o : Nat) (s : State) : Keeps s (release o s) := by
  unfold release
  split
  · exact (keeps_setEngagement ..).trans (keeps_endGrants ..)
  · exact .refl s

theorem keeps_badgeCheck (o : Nat) (b : Word) (s : State) : Keeps s (badgeCheck o b s).1 := by
  unfold badgeCheck
  split
  · exact .refl s
  · split
    · exact .refl s
    · split
      · exact keeps_modOperator
      · split <;> exact keeps_modOperator

theorem modPos_modPos (p : Pos) (f g : PosContext → PosContext) (s : State) :
    modPos p g (modPos p f s) = modPos p (g ∘ f) s := by simp [modPos]

/-- R66, R75: a release and an update of a context do not meet. -/
theorem release_modPos (o : Nat) (p : Pos) (f : PosContext → PosContext) (s : State) :
    release o (modPos p f s) = modPos p f (release o s) := by
  have ended (es : List (Nat × Grant)) (s : State) : es.foldl (fun s e => endGrant e.1 e.2 s) (modPos p f s) =
      modPos p f (es.foldl (fun s e => endGrant e.1 e.2 s) s) := by
    induction es generalizing s with
    | nil => rfl
    | cons e es ih => exact ih (endGrant e.1 e.2 s)
  have same : engagementOf (modPos p f s) o = engagementOf s o := rfl
  unfold release
  rw [same]
  split
  · exact ended _ (setEngagement o none s)
  · rfl

/-- R121: a handover that is over leaves the context as its holder's, with nothing of the review. -/
theorem PosContext.Sound.over {c : PosContext} (h : c.Sound) (hs : c.state = .offered ∨ c.state = .review) (items : List Item)
    (hi : c.state = .review → items = []) (ho : c.state = .offered → items = c.items) :
    PosContext.Sound { c with timer := none, state := .staffed, incoming := none, items := items } := by
  obtain ⟨holder, -, -, reviewed, relief⟩ := h
  refine ⟨?_, by simp, by simp, fun ne => ?_, by simp⟩
  · simp only [reduceCtorEq, iff_false]
    rw [holder]
    rcases hs with hs | hs <;> simp [hs]
  · exfalso
    rcases hs with hs | hs
    · rw [ho hs] at ne
      simpa [hs] using reviewed ne
    · exact ne (hi hs)

theorem keeps_endHandover {p : Pos} (r : EndReason) (e : Option Nat)
    (hs : (s.positions.get p).state = .offered ∨ (s.positions.get p).state = .review) : Keeps s (endHandover p r e s) := by
  simp only [endHandover]
  refine .trans (.trans ?_ keeps_append) (keeps_notifyBoth ..)
  split
  · rename_i review
    rw [release_modPos, modPos_modPos, ← release_modPos]
    exact .trans (keeps_modPos (fun _ ⟨notes, relief, _⟩ => ⟨notes, relief, ItemsFit.nil⟩) fun h =>
      h.over hs [] (fun _ => rfl) fun h => by rw [review] at h; cases h) (keeps_release ..)
  · rename_i other
    exact keeps_modPos (fun _ fits => fits) fun h => h.over hs _ (fun h => absurd h other) fun _ => rfl

end desks

end Sys2Proof.Machine
end

section
/-! PROOFS. The invariants of the blocks over the work of every command. -/

namespace Sys2Proof.Machine

/-! ### Checks that held -/

@[simp] theorem firstRefusal_nil : firstRefusal [] = none := rfl

@[simp] theorem firstRefusal_cons_eq_none {c : Check} {cs : List Check} :
    firstRefusal (c :: cs) = none ↔ c.holds = true ∧ firstRefusal cs = none := by
  rw [firstRefusal]
  split <;> simp_all

@[simp] theorem firstRefusal_append_eq_none {cs ds : List Check} :
    firstRefusal (cs ++ ds) = none ↔ firstRefusal cs = none ∧ firstRefusal ds = none := by
  induction cs with
  | nil => simp
  | cons c cs ih => simp [ih, and_assoc]

/-- Work done only where the checks of a request hold. -/
theorem keeps_judged {s : State} {cs : List Check} {act : State → State × Answer}
    (h : firstRefusal cs = none → Keeps s (act s).1) : Keeps s (judged cs s act).1 := by
  unfold judged
  split
  · exact .refl s
  · exact h ‹_›

theorem badgeCheck_kept (o : Nat) (b : Word) (s : State) :
    Kept [.operators] s (badgeCheck o b s).1 := (quiet_badgeCheck s o b).kept

theorem keeps_badgeRequest {before : List Check} {o : Nat} {badge : Word} {after : State → List Check}
    {act : State → State × Answer} {s : State}
    (h : firstRefusal before = none → ∀ t, Kept [.operators] s t → firstRefusal (after t) = none → Keeps t (act t).1) :
    Keeps s (badgeRequest before o badge after act s).1 := by
  unfold badgeRequest
  refine keeps_judged fun hb => ?_
  have keeps := keeps_badgeCheck o badge s
  have kept := badgeCheck_kept o badge s
  rw [firstRefusal_append_eq_none] at hb
  split
  · simp_all
  · rename_i checked
    rw [checked] at keeps kept
    exact keeps.trans (keeps_judged (h hb.1 _ kept))

theorem keeps_atConsole {h : Header} {body : Pos → State → State × Answer} {s : State}
    (hb : ∀ p, Keeps s (body p s).1) : Keeps s (atConsole h body s).1 := by
  unfold atConsole
  split
  · exact hb _
  · exact .refl s

/-- One kind of work done for each element of a list, with a result carried along. -/
theorem Keeps.foldl_fst {α β : Type} {f : State × β → α → State × β} (h : ∀ r a, Keeps r.1 (f r a).1) (r : State × β)
    (l : List α) : Keeps r.1 (l.foldl f r).1 := by
  induction l generalizing r with
  | nil => exact .refl _
  | cons a l ih => exact (h r a).trans (ih _)

/-! ### The gateway's commands on alarm points -/

theorem Table.insert_insert {α : Type} (t : Table α) (i : Nat) (x y : α) : (t.insert i x).insert i y = t.insert i y := by
  induction t with
  | nil => simp [Table.insert]
  | cons e t ih =>
    obtain ⟨j, z⟩ := e
    simp only [Table.insert]
    split
    · simp [Table.insert]
    · split
      · simp [Table.insert]
      · simp_all [Table.insert]

theorem Table.modify_modify {α : Type} (t : Table α) (i : Nat) (f g : α → α) :
    (t.modify i f).modify i g = t.modify i (g ∘ f) := by
  cases h : t.get? i with
  | none => simp [Table.modify, h]
  | some x => simp [Table.modify, h, Table.insert_insert]

theorem modAlarm_modAlarm (i : Nat) (f g : Alarm → Alarm) (s : State) :
    modAlarm i g (modAlarm i f s) = modAlarm i (g ∘ f) s := by simp [modAlarm, Table.modify_modify]

section alarms
variable {s : State} {i : Nat}

/-- R7, R15, R16: an alarm that enters or leaves service has its in-service field follow the lifecycle. -/
theorem keeps_setService {b : Bool} {new : Lifecycle} (service : b = false ↔ new = .outOfService)
    (held : new ≠ .held ∧ new ≠ .latched) : Keeps s (setService i b (modDyn i (AlarmDyn.enter new none) s)) := by
  rw [setService, modDyn, modAlarm_modAlarm]
  refine keeps_modAlarm fun a _ ⟨defn, _, _, reminders⟩ => ⟨defn, ?_, service, ?_⟩
  · simp [AlarmDyn.enter, held]
  · simp only [Function.comp_apply, AlarmDyn.enter]
    split
    · exact Nat.zero_le _
    · exact reminders

theorem keeps_takeOutOfService (i : Nat) (s : State) : Keeps s (takeOutOfService i s) := by
  simp only [takeOutOfService]
  refine .trans (.trans (.trans (.trans (keeps_setService ?_ ?_) (.when fun _ => ?_)) keeps_append)
    (.when fun _ => keeps_removeReport ..)) (keeps_lifecycleReport ..)
  · simp
  · simp
  · exact (keeps_leaveShelf ..).trans (keeps_shelfEndedReport ..)

theorem keeps_returnAlarm (i : Nat) (s : State) : Keeps s (returnAlarm i s) := by
  simp only [returnAlarm]
  refine .trans (.trans (.trans (keeps_setService ?_ ?_) keeps_append) (.when fun _ => keeps_placeReport ..))
    (keeps_lifecycleReport ..) <;> split <;> simp

theorem keeps_enterNormal (h : lifecycleOf s i ≠ .outOfService) : Keeps s (modDyn i (AlarmDyn.enter .normal none) s) := by
  refine keeps_modDyn fun a ha sound => sound.enter ?_ (by simp)
  rw [lifecycleOf, alarmAt_of_alarm? ha] at h
  simp [h]

theorem keeps_maskAlarm (changed : Word) (r : State × Nat) (i : Nat) : Keeps r.1 (maskAlarm changed r i).1 := by
  simp only [maskAlarm]
  split
  · split
    · exact keeps_removeReport ..
    · rename_i returned _
      exact ((keeps_enterNormal (by rw [lifecycleOf, returned]; nofun)).trans (keeps_removeReport ..)).trans
        (keeps_lifecycleReport ..)
    · rename_i returned _
      exact (keeps_enterNormal (by rw [lifecycleOf, returned]; nofun)).trans (keeps_lifecycleReport ..)
    · exact .refl _
  · exact .refl _

theorem keeps_unmaskAlarm (changed : Word) (r : State × Nat) (i : Nat) : Keeps r.1 (unmaskAlarm changed r i).1 := by
  simp only [unmaskAlarm]
  split
  · exact keeps_placeReport ..
  · exact .refl _

theorem kept_mask (m : Word) (s : State) : Kept [.mask] s { s with mask := m } :=
  ⟨fun p hp => by cases p <;> simp_all [Agrees]⟩

theorem keeps_mask (m : Word) (s : State) : Keeps s { s with mask := m } := .of_kept (kept_mask m s) (by simp)

theorem keeps_suppressionEntry (a : Nat) (c : Word) (s : State) :
    Keeps s (suppressionEntry a c s) := .unless fun _ => keeps_append

theorem clamp_le {low high n : Nat} (h : low ≤ high) : clamp low high n ≤ high := by
  unfold clamp; split <;> (try split) <;> omega

theorem le_clamp {low high n : Nat} (h : low ≤ high) : low ≤ clamp low high n := by
  unfold clamp; split <;> (try split) <;> omega

/-- R2: a definition whose fields were within their ranges is stored within the ranges of Table 1-1. -/
theorem storedDefinition_sound {f : AlarmFields} {b : Bool} (h : firstRefusal (alarmRanges f) = none) :
    (storedDefinition f b).Sound := by
  simp only [alarmRanges, firstRefusal_cons_eq_none, firstRefusal_nil, and_true, Bool.and_eq_true, decide_eq_true_eq] at h
  obtain ⟨area, ⟨low, high⟩, -, level, group⟩ := h
  refine ⟨area, low, high, level, ?_, ?_, ?_, ?_, ?_, ?_, ?_⟩ <;> simp only [storedDefinition]
  · split
    · exact Nat.zero_le _
    · exact group
  · exact le_clamp (by decide)
  · exact clamp_le (by decide)
  · exact le_clamp (by decide)
  · exact clamp_le (by decide)
  · exact clamp_le (by decide)
  · intro safety
    simp [safety]

theorem definedAlarm_sound {f : AlarmFields} {u : Bool} {old : Option Alarm} (h : firstRefusal (alarmRanges f) = none)
    (ho : ∀ a, old = some a → a.Sound) : (definedAlarm f u old).Sound := by
  have defn (b : Bool) := storedDefinition_sound (b := b) h
  unfold definedAlarm
  split
  · refine ⟨defn _, ?_, ?_, Nat.zero_le _⟩
    · simp only [newRecord]; split <;> simp
    · by_cases hr : f.inService = 0 <;> simp [storedDefinition, newRecord, hr]
  · rename_i a
    obtain ⟨-, ack, service, -⟩ := ho a rfl
    split
    · refine ⟨defn _, ?_, ?_, ?_⟩ <;> by_cases hr : f.inService = 0 <;> simp [storedDefinition, AlarmDyn.enter, hr]
    · exact ⟨defn _, ack, service, Nat.zero_le _⟩

theorem keeps_defineAlarm {f : AlarmFields} {a : Alarm} (hi : f.index ≤ 2047) (h : AlarmInv s → a.Sound) :
    Keeps s { s with alarms := s.alarms.insert f.index a } := by
  refine ⟨⟨id, id, id, fun ha e he => ?_, id⟩, fun hc => ?_⟩
  · rcases Table.mem_insert he with rfl | he
    · exact ⟨hi, h ha⟩
    · exact ha e he
  · obtain ⟨lists, escalation, contexts, areas, alarms, rest⟩ := (capacityInv_iff s).1 hc
    exact (capacityInv_iff _).2 ⟨lists, escalation, contexts, areas, Table.wf_insert alarms _ _, rest⟩

/-- A change of every dynamic record that keeps what R5 to R7 ask of one. -/
theorem keeps_mapAlarms {f : AlarmDyn → AlarmDyn} (h : ∀ a : Alarm, a.Sound → Alarm.Sound { a with dyn := f a.dyn }) :
    Keeps s { s with alarms := s.alarms.map fun e => (e.1, { e.2 with dyn := f e.2.dyn }) } := by
  refine ⟨⟨id, id, id, fun ha e he => ?_, id⟩, fun hc => ?_⟩
  · obtain ⟨x, hx, rfl⟩ := List.mem_map.1 he
    exact ⟨(ha x hx).1, h _ (ha x hx).2⟩
  · obtain ⟨lists, escalation, contexts, areas, alarms, rest⟩ := (capacityInv_iff s).1 hc
    exact (capacityInv_iff _).2 ⟨lists, escalation, contexts, areas, Table.wf_map alarms fun a => { a with dyn := f a.dyn }, rest⟩

theorem Alarm.Sound.endResync {a : Alarm} (h : a.Sound) : Alarm.Sound { a with dyn := a.dyn.endResync } := by
  unfold AlarmDyn.endResync
  split <;> exact h

theorem Alarm.Sound.restart {a : Alarm} (h : a.Sound) : Alarm.Sound { a with dyn := a.dyn.restart } := by
  obtain ⟨defn, -, service, -⟩ := h
  refine ⟨defn, ?_, service.trans ?_, Nat.zero_le _⟩ <;> simp only [AlarmDyn.restart] <;> split <;> simp_all

/-! ### The desks' commands on alarm points -/

theorem keeps_ackAnswer (o : Nat) (p : Pos) (i : Nat) (s : State) : Keeps s (ackAnswer o p i s).1 := by
  unfold ackAnswer
  split
  · exact .refl s
  · exact keeps_acknowledge ..

theorem keeps_accessRefused (p : Pos) (o : Nat) (k : Kind) (a : Option Nat) (c : Cause) (v : Nat) (s : State) :
    Keeps s (accessRefused p o k a c v s) := by
  unfold accessRefused
  split
  · exact .refl s
  · exact keeps_append

theorem keeps_ackOne (o : Nat) (p : Pos) (r : State × List (List Byte)) (i : Nat) : Keeps r.1 (ackOne o p r i).1 := by
  simp only [ackOne]
  split
  · split
    · exact keeps_accessRefused ..
    · split
      · exact .refl _
      · exact keeps_acknowledge ..
  · exact .refl _

theorem modLists_modLists (p : Pos) (f g : PosLists → PosLists) (s : State) :
    modLists p g (modLists p f s) = modLists p (g ∘ f) s := by simp [modLists]

theorem keeps_putShelf {o e : Nat} {p : Pos} (room : (s.lists.get p).shelf.length < 32) : Keeps s (putShelf p o i e s) :=
  keeps_modLists fun ⟨ann, deferred, _⟩ => ⟨ann, deferred, by simpa using room⟩

theorem keeps_renewShelf (p : Pos) (o i e : Nat) (s : State) : Keeps s (renewShelf p o i e s) := by
  unfold renewShelf
  refine .when fun stands => ?_
  rw [putShelf, modLists_modLists]
  refine keeps_modLists fun ⟨ann, deferred, shelf⟩ => ⟨ann, deferred, ?_⟩
  obtain ⟨x, hx, hi⟩ : ∃ x ∈ (s.lists.get p).shelf, x.alarm = i := by simpa [shelfEntry?] using stands
  have shorter := length_filter_lt_of_mem (f := (·.alarm)) hx
  rw [hi] at shorter
  simpa using shorter.trans_le shelf

theorem keeps_shelve {o d : Nat} (h : (alarmAt s i).dyn.shelved = true ∨ (s.lists.get (ownerOf s i)).shelf.length < 32) :
    Keeps s (shelve o i d s).1 := by
  simp only [shelve]
  split
  · exact ((keeps_renewShelf ..).trans keeps_append).trans (keeps_shelvedReport ..)
  · rename_i fresh
    refine .trans (.trans (.trans (.trans (keeps_modDyn fun _ _ h => h) (keeps_putShelf ?_)) keeps_append)
      (.when fun _ => keeps_removeReport ..)) (keeps_shelvedReport ..)
    exact h.resolve_left fresh

theorem keeps_unshelveAlarm (o i : Nat) (s : State) : Keeps s (unshelveAlarm o i s) :=
  ((keeps_leaveShelf ..).trans keeps_append).trans (keeps_endShelve ..)

theorem keeps_expireShelf (i : Nat) (s : State) : Keeps s (expireShelf i s) :=
  ((keeps_leaveShelf ..).trans keeps_append).trans (keeps_endShelve ..)

theorem keeps_resetLatch {o : Nat} {p : Pos} (h : lifecycleOf s i = .latched) : Keeps s (resetLatch o p i s) :=
  ((keeps_enterNormal (by rw [h]; nofun)).trans keeps_append).trans (keeps_lifecycleReport ..)

theorem keeps_silenceList (p : Pos) (s : State) : Keeps s (silenceList p s) :=
  (keeps_modLists fun ⟨ann, deferred, shelf⟩ => ⟨by simpa using ann, deferred, shelf⟩).trans (keeps_judgeHorn ..)

theorem keeps_expireReminder (i : Nat) (s : State) : Keeps s (expireReminder i s) := by
  simp only [expireReminder]
  refine .trans (.trans (.trans (.trans (keeps_modDyn ?_) (keeps_notify_console ..)) (.when fun _ => keeps_escalate ..))
    (keeps_setReminder ..)) (keeps_addLoad ..)
  exact fun _ _ ⟨defn, ack, service, _⟩ => ⟨defn, ack, service, Nat.min_le_left ..⟩

end alarms

/-! ### The loads -/

section loads
variable {s : State}

theorem keeps_clearLimit (p : Pos) (s : State) : Keeps s (clearLimit s p) := keeps_modLoad id

theorem keeps_decay (p : Pos) (s : State) : Keeps s (decay p s) := by
  simp only [decay]
  split
  · rename_i same
    rw [same]
    exact keeps_modLoad id
  · refine keeps_evaluateFlood fun ⟨load, k1, k2, x, e, h1, h2, _⟩ => PosLoad.evaluated_sound ?_ ⟨k1, k2⟩ x e ⟨h1, h2⟩
    exact (Nat.sub_le ..).trans load

end loads

/-! ### Desks, areas and the bypass register -/

section desks
variable {s : State} {p : Pos}

theorem keeps_configure (p : Pos) (f : PositionFields) (s : State) : Keeps s (configure p f s) := by
  refine .trans (keeps_modPos (fun _ h => h) fun h => h) (keeps_evaluateFlood fun ⟨load, _⟩ => ?_)
  have low : 1 ≤ clamp 1 65535 f.e := le_clamp (by decide)
  refine PosLoad.evaluated_sound load ⟨le_clamp (by decide), clamp_le (by decide)⟩ ?_ (clamp_le (by decide))
    ⟨le_clamp (by decide), clamp_le (by decide)⟩
  simp only [PosLoad.configured]
  split <;> omega

theorem keeps_signOn {o : Nat} (h : (s.positions.get p).state = .vacant) : Keeps s (signOn o p s) := by
  refine .trans (.trans (keeps_modPos (fun _ h => h) ?_) (keeps_setEngagement ..)) keeps_append
  rintro ⟨-, incoming, timer, items, relief⟩
  refine ⟨by simp, ?_, ?_, ?_, ?_⟩ <;> simp_all

theorem keeps_signOff (h : (s.positions.get p).state = .staffed) (hr : (s.positions.get p).relief = []) :
    Keeps s (signOff p s) := by
  refine .trans (.trans (keeps_modPos (fun _ h => h) ?_) (keeps_release ..)) keeps_append
  rintro ⟨-, incoming, timer, items, relief⟩
  refine ⟨by simp, ?_, ?_, ?_, ?_⟩ <;> simp_all

theorem keeps_moveOut (source : Pos) (s : State) (e : ListEntry) : Keeps s (moveOut source s e) :=
  .ite (fun _ => (keeps_leaveAnn ..).trans (keeps_notify_console ..)) fun _ =>
    (keeps_leaveDeferred ..).trans (keeps_setOverflow ..)

theorem keeps_moveLists (source target : Pos) (moving : List ListEntry) (s : State) :
    Keeps s (moveLists source target moving s) :=
  .trans (.trans (.foldl (keeps_moveOut source) s moving) (keeps_restoreLists ..))
    (.trans (.foldl (fun _ _ => keeps_placeOnLists ..) _ moving) (keeps_judgeHorn ..))

theorem length_foldl_insertBy {α : Type} (before : α → α → Bool) (m l : List α) :
    (m.foldl (fun l e => insertBy before e l) l).length = l.length + m.length := by
  induction m generalizing l with
  | nil => rfl
  | cons x m ih => simp [ih]; omega

theorem keeps_moveShelf {a : Nat} {source target : Pos} (hne : target ≠ source)
    (room : (s.lists.get target).shelf.length + (areaShelf s a source).length ≤ 32) : Keeps s (moveShelf a source target s) := by
  simp only [moveShelf]
  refine .trans (keeps_modLists fun ⟨ann, deferred, shelf⟩ => ⟨ann, deferred, (List.length_filter_le ..).trans shelf⟩)
    (keeps_modLists fun ⟨ann, deferred, _⟩ => ⟨ann, deferred, ?_⟩)
  simpa [length_foldl_insertBy, modLists_get, hne] using room

theorem keeps_transferArea {a o : Nat} {source target : Pos} (hne : target ≠ source)
    (room : (s.lists.get target).shelf.length + (areaShelf s a source).length ≤ 32) :
    Keeps s (transferArea a source target o s) :=
  .trans (.trans (.trans (keeps_areas (by simp)) keeps_append) (keeps_moveShelf hne room)) (keeps_moveLists ..)

theorem keeps_declareBypass {o a k d slot : Nat} (h : slot < 16) : Keeps s (declareBypass o a k d slot s) := by
  simp only [declareBypass]
  refine .trans (.trans (keeps_bypasses (fun wf => Table.wf_insert wf _ _) fun hb e he => ?_) keeps_append)
    (.when fun hr => keeps_appendItem hr (by simp [summaryKinds]))
  rcases Table.mem_insert he with rfl | he
  · exact h
  · exact hb e he

theorem keeps_endBypass (o slot : Nat) (b : Bypass) (s : State) : Keeps s (endBypass o slot b s) :=
  .trans (.trans (keeps_bypasses (fun wf => Table.wf_erase wf _) fun hb e he => hb e (List.mem_of_mem_filter he)) keeps_append)
    (.when fun hr => keeps_resolveItem hr)

theorem keeps_expireBypass {slot : Nat} {b : Bypass} (h : dueBypass? s slot = some b) : Keeps s (expireBypass slot b s) := by
  refine .trans (.trans (keeps_bypasses (fun wf => Table.wf_insert wf _ _) fun hb e he => ?_) keeps_append) (keeps_notifyBoth ..)
  rcases Table.mem_insert he with rfl | he
  · exact hb (slot, b) (Table.mem_of_get? (Option.mem_filter_iff.1 h).1)
  · exact hb e he

theorem keeps_addNote {o : Nat} {n : Note} (room : (s.positions.get p).notes.length < 8) : Keeps s (addNote o p n s) :=
  .trans (.trans (keeps_modPos (fun _ ⟨_, relief, items⟩ => ⟨by simpa using room, relief, items⟩) fun h => h) keeps_append)
    (.when fun hr => keeps_appendItem hr (by simp [summaryKinds]))

/-! ### Handovers -/

theorem keeps_handoverNotices (p : Pos) (c : HandoverChange) (n : Nat) (r : Option EndReason) (s : State) :
    Keeps s (handoverNotices p c n r s) := keeps_notifyBoth ..

theorem keeps_offer {o : Nat} (h : (s.positions.get p).state = .staffed) (hr : (s.positions.get p).relief = []) :
    Keeps s (offer p o s) := by
  refine .trans (.trans (keeps_modPos (fun _ h => h) ?_) keeps_append) (keeps_handoverNotices ..)
  rintro ⟨holder, incoming, timer, items, relief⟩
  refine ⟨?_, ?_, ?_, ?_, ?_⟩ <;> simp_all

/-- R69, R99: a table in canonical form whose numbers lie below a bound has no more records than the bound. -/
theorem Table.length_le {α : Type} {t : Table α} {n : Nat} (h : t.wf = true) (hb : ∀ e ∈ t, e.1 < n) : t.length ≤ n := by
  have nodup : (t.map Prod.fst).Nodup := ((Table.wf_iff t).1 h).imp fun h => Nat.ne_of_lt h
  have sub : t.map Prod.fst ⊆ List.range n := by
    intro x hx
    obtain ⟨e, he, rfl⟩ := List.mem_map.1 hx
    exact List.mem_range.2 (hb e he)
  simpa using (nodup.subperm sub).length_le

/-- R130: a build has at most one item for each summary kind, bypass, shelf entry and note. -/
theorem length_buildItems_le (s : State) (p : Pos) : (buildItems s p).length ≤
    6 + s.bypasses.length + (s.lists.get p).shelf.length + (s.positions.get p).notes.length := by
  simp only [buildItems, buildList, List.length_mapIdx, List.length_append, List.length_map]
  have summaries (l : List (ItemKind × Nat × Nat)) := List.length_filter_le (fun x => x.2.2 != 0) l
  have bypasses := List.length_filter_le (fun e => areaOwner s e.2.area == p) s.bypasses
  have flood : (if (s.loads.get p).flood then [(ItemKind.flood, p.num, (s.loads.get p).load)] else []).length ≤ 1 := by
    split <;> simp
  refine Nat.add_le_add (Nat.add_le_add (Nat.add_le_add ?_ bypasses) le_rfl) le_rfl
  exact Nat.add_le_add ((summaries _).trans (by simp)) flood

/-- R129, R130: a build fits the item list, with a place to spare for each summary kind. -/
theorem buildItems_fits {s : State} {p : Pos} (bypasses : s.bypasses.length ≤ 16) (shelf : (s.lists.get p).shelf.length ≤ 32)
    (notes : (s.positions.get p).notes.length ≤ 8) : ItemsFit (buildItems s p) := by
  refine ⟨?_, fun n hn => by simp [buildItems]⟩
  have length := length_buildItems_le s p
  have held : heldPlaces (buildItems s p) ≤ 6 := List.length_filter_le ..
  omega

theorem setEngagement_modPos (o : Nat) (e : Option (Pos × Role)) (p : Pos) (f : PosContext → PosContext) (s : State) :
    setEngagement o e (modPos p f s) = modPos p f (setEngagement o e s) := rfl

theorem keeps_take {o : Nat} (h : (s.positions.get p).state = .offered) : Keeps s (take o p s) := by
  simp only [take, setEngagement_modPos, modPos_modPos]
  refine .trans (.trans (.trans (keeps_setEngagement ..) (keeps_modPos ?_ ?_)) keeps_append) (keeps_handoverNotices ..)
  · intro hc ⟨notes, relief, _⟩
    obtain ⟨lists, -, -, -, -, -, -, bypasses, -, slots⟩ := (capacityInv_iff _).1 hc
    refine ⟨notes, relief, buildItems_fits (Table.length_le bypasses slots) (lists p).2.2 ?_⟩
    simpa using notes
  · rintro ⟨holder, incoming, timer, items, relief⟩
    refine ⟨?_, ?_, ?_, ?_, ?_⟩ <;> simp_all

theorem keeps_confirm (numbers : List Nat) (p : Pos) (s : State) :
    Keeps s (modPos p (fun c => { c with items := confirmItems numbers (s.positions.get p).items }) s) := by
  have confirmed (it : Item) : ∀ (b : Bool), (if b then { it with confirmed := true } else it).kind = it.kind ∧
      (if b then { it with confirmed := true } else it).number = it.number := by simp
  refine keeps_modPos (fun _ ⟨notes, relief, bound, numbered⟩ => ⟨notes, relief, ?_, fun n hn => ?_⟩) ?_
  · have kinds : (confirmItems numbers (s.positions.get p).items).map (·.kind) = (s.positions.get p).items.map (·.kind) := by
      rw [confirmItems, List.map_map]
      exact List.map_congr_left fun it _ => (confirmed it _).1
    rw [heldPlaces_eq_of_kinds kinds, confirmItems, List.length_map]
    exact bound
  · simp only [confirmItems, List.getElem_map]
    exact ((confirmed _ _).2).trans (numbered n (by simpa [confirmItems] using hn))
  · rintro ⟨holder, incoming, timer, items, relief⟩
    exact ⟨holder, incoming, timer, fun ne => items (by simpa [confirmItems] using ne), relief⟩

theorem keeps_accept (o : Nat) (p : Pos) (s : State) : Keeps s (accept o p s) := by
  simp only [accept, setEngagement_modPos, release_modPos, modPos_modPos]
  refine .trans (.trans (.trans (.trans (keeps_setEngagement ..) (keeps_release ..)) (keeps_modPos ?_ ?_)) keeps_append)
    (keeps_handoverNotices ..)
  · exact fun _ ⟨_, relief, _⟩ => ⟨Nat.zero_le _, relief, ItemsFit.nil⟩
  · rintro ⟨holder, incoming, timer, items, relief⟩
    refine ⟨?_, ?_, ?_, ?_, ?_⟩ <;> simp_all

theorem keeps_dropHandover (s : State) (p : Pos) : Keeps s (dropHandover s p) := by
  simp only [dropHandover]
  refine .when fun hs => ?_
  split
  · rename_i review
    rw [release_modPos, modPos_modPos, ← release_modPos]
    exact .trans (keeps_modPos (fun _ ⟨notes, relief, _⟩ => ⟨notes, relief, ItemsFit.nil⟩) fun h =>
      h.over hs [] (fun _ => rfl) fun h => by rw [review] at h; cases h) (keeps_release ..)
  · rename_i other
    exact keeps_modPos (fun _ fits => fits) fun h => h.over hs _ (fun h => absurd h other) fun _ => rfl

/-! ### Relief -/

theorem keeps_takeRelief {o : Nat} (h : (s.positions.get p).state = .staffed) (room : (s.positions.get p).relief.length < 2) :
    Keeps s (takeRelief o p s) := by
  simp only [takeRelief, setEngagement_modPos, modPos_modPos]
  refine .trans (.trans (keeps_setEngagement ..) (.trans (keeps_setEngagement ..) (keeps_modPos ?_ ?_))) keeps_append
  · exact fun _ ⟨notes, _, items⟩ => ⟨notes, by simpa using room, items⟩
  · rintro ⟨holder, incoming, timer, items, relief⟩
    refine ⟨?_, ?_, ?_, ?_, ?_⟩ <;> simp_all

theorem keeps_returnRelease (p : Pos) (d : Nat) (s : State) (o : Nat) : Keeps s (returnRelease p d s o) :=
  (keeps_release ..).trans keeps_append

theorem keeps_clearRelease (p : Pos) (d : Nat) (s : State) (o : Nat) : Keeps s (clearRelease p d s o) :=
  (keeps_release ..).trans keeps_append

/-- R75: releases leave every position context. -/
theorem kept_foldl_release {f : State → Nat → State} (h : ∀ s o, Kept [.operators, .grants, .journal] s (f s o)) (s : State)
    (l : List Nat) : Kept [.operators, .grants, .journal] s (l.foldl f s) := by
  induction l generalizing s with
  | nil => exact .refl ..
  | cons o l ih => exact (h s o).trans (ih _)

theorem kept_returnRelease (p : Pos) (d : Nat) (s : State) (o : Nat) :
    Kept [.operators, .grants, .journal] s (returnRelease p d s o) :=
  ((quiet_release s o).trans ((quiet_append ..).mono (by simp))).kept

theorem keeps_returnRelief {o : Nat} (h : ∃ f ∈ (s.positions.get p).relief, f.operator = o) :
    Keeps s (returnRelief o p s) := by
  simp only [returnRelief]
  generalize hd : o + (if frameOverdue s p (frameOf? s p o) = true then 32768 else 0) = d
  have kept := kept_foldl_release (kept_returnRelease p d) s (returnReleased s p (frameOf? s p o))
  have same : ((returnReleased s p (frameOf? s p o)).foldl (returnRelease p d) s).positions = s.positions :=
    kept.agrees .positions (by simp)
  refine .trans (.trans (.foldl (keeps_returnRelease p d) ..) (keeps_modPos ?_ ?_)) (keeps_setEngagement ..)
  · exact fun _ ⟨notes, relief, items⟩ => ⟨notes, (List.length_take_le' ..).trans relief, items⟩
  · rw [same]
    obtain ⟨f, hf, -⟩ := h
    rintro ⟨holder, incoming, timer, items, relief⟩
    have staffed := relief (List.ne_nil_of_mem hf)
    refine ⟨?_, incoming, timer, items, fun _ => staffed⟩
    simp [staffed]

theorem keeps_clearRelief (p : Pos) (o : Nat) (s : State) : Keeps s (clearRelief p o s) := by
  simp only [clearRelief]
  refine .trans (.foldl (keeps_clearRelease p o) s _) (keeps_modPos ?_ ?_)
  · exact fun _ ⟨notes, _, items⟩ => ⟨notes, Nat.zero_le _, items⟩
  · rintro ⟨holder, incoming, timer, items, -⟩
    exact ⟨holder, incoming, timer, items, by simp⟩

theorem keeps_expireRelief (p : Pos) (n : Nat) (f : ReliefFrame) (s : State) : Keeps s (expireRelief p n f s) := by
  refine .trans (.trans (keeps_modPos ?_ ?_) keeps_append) (keeps_notifyBoth ..)
  · exact fun _ ⟨notes, relief, items⟩ => ⟨notes, by simpa using relief, items⟩
  · rintro ⟨holder, incoming, timer, items, relief⟩
    exact ⟨holder, incoming, timer, items, fun ne => relief (by simpa using ne)⟩

/-! ### Operators and grants -/

theorem keeps_defineOperator (o present : Nat) (b : Word) (level : Nat) (s : State) :
    Keeps s (defineOperator o present b level s) := by
  unfold defineOperator
  refine .ite (fun _ => keeps_operators fun wf => Table.wf_insert wf _ _) fun _ => .when fun _ => ?_
  exact (keeps_operators fun wf => Table.wf_erase wf _).trans (keeps_endGrants ..)

theorem keeps_newGrant {g : Grant} (h : (freeSlot? 256 s.grants).isSome) : Keeps s (newGrant g s) := by
  obtain ⟨n, hn⟩ := Option.isSome_iff_exists.1 h
  refine keeps_issueGrant ?_
  rw [Config.grantSlots, hn, Option.getD_some]
  exact (freeSlot?_some hn).1

end desks

end Sys2Proof.Machine
end

section
/-! PROOFS. The invariants of the blocks over every command, and over the end of a command. Settles `LoadInvIsKept`,
`LinkInvIsKept`, `JournalInvIsKept` and `CapacityInvIsKept`. -/

namespace Sys2Proof.Machine

/-! ### Links: ports, flow and the hold timer -/

section links
variable {s : State}

theorem keeps_takeFrame (l : Link) (s : State) : Keeps s (takeFrame l s) := keeps_modLink id

theorem keeps_replies (l : Link) (g : LinkState → List Frame) (s : State) :
    Keeps s (modLink l (fun k => { k with replies := g k }) s) := keeps_modLink id

/-- A change of every link that keeps what one holds at rest. -/
theorem keeps_mapLinks {f : Link → LinkState → LinkState} (h : ∀ l k, CalmAt l k → CalmAt l (f l k)) :
    Keeps s { s with links := s.links.map f } :=
  ⟨⟨id, fun hc l => by rw [PerLink.get_map]; exact h l _ (hc l), id, id, id⟩, id⟩

theorem keeps_changeRates (s : State) : Keeps s (changeRates s) := keeps_mapLinks fun _ _ h => h

theorem keeps_finishFrame (l : Link) (s : State) : Keeps s (finishFrame l s) := by
  unfold finishFrame
  split
  · exact (keeps_modLink id).trans (.when fun _ => keeps_changeRates _)
  · exact .refl s

theorem LinkState.Calm.takeHold {k : LinkState} (h : k.Calm) : k.takeHold.Calm := by
  obtain ⟨room, down, due, joined, -⟩ := id h
  unfold LinkState.takeHold
  split
  · exact ⟨room, down, due, joined, fun _ => rfl⟩
  · exact h

theorem keeps_takeHold (l : Link) (s : State) : Keeps s (modLink l LinkState.takeHold s) := by
  refine keeps_modLink fun ⟨calm, plant⟩ => ⟨calm.takeHold, fun hl => ?_⟩
  unfold LinkState.takeHold
  split <;> exact plant hl

theorem keeps_takeGo (l : Link) (s : State) : Keeps s (modLink l LinkState.takeGo s) :=
  keeps_modLink fun ⟨⟨room, down, due, joined, _⟩, plant⟩ => ⟨⟨room, down, due, joined, nofun⟩, plant⟩

theorem keeps_bringUp {l : Link} (h : (s.links.get l).up = false) : Keeps s (bringUp l s) := by
  refine .trans (keeps_modLink fun ⟨⟨room, down, due, joined, _⟩, plant⟩ => ?_) keeps_append
  have empty := down h
  refine ⟨⟨room, nofun, fun _ => ?_, joined, nofun⟩, fun hl => ?_⟩
  · simp [LinkState.takeGo, empty]
  · obtain ⟨due, snapshot, faults⟩ := plant hl
    exact ⟨by simpa [LinkState.takeGo, hl] using due, snapshot, faults⟩

theorem modLink_modLink (l : Link) (f g : LinkState → LinkState) (s : State) :
    modLink l g (modLink l f s) = modLink l (g ∘ f) s := by
  have same : (modLink l g (modLink l f s)).links = (modLink l (g ∘ f) s).links := PerLink.ext_get fun m => by
    simp only [modLink_get]
    split <;> simp_all
  simp only [modLink] at same ⊢
  rw [same]

theorem modLink_comm {l m : Link} (h : m ≠ l) (f g : LinkState → LinkState) (s : State) :
    modLink m g (modLink l f s) = modLink l f (modLink m g s) := by
  have same : (modLink m g (modLink l f s)).links = (modLink l f (modLink m g s)).links := PerLink.ext_get fun x => by
    simp only [modLink_get]
    split_ifs <;> simp_all
  simp only [modLink] at same ⊢
  rw [same]

/-- R174: a FAULT notice passes by a link that is DOWN, which may change first or last. -/
theorem routeFault_modLink_down {l x : Link} {c : List Link} {f : LinkState → LinkState} (h : (s.links.get l).up = false)
    (hf : (f (s.links.get l)).up = false) : routeFault x c (modLink l f s) = modLink l f (routeFault x c s) := by
  have up (m : Link) : ((modLink l f s).links.get m).up = (s.links.get m).up := by
    rw [modLink_get]
    split
    · subst m; rw [hf, h]
    · rfl
  unfold routeFault
  simp only [up]
  split
  · rename_i m found
    have hm : m ≠ l := by
      rintro rfl
      have := List.find?_some found
      simp [h] at this
    exact modLink_comm hm _ _ _
  · rw [modLink_relay, apply_ite (modLink l f)]
    rfl

theorem keeps_passFault (l : Link) (s : State) (q : Queued) : Keeps s (passFault l s q) := by
  unfold passFault
  split
  · exact keeps_routeFault ..
  · exact .refl s

theorem routeFault_get_down {l x : Link} {c : List Link} (h : (s.links.get l).up = false) :
    (routeFault x c s).links.get l = s.links.get l := by
  unfold routeFault
  split
  · rename_i m found
    rw [notify, modLink_get]
    split
    · subst l
      have := List.find?_some found
      simp [h] at this
    · rfl
  · split <;> rfl

theorem passFault_get_down {l : Link} (q : Queued) (h : (s.links.get l).up = false) :
    (passFault l s q).links.get l = s.links.get l := by
  unfold passFault
  split
  · exact routeFault_get_down h
  · rfl

/-- R172 step 3: the FAULT notices that wait pass by the link that is going DOWN, which may change first or last. -/
theorem foldl_passFault_modLink_down {l : Link} {f : LinkState → LinkState} (qs : List Queued)
    (h : (s.links.get l).up = false) (hf : (f (s.links.get l)).up = false) :
    qs.foldl (passFault l) (modLink l f s) = modLink l f (qs.foldl (passFault l) s) := by
  induction qs generalizing s with
  | nil => rfl
  | cons q qs ih =>
    have step : passFault l (modLink l f s) q = modLink l f (passFault l s q) := by
      unfold passFault
      split
      · exact routeFault_modLink_down h hf
      · rfl
    have same := passFault_get_down q h
    rw [List.foldl_cons, step, List.foldl_cons]
    exact ih (by rw [same, h]) (by rw [same, hf])

/-- R172: a link goes DOWN and drops its queue before the notices that waited in it pass on. -/
theorem takeDown_eq (l : Link) (s : State) : takeDown l s =
    routeFault l (faultChain l) ((s.links.get l).queue.foldl (passFault l) (append .linkDown (linkPosition l) none none l.num
      (modLink l (fun k => ({ k with up := false, holdTimer := none } : LinkState).goDown (l != .plant)) s))) := by
  have order := foldl_passFault_modLink_down (l := l) (f := LinkState.goDown (l != .plant)) (s.links.get l).queue
    (s := append .linkDown (linkPosition l) none none l.num (modLink l (fun k => { k with up := false, holdTimer := none }) s))
    (by simp) (by simp [LinkState.goDown])
  have merged : modLink l (LinkState.goDown (l != .plant))
      (append .linkDown (linkPosition l) none none l.num (modLink l (fun k => { k with up := false, holdTimer := none }) s)) =
      append .linkDown (linkPosition l) none none l.num
        (modLink l (fun k => ({ k with up := false, holdTimer := none } : LinkState).goDown (l != .plant)) s) :=
    congrArg (append .linkDown (linkPosition l) none none l.num) (modLink_modLink l _ _ s)
  rw [merged] at order
  rw [order]
  rfl

theorem keeps_takeDown (l : Link) (s : State) : Keeps s (takeDown l s) := by
  rw [takeDown_eq]
  refine .trans (.trans (.trans (keeps_modLink fun ⟨⟨_, _, _, _, allowance⟩, plant⟩ => ?_) keeps_append)
    (.foldl (keeps_passFault l) _ _)) (keeps_routeFault ..)
  refine ⟨⟨Nat.zero_le _, fun _ => rfl, fun _ => Nat.zero_le _, fun ne => absurd rfl ne, allowance⟩, fun hl => ?_⟩
  exact ⟨by simpa [LinkState.goDown, hl] using (plant hl).1, rfl, nofun⟩

theorem LinkState.restart_calmAt {l : Link} {k : LinkState} : CalmAt l (k.restart (l != .plant)) :=
  ⟨⟨Nat.zero_le _, fun _ => rfl, fun _ => Nat.zero_le _, fun _ => Nat.zero_le _, nofun⟩,
    fun hl => ⟨by simp [LinkState.restart, hl], rfl, nofun⟩⟩

end links

/-! ### The clock, commissioning and restart -/

section start
variable {s : State}

theorem keeps_tick (s : State) : Keeps s (tick s) := by
  have contexts (p : Pos) : (tick s).positions.get p = (s.positions.get p).tick := by simp [tick]
  have loads (p : Pos) : (tick s).loads.get p = { s.loads.get p with decay := (s.loads.get p).decay - 1 } := by simp [tick]
  have links (l : Link) : (tick s).links.get l = { s.links.get l with holdTimer := countDown (s.links.get l).holdTimer } := by
    simp [tick]
  refine ⟨⟨fun h p => ?_, fun h l => ?_, id, id, fun h p => ?_⟩, fun h => ?_⟩
  · rw [loads]; exact h p
  · rw [links]; exact h l
  · obtain ⟨holder, incoming, timer, items, relief⟩ := h p
    rw [contexts]
    exact ⟨holder, incoming, by simpa [PosContext.tick, countDown] using timer, items,
      fun ne => relief (by simpa [PosContext.tick] using ne)⟩
  · obtain ⟨lists, escalation, positions, areas, alarms, operators, grants, bypasses, slots, register⟩ := (capacityInv_iff s).1 h
    have counted : (tick s).bypasses.wf = true := by
      have h := Table.wf_map bypasses fun b => { b with due := b.due - 1 }
      exact h
    refine (capacityInv_iff _).2 ⟨fun p => ?_, escalation, fun p => ?_, areas, alarms, operators, grants, counted, slots,
      fun e he => ?_⟩
    · obtain ⟨ann, deferred, shelf⟩ := lists p
      simp only [tick, PerPos.get_map]
      exact ⟨by simpa [PosLists.tick] using ann, deferred, by simpa [PosLists.tick] using shelf⟩
    · obtain ⟨notes, relief, items⟩ := positions p
      rw [contexts]
      exact ⟨notes, by simpa [PosContext.tick] using relief, items⟩
    · obtain ⟨x, hx, rfl⟩ := List.mem_map.1 he
      exact register x hx

theorem keeps_device {r : RunState} {n : Nat} : Keeps s { s with plantHold := n, runState := r } :=
  .of_kept (ps := [.device]) ⟨fun p hp => by cases p <;> simp_all [Agrees]⟩ (by simp)

theorem keeps_storeRates (rates : List Nat) (s : State) : Keeps s (storeRates rates s) := keeps_mapLinks fun _ _ h => h

theorem keeps_restartBlocks (s : State) : Keeps s (restartBlocks s) := by
  refine .trans ?_ (.foldl keeps_dropHandover _ _)
  refine .trans (keeps_mapAlarms (f := AlarmDyn.restart) fun _ h => h.restart) ⟨⟨fun h p => ?_, id, id, id, id⟩, fun h => ?_⟩
  · obtain ⟨-, k1, k2, x, e, h1, h2, -, -⟩ := h p
    simp only [PerPos.get_map]
    exact ⟨Nat.zero_le _, k1, k2, x, e, h1, h2, nofun, fun _ => (Nat.zero_le _).trans_lt x⟩
  · obtain ⟨lists, -, rest⟩ := (capacityInv_iff _).1 h
    refine (capacityInv_iff _).2 ⟨fun p => ?_, Nat.zero_le _, rest⟩
    simp only [PerPos.get_map]
    exact ⟨Nat.zero_le _, Nat.zero_le _, (lists p).2.2⟩

theorem keeps_warmRestart (s : State) : Keeps s (warmRestart s) := by
  simp only [warmRestart]
  refine .trans (.trans (.trans (.of_kept (ps := [.device]) ?_ (by simp)) keeps_append) (keeps_restartBlocks _))
    (keeps_mapLinks fun _ _ _ => LinkState.restart_calmAt)
  exact ⟨fun p hp => by cases p <;> simp_all [Agrees]⟩

end start

/-! ### Serving -/

theorem keeps_journalRefusal (h : Header) (k : Kind) (i : Option Nat) (a : Answer) (s : State) :
    Keeps s (journalRefusal h k i a s) := by
  unfold journalRefusal
  split
  · exact keeps_accessRefused ..
  · exact .refl s

theorem keeps_reply (h : Header) (k : Kind) (a : Answer) (s : State) : Keeps s (reply h k a s) := keeps_replies ..

/-- What a command does before its end keeps the invariants of the blocks. -/
def KeepsUntilSettled (s : State) (r : Host.Outcome State Fault Refusal) : Prop := ∃ u, r = .next (settle u) ∧ Keeps s u

theorem keepsUntilSettled_serve {k : Kind} {h : Header} {i : Option Nat} {body : State → State × Answer} {s : State}
    (hb : ∀ u, Keeps u (body u).1) : KeepsUntilSettled s (serve k h i body s) :=
  ⟨_, rfl, .trans (.trans (.trans (keeps_takeFrame ..) (keeps_judged fun _ => hb _)) (keeps_journalRefusal ..)) (keeps_reply ..)⟩

theorem keepsUntilSettled_console {k : Kind} {h : Header} {i : Option Nat} {body : Pos → State → State × Answer} {s : State}
    (hb : ∀ p u, Keeps u (body p u).1) : KeepsUntilSettled s (serve k h i (atConsole h body) s) :=
  keepsUntilSettled_serve fun _ => keeps_atConsole fun _ => hb _ _

theorem keepsUntilSettled_event {act : State → State} {s : State} (ha : Keeps s (act s)) :
    KeepsUntilSettled s (event act s) := ⟨_, rfl, ha⟩

/-! ### Every command -/

section commands
variable {s : State}

theorem keeps_execOneSecondStep : KeepsUntilSettled s (execOneSecondStep s) := keepsUntilSettled_event (keeps_tick s)

theorem keeps_execFrameDiscarded (l : Link) (bytes : List Byte) : KeepsUntilSettled s (execFrameDiscarded l bytes s) :=
  keepsUntilSettled_event (keeps_modLink id)

theorem keeps_execUnknownKindFrame (l : Link) (kind : Byte) (tag : Byte) :
    KeepsUntilSettled s (execUnknownKindFrame l kind tag s) :=
  keepsUntilSettled_event ((keeps_takeFrame l s).trans (keeps_replies l (fun k => k.replies ++ [unknownKindReply kind tag]) _))

theorem keeps_execFrameSent (l : Link) : KeepsUntilSettled s (execFrameSent l s) :=
  keepsUntilSettled_event (keeps_finishFrame ..)

theorem keeps_execFlowHold (l : Link) (value : Option Byte) : KeepsUntilSettled s (execFlowHold l value s) :=
  keepsUntilSettled_event ((keeps_takeFrame ..).trans (.when fun _ => keeps_takeHold ..))

theorem keeps_execFlowGo (l : Link) : KeepsUntilSettled s (execFlowGo l s) :=
  keepsUntilSettled_event ((keeps_takeFrame ..).trans
    (.ite (fun _ => keeps_takeGo ..) fun down => keeps_bringUp (by simpa using down)))

theorem keeps_execDefineAlarm (h : Header) (f : AlarmFields) : KeepsUntilSettled s (execDefineAlarm h f s) := by
  refine keepsUntilSettled_serve fun u => keeps_judged fun checked => ?_
  simp only [firstRefusal_cons_eq_none, firstRefusal_append_eq_none, List.cons_append, decide_eq_true_eq] at checked
  obtain ⟨index, ranges, -⟩ := checked
  exact keeps_defineAlarm index fun ha => definedAlarm_sound ranges fun a hget => (ha _ (Table.mem_of_get? hget)).2

theorem keeps_execDefineOperator (h : Header) (id : Nat) (present : Nat) (badge : Word) (level : Nat) :
    KeepsUntilSettled s (execDefineOperator h id present badge level s) :=
  keepsUntilSettled_serve fun _ => keeps_judged fun _ => keeps_defineOperator ..

theorem keeps_execDefineGrant (h : Header) (id : Nat) (kind : Nat) (scope : Nat) (binding : Nat) :
    KeepsUntilSettled s (execDefineGrant h id kind scope binding s) := by
  refine keepsUntilSettled_serve fun u => keeps_judged fun checked => ?_
  simp only [newGrantChecks, firstRefusal_cons_eq_none, firstRefusal_append_eq_none] at checked
  exact keeps_newGrant checked.2.2.1

theorem keeps_execDefinePosition (h : Header) (f : PositionFields) : KeepsUntilSettled s (execDefinePosition h f s) :=
  keepsUntilSettled_serve fun _ => keeps_judged fun _ => keeps_configure ..

theorem keeps_execGroupMaskMask (h : Header) (action : Nat) (groups : Word) :
    KeepsUntilSettled s (execGroupMaskMask h action groups s) :=
  keepsUntilSettled_serve fun u => keeps_judged fun _ =>
    ((keeps_mask _ u).trans (keeps_suppressionEntry ..)).trans (.foldl_fst (keeps_maskAlarm _) (_, 0) _)

theorem keeps_execGroupMaskUnmask (h : Header) (groups : Word) : KeepsUntilSettled s (execGroupMaskUnmask h groups s) :=
  keepsUntilSettled_serve fun u => keeps_judged fun _ =>
    ((keeps_mask _ u).trans (keeps_suppressionEntry ..)).trans (.foldl_fst (keeps_unmaskAlarm _) (_, 0) _)

theorem keeps_execTimeSet (h : Header) (time : Word) : KeepsUntilSettled s (execTimeSet h time s) := by
  refine keepsUntilSettled_serve fun u => .trans (.of_kept (ps := [.clock]) ?_ (by simp)) keeps_append
  exact ⟨fun p hp => by cases p <;> simp_all [Agrees]⟩

theorem keeps_execStatus (h : Header) : KeepsUntilSettled s (execStatus h s) := keepsUntilSettled_serve fun u => .refl u

theorem keeps_execOperatorRead (h : Header) (id : Nat) : KeepsUntilSettled s (execOperatorRead h id s) :=
  keepsUntilSettled_serve fun u => keeps_judged fun _ => .refl u

theorem keeps_execRelayReset (h : Header) : KeepsUntilSettled s (execRelayReset h s) := by
  refine keepsUntilSettled_serve fun u => keeps_judged fun _ => ?_
  rw [apply_ite Prod.fst]
  exact .when fun _ => (keeps_relay ..).trans keeps_append

theorem keeps_execCommission (h : Header) (hold : Nat) (rates : List Nat) :
    KeepsUntilSettled s (execCommission h hold rates s) :=
  keepsUntilSettled_serve fun _ => keeps_judged fun _ => keeps_device.trans (keeps_storeRates ..)

theorem keeps_execAlarmEventRaise (h : Header) (i : Nat) (event : Nat) :
    KeepsUntilSettled s (execAlarmEventRaise h i event s) :=
  keepsUntilSettled_serve fun _ => keeps_judged fun _ => keeps_raiseAlarm ..

theorem keeps_execAlarmEventClear (h : Header) (i : Nat) : KeepsUntilSettled s (execAlarmEventClear h i s) :=
  keepsUntilSettled_serve fun _ => keeps_judged fun _ => keeps_clearAlarm ..

theorem keeps_execOutOfService (h : Header) (i : Nat) : KeepsUntilSettled s (execOutOfService h i s) := by
  refine keepsUntilSettled_serve fun u => keeps_judged fun _ => ?_
  rw [apply_ite Prod.fst]
  exact .unless fun _ => keeps_takeOutOfService ..

theorem keeps_execReturnToService (h : Header) (i : Nat) : KeepsUntilSettled s (execReturnToService h i s) := by
  refine keepsUntilSettled_serve fun u => keeps_judged fun _ => ?_
  rw [apply_ite Prod.fst]
  exact .when fun _ => keeps_returnAlarm ..

theorem keeps_execRevokeGrant (h : Header) (slot : Nat) : KeepsUntilSettled s (execRevokeGrant h slot s) :=
  keepsUntilSettled_serve fun _ => keeps_judged fun _ => keeps_endGrant ..

theorem keeps_execAlarmStateActive (h : Header) (i : Nat) (state : Nat) :
    KeepsUntilSettled s (execAlarmStateActive h i state s) :=
  keepsUntilSettled_serve fun _ => keeps_judged fun _ => keeps_raiseAlarm ..

theorem keeps_execAlarmStateInactive (h : Header) (i : Nat) : KeepsUntilSettled s (execAlarmStateInactive h i s) :=
  keepsUntilSettled_serve fun _ => keeps_judged fun _ => keeps_clearAlarm ..

theorem keeps_execResyncEnd (h : Header) : KeepsUntilSettled s (execResyncEnd h s) :=
  keepsUntilSettled_serve fun u => keeps_judged fun _ =>
    (keeps_mapAlarms (f := AlarmDyn.endResync) fun _ ha => ha.endResync).trans (keeps_device (n := u.plantHold))

theorem keeps_execRestart (h : Header) : KeepsUntilSettled s (execRestart h s) :=
  keepsUntilSettled_serve fun _ => keeps_warmRestart _

theorem keeps_execAlarmRead (h : Header) (i : Nat) : KeepsUntilSettled s (execAlarmRead h i s) :=
  keepsUntilSettled_serve fun u => keeps_judged fun _ => .refl u

theorem keeps_execListRead (h : Header) (selector : Nat) (position : Nat) (start : Nat) (count : Nat) :
    KeepsUntilSettled s (execListRead h selector position start count s) :=
  keepsUntilSettled_serve fun u => keeps_judged fun _ => .refl u

theorem keeps_execLoadQuery (h : Header) (selector : Nat) : KeepsUntilSettled s (execLoadQuery h selector s) :=
  keepsUntilSettled_serve fun _ => keeps_judged fun _ => .foldl (fun s p => keeps_clearLimit p s) _ _

theorem keeps_execJournalRead (h : Header) (start : Word) (count : Nat) :
    KeepsUntilSettled s (execJournalRead h start count s) :=
  keepsUntilSettled_serve fun u => keeps_judged fun _ => .refl u

theorem keeps_execPositionRead (h : Header) (position : Nat) : KeepsUntilSettled s (execPositionRead h position s) :=
  keepsUntilSettled_serve fun u => keeps_judged fun _ => .refl u

theorem keeps_execBypassRead (h : Header) : KeepsUntilSettled s (execBypassRead h s) :=
  keepsUntilSettled_serve fun u => .refl u

theorem keeps_execShelfRead (h : Header) (position : Nat) : KeepsUntilSettled s (execShelfRead h position s) :=
  keepsUntilSettled_serve fun u => keeps_judged fun _ => .refl u

theorem keeps_execItemRead (h : Header) (position : Nat) (start : Nat) (count : Nat) :
    KeepsUntilSettled s (execItemRead h position start count s) :=
  keepsUntilSettled_serve fun u => keeps_judged fun _ => .refl u

theorem keeps_execAck (h : Header) (i : Nat) : KeepsUntilSettled s (execAck h i s) :=
  keepsUntilSettled_console fun _ _ => keeps_judged fun _ => keeps_ackAnswer ..

theorem keeps_execAckList (h : Header) (count : Nat) (indices : List Nat) :
    KeepsUntilSettled s (execAckList h count indices s) :=
  keepsUntilSettled_console fun _ u => keeps_judged fun _ => .foldl_fst (keeps_ackOne _ _) (u, []) _

theorem keeps_execShelve (h : Header) (i : Nat) (duration : Nat) : KeepsUntilSettled s (execShelve h i duration s) := by
  refine keepsUntilSettled_console fun p u => keeps_judged fun checked => keeps_shelve ?_
  simp only [shelveChecks, firstRefusal_cons_eq_none, firstRefusal_append_eq_none] at checked
  simpa using checked.2.2.2.2.1

theorem keeps_execUnshelve (h : Header) (i : Nat) : KeepsUntilSettled s (execUnshelve h i s) :=
  keepsUntilSettled_console fun _ _ => keeps_judged fun _ => keeps_unshelveAlarm ..

theorem keeps_execLatchReset (h : Header) (i : Nat) : KeepsUntilSettled s (execLatchReset h i s) := by
  refine keepsUntilSettled_console fun p u => keeps_judged fun checked => keeps_resetLatch ?_
  simp only [firstRefusal_cons_eq_none, firstRefusal_append_eq_none] at checked
  simpa using checked.2.1

theorem keeps_execSilence (h : Header) : KeepsUntilSettled s (execSilence h s) :=
  keepsUntilSettled_console fun _ _ => keeps_judged fun _ => keeps_silenceList ..

theorem keeps_execBypassDeclare (h : Header) (area : Nat) (interlock : Nat) (duration : Nat) :
    KeepsUntilSettled s (execBypassDeclare h area interlock duration s) := by
  refine keepsUntilSettled_console fun p u => keeps_judged fun checked => keeps_declareBypass ?_
  simp only [bypassChecks, firstRefusal_cons_eq_none, firstRefusal_append_eq_none] at checked
  obtain ⟨n, hn⟩ := Option.isSome_iff_exists.1 checked.2.2.1
  rw [hn, Option.getD_some]
  exact (freeSlot?_some hn).1

theorem keeps_execBypassEnd (h : Header) (area : Nat) (interlock : Nat) :
    KeepsUntilSettled s (execBypassEnd h area interlock s) :=
  keepsUntilSettled_console fun _ _ => keeps_judged fun _ => keeps_endBypass ..

theorem keeps_execNoteAdd (h : Header) (code : Nat) (length : Nat) (text : List Byte) :
    KeepsUntilSettled s (execNoteAdd h code length text s) := by
  refine keepsUntilSettled_console fun p u => keeps_judged fun checked => keeps_addNote ?_
  simp only [noteChecks, firstRefusal_cons_eq_none, firstRefusal_append_eq_none] at checked
  simpa using checked.2.2.2.1

theorem keeps_execSignOn (h : Header) (badge : Word) : KeepsUntilSettled s (execSignOn h badge s) := by
  refine keepsUntilSettled_console fun p u => keeps_badgeRequest fun before t kept _ => keeps_signOn ?_
  rw [show t.positions = u.positions from kept.agrees .positions (by simp)]
  simpa [stateCheck] using before

theorem keeps_execSignOff (h : Header) : KeepsUntilSettled s (execSignOff h s) := by
  refine keepsUntilSettled_console fun p u => keeps_judged fun checked => ?_
  simp only [signOffChecks, stateCheck, noReliefCheck, firstRefusal_cons_eq_none] at checked
  obtain ⟨-, -, staffed, relief, -⟩ := checked
  exact keeps_signOff (by simpa using staffed) (by simpa using relief)

theorem keeps_execHandoverOffer (h : Header) (incoming : Nat) : KeepsUntilSettled s (execHandoverOffer h incoming s) := by
  refine keepsUntilSettled_console fun p u => keeps_judged fun checked => ?_
  simp only [offerChecks, stateCheck, noReliefCheck, firstRefusal_cons_eq_none] at checked
  obtain ⟨-, -, staffed, relief, -⟩ := checked
  exact keeps_offer (by simpa using staffed) (by simpa using relief)

theorem keeps_execHandoverTake (h : Header) (badge : Word) : KeepsUntilSettled s (execHandoverTake h badge s) := by
  refine keepsUntilSettled_console fun p u => keeps_badgeRequest fun before t kept _ => keeps_take ?_
  rw [show t.positions = u.positions from kept.agrees .positions (by simp)]
  simpa [stateCheck] using before

theorem keeps_execItemConfirm (h : Header) (count : Nat) (numbers : List Nat) :
    KeepsUntilSettled s (execItemConfirm h count numbers s) :=
  keepsUntilSettled_console fun _ _ => keeps_judged fun _ => keeps_confirm ..

theorem keeps_execHandoverAccept (h : Header) : KeepsUntilSettled s (execHandoverAccept h s) :=
  keepsUntilSettled_console fun _ _ => keeps_judged fun _ => keeps_accept ..

theorem keeps_execHandoverWithdraw (h : Header) : KeepsUntilSettled s (execHandoverWithdraw h s) := by
  refine keepsUntilSettled_console fun p u => keeps_judged fun checked => keeps_endHandover _ _ ?_
  simp only [handoverCheck, firstRefusal_cons_eq_none] at checked
  simpa using checked.2.2.1

theorem keeps_execHandoverCancel (h : Header) (position : Nat) : KeepsUntilSettled s (execHandoverCancel h position s) := by
  refine keepsUntilSettled_serve fun u => keeps_judged fun checked => keeps_endHandover _ _ ?_
  simp only [handoverCheck, firstRefusal_cons_eq_none, firstRefusal_append_eq_none, List.cons_append] at checked
  simpa using checked.2.2.1

theorem keeps_execReliefTake (h : Header) (badge : Word) : KeepsUntilSettled s (execReliefTake h badge s) := by
  refine keepsUntilSettled_console fun p u => keeps_badgeRequest fun before t kept after => ?_
  have same : t.positions = u.positions := kept.agrees .positions (by simp)
  simp only [reliefConditions, firstRefusal_cons_eq_none, firstRefusal_append_eq_none] at after
  refine keeps_takeRelief ?_ (by simpa using after.2.1)
  rw [same]
  simpa [stateCheck] using before

theorem keeps_execReliefReturn (h : Header) (badge : Word) : KeepsUntilSettled s (execReliefReturn h badge s) := by
  refine keepsUntilSettled_console fun p u => keeps_badgeRequest fun _ t _ after => keeps_returnRelief ?_
  simp only [returnChecks, stackedCheck, firstRefusal_cons_eq_none] at after
  simpa using after.1

theorem keeps_execReliefClear (h : Header) (position : Nat) : KeepsUntilSettled s (execReliefClear h position s) :=
  keepsUntilSettled_serve fun _ => keeps_judged fun _ => keeps_clearRelief ..

theorem keeps_execAreaTransfer (h : Header) (area : Nat) (target : Nat) :
    KeepsUntilSettled s (execAreaTransfer h area target s) := by
  refine keepsUntilSettled_serve fun u => keeps_judged fun checked => ?_
  simp only [transferChecks, firstRefusal_cons_eq_none, firstRefusal_append_eq_none] at checked
  obtain ⟨-, ne, -, -, -, room, -⟩ := checked
  exact keeps_transferArea (by simpa using ne) (by simpa using room)

theorem keeps_execGrantTemporary (h : Header) (target : Nat) (kind : Nat) (scope : Nat) :
    KeepsUntilSettled s (execGrantTemporary h target kind scope s) := by
  refine keepsUntilSettled_serve fun u => keeps_judged fun checked => ?_
  simp only [newGrantChecks, firstRefusal_cons_eq_none, firstRefusal_append_eq_none] at checked
  exact keeps_newGrant checked.2.2.1

theorem keeps_execGrantEnd (h : Header) (slot : Nat) : KeepsUntilSettled s (execGrantEnd h slot s) :=
  keepsUntilSettled_serve fun _ => keeps_judged fun _ => keeps_endGrant ..

theorem keeps_execOperatorUnlock (h : Header) (id : Nat) : KeepsUntilSettled s (execOperatorUnlock h id s) :=
  keepsUntilSettled_serve fun _ => keeps_judged fun _ => keeps_modOperator

theorem keeps_execDecayExpiry (p : Pos) : KeepsUntilSettled s (execDecayExpiry p s) :=
  keepsUntilSettled_event (.when fun _ => keeps_decay ..)

theorem keeps_execReminderExpiry (i : Nat) : KeepsUntilSettled s (execReminderExpiry i s) :=
  keepsUntilSettled_event (.when fun _ => keeps_expireReminder ..)

theorem keeps_execShelfExpiry (i : Nat) : KeepsUntilSettled s (execShelfExpiry i s) :=
  keepsUntilSettled_event (.when fun _ => keeps_expireShelf ..)

theorem keeps_execDueExpiry (slot : Nat) : KeepsUntilSettled s (execDueExpiry slot s) := by
  refine keepsUntilSettled_event ?_
  split
  · exact keeps_expireBypass ‹_›
  · exact .refl s

theorem keeps_execReliefLimitExpiry (p : Pos) (frame : Nat) : KeepsUntilSettled s (execReliefLimitExpiry p frame s) := by
  refine keepsUntilSettled_event ?_
  split
  · exact keeps_expireRelief ..
  · exact .refl s

theorem keeps_execOfferTimeout (p : Pos) : KeepsUntilSettled s (execOfferTimeout p s) := by
  refine keepsUntilSettled_event (.when fun due => keeps_endHandover _ _ (.inl ?_))
  simp only [handoverDue, Bool.and_eq_true, beq_iff_eq] at due
  exact due.1

theorem keeps_execReviewTimeout (p : Pos) : KeepsUntilSettled s (execReviewTimeout p s) := by
  refine keepsUntilSettled_event (.when fun due => keeps_endHandover _ _ (.inr ?_))
  simp only [handoverDue, Bool.and_eq_true, beq_iff_eq] at due
  exact due.1

theorem keeps_execHoldTimerExpiry (l : Link) : KeepsUntilSettled s (execHoldTimerExpiry l s) :=
  keepsUntilSettled_event (.when fun _ => keeps_takeDown ..)

end commands

theorem exec_keeps (c : Instr) (hc : c ≠ .coldStart) (s : State) : KeepsUntilSettled s (exec c s) := by
  cases c with
  | coldStart => exact absurd rfl hc
  | oneSecondStep => exact keeps_execOneSecondStep
  | frameDiscarded l bytes => exact keeps_execFrameDiscarded ..
  | unknownKindFrame l kind tag => exact keeps_execUnknownKindFrame ..
  | frameSent l => exact keeps_execFrameSent ..
  | flowHold l value => exact keeps_execFlowHold ..
  | flowGo l => exact keeps_execFlowGo ..
  | defineAlarm h f => exact keeps_execDefineAlarm ..
  | defineOperator h id present badge level => exact keeps_execDefineOperator ..
  | defineGrant h id kind scope binding => exact keeps_execDefineGrant ..
  | definePosition h f => exact keeps_execDefinePosition ..
  | groupMaskMask h action groups => exact keeps_execGroupMaskMask ..
  | groupMaskUnmask h groups => exact keeps_execGroupMaskUnmask ..
  | timeSet h time => exact keeps_execTimeSet ..
  | status h => exact keeps_execStatus ..
  | operatorRead h id => exact keeps_execOperatorRead ..
  | relayReset h => exact keeps_execRelayReset ..
  | commission h hold rates => exact keeps_execCommission ..
  | alarmEventRaise h i event => exact keeps_execAlarmEventRaise ..
  | alarmEventClear h i => exact keeps_execAlarmEventClear ..
  | outOfService h i => exact keeps_execOutOfService ..
  | returnToService h i => exact keeps_execReturnToService ..
  | revokeGrant h slot => exact keeps_execRevokeGrant ..
  | alarmStateActive h i state => exact keeps_execAlarmStateActive ..
  | alarmStateInactive h i => exact keeps_execAlarmStateInactive ..
  | resyncEnd h => exact keeps_execResyncEnd ..
  | restart h => exact keeps_execRestart ..
  | alarmRead h i => exact keeps_execAlarmRead ..
  | listRead h selector position start count => exact keeps_execListRead ..
  | loadQuery h selector => exact keeps_execLoadQuery ..
  | journalRead h start count => exact keeps_execJournalRead ..
  | positionRead h position => exact keeps_execPositionRead ..
  | bypassRead h => exact keeps_execBypassRead ..
  | shelfRead h position => exact keeps_execShelfRead ..
  | itemRead h position start count => exact keeps_execItemRead ..
  | ack h i => exact keeps_execAck ..
  | ackList h count indices => exact keeps_execAckList ..
  | shelve h i duration => exact keeps_execShelve ..
  | unshelve h i => exact keeps_execUnshelve ..
  | latchReset h i => exact keeps_execLatchReset ..
  | silence h => exact keeps_execSilence ..
  | bypassDeclare h area interlock duration => exact keeps_execBypassDeclare ..
  | bypassEnd h area interlock => exact keeps_execBypassEnd ..
  | noteAdd h code length text => exact keeps_execNoteAdd ..
  | signOn h badge => exact keeps_execSignOn ..
  | signOff h => exact keeps_execSignOff ..
  | handoverOffer h incoming => exact keeps_execHandoverOffer ..
  | handoverTake h badge => exact keeps_execHandoverTake ..
  | itemConfirm h count numbers => exact keeps_execItemConfirm ..
  | handoverAccept h => exact keeps_execHandoverAccept ..
  | handoverWithdraw h => exact keeps_execHandoverWithdraw ..
  | handoverCancel h position => exact keeps_execHandoverCancel ..
  | reliefTake h badge => exact keeps_execReliefTake ..
  | reliefReturn h badge => exact keeps_execReliefReturn ..
  | reliefClear h position => exact keeps_execReliefClear ..
  | areaTransfer h area target => exact keeps_execAreaTransfer ..
  | grantTemporary h target kind scope => exact keeps_execGrantTemporary ..
  | grantEnd h slot => exact keeps_execGrantEnd ..
  | operatorUnlock h id => exact keeps_execOperatorUnlock ..
  | decayExpiry p => exact keeps_execDecayExpiry ..
  | reminderExpiry i => exact keeps_execReminderExpiry ..
  | shelfExpiry i => exact keeps_execShelfExpiry ..
  | dueExpiry slot => exact keeps_execDueExpiry ..
  | reliefLimitExpiry p frame => exact keeps_execReliefLimitExpiry ..
  | offerTimeout p => exact keeps_execOfferTimeout ..
  | reviewTimeout p => exact keeps_execReviewTimeout ..
  | holdTimerExpiry l => exact keeps_execHoldTimerExpiry ..

/-! ### The end of a command -/

/-- R168: a link that sends a notice frame in HOLD has used its allowance. -/
theorem LinkState.Calm.sendNotice {k : LinkState} (h : k.Calm) (f : Frame) : (k.sendNotice f).Calm := by
  obtain ⟨room, down, due, joined, allowance⟩ := h
  refine ⟨room, down, due, joined, fun ha => allowance ?_⟩
  simp only [LinkState.sendNotice, Bool.and_eq_true] at ha
  exact ha.1

section startNext
variable {l : Link} {s : State}

theorem startNext_busy (h : (s.links.get l).sending.isSome) : startNext l s = s := by simp [startNext, h]

theorem startNext_reply {f : Frame} {rest : List Frame} (h : (s.links.get l).sending = none)
    (hr : (s.links.get l).replies = f :: rest) :
    startNext l s = modLink l (fun k => { k with sending := some f, replies := rest }) s := by simp [startNext, h, hr]

theorem startNext_stopped (h : (s.links.get l).sending = none) (hr : (s.links.get l).replies = [])
    (hn : (s.links.get l).mayNotify = false) : startNext l s = s := by simp [startNext, h, hr, hn]

theorem startNext_snapshot {f : Frame} {rest : List Frame} (h : (s.links.get l).sending = none)
    (hr : (s.links.get l).replies = []) (hn : (s.links.get l).mayNotify = true) (hs : (s.links.get l).snapshot = f :: rest) :
    startNext l s = modLink l (fun k => ({ k with snapshot := rest } : LinkState).sendNotice f) s := by
  simp [startNext, h, hr, hn, hs]

theorem startNext_due {p : Pos} (h : (s.links.get (.console p)).sending = none) (hr : (s.links.get (.console p)).replies = [])
    (hn : (s.links.get (.console p)).mayNotify = true) (hs : (s.links.get (.console p)).snapshot = [])
    (hd : (s.links.get (.console p)).snapshotDue = true) : startNext (.console p) s =
      modLink (.console p) (fun k => (k.beginSnapshot (snapshotFrames s p).2).sendNotice (snapshotFrames s p).1) s := by
  simp [startNext, h, hr, hn, hs, hd]

theorem startNext_notice {q : Queued} {rest : List Queued} (h : (s.links.get l).sending = none)
    (hr : (s.links.get l).replies = []) (hn : (s.links.get l).mayNotify = true) (hs : (s.links.get l).snapshot = [])
    (hd : l = .plant ∨ (s.links.get l).snapshotDue = false) (hq : (s.links.get l).queue = q :: rest) :
    startNext l s = modLink l (fun k => ({ k with queue := rest } : LinkState).sendNotice (noticeFrame q.notice)) s := by
  rcases hd with rfl | hd
  · simp [startNext, h, hr, hn, hs, hq]
  · cases l <;> simp [startNext, h, hr, hn, hs, hd, hq]

theorem startNext_idle (h : (s.links.get l).sending = none) (hr : (s.links.get l).replies = [])
    (hs : (s.links.get l).snapshot = []) (hd : l = .plant ∨ (s.links.get l).snapshotDue = false)
    (hq : (s.links.get l).queue = []) : startNext l s = s := by
  rcases hd with rfl | hd
  · simp [startNext, h, hr, hs, hq]
  · cases l <;> simp [startNext, h, hr, hs, hd, hq]

/-- R168, R170: which of the cases a link meets when it has the chance to start a frame. -/
theorem startNext_cases (l : Link) (s : State) : let k := s.links.get l
    k.sending.isSome ∨ k.sending = none ∧ ((∃ f rest, k.replies = f :: rest) ∨ k.replies = [] ∧ (k.mayNotify = false ∨
      k.mayNotify = true ∧ ((∃ f rest, k.snapshot = f :: rest) ∨ k.snapshot = [] ∧
        ((∃ p, l = .console p ∧ k.snapshotDue = true) ∨ (l = .plant ∨ k.snapshotDue = false) ∧
          (k.queue = [] ∨ ∃ q rest, k.queue = q :: rest))))) := by
  intro k
  have list {α : Type} (x : List α) : x = [] ∨ ∃ y ys, x = y :: ys := by cases x <;> simp
  have due : (∃ p, l = .console p ∧ k.snapshotDue = true) ∨ l = .plant ∨ k.snapshotDue = false := by
    cases l <;> cases k.snapshotDue <;> simp
  rcases Option.eq_none_or_eq_some k.sending with free | ⟨f, busy⟩
  · refine .inr ⟨free, (list k.replies).symm.imp_right fun hr => ⟨hr, ?_⟩⟩
    refine (Bool.eq_false_or_eq_true k.mayNotify).symm.imp_right fun hn => ⟨hn, ?_⟩
    exact (list k.snapshot).symm.imp_right fun hs => ⟨hs, due.imp_right fun hd => ⟨hd, list k.queue⟩⟩
  · exact .inl (by simp [busy])

theorem startNext_calmAt (h : CalmAt l (s.links.get l)) : CalmAt l ((startNext l s).links.get l) := by
  obtain ⟨calm, plant⟩ := id h
  obtain ⟨room, down, due, joined, allowance⟩ := id calm
  rcases startNext_cases l s with busy | ⟨free, ⟨f, rest, hr⟩ | ⟨hr, hn | ⟨hn, ⟨f, rest, hs⟩ | ⟨hs, ⟨p, rfl, hd⟩ |
    ⟨hd, hq | ⟨q, rest, hq⟩⟩⟩⟩⟩⟩
  · rw [startNext_busy busy]; exact h
  · rw [startNext_reply free hr, modLink_get_self]; exact h
  · rw [startNext_stopped free hr hn]; exact h
  · rw [startNext_snapshot free hr hn hs, modLink_get_self]
    refine ⟨LinkState.Calm.sendNotice (k := { s.links.get l with snapshot := rest }) ?_ f, fun hl => ?_⟩
    · exact ⟨room, down, due, fun _ => joined (by simp [hs]), allowance⟩
    · have none := (plant hl).2.1
      rw [hs] at none
      cases none
  · rw [startNext_due free hr hn hs hd, modLink_get_self]
    refine ⟨LinkState.Calm.sendNotice (k := (s.links.get (.console p)).beginSnapshot _)
      ⟨?_, fun hd => ?_, (nofun), fun _ => ?_, allowance⟩ _, nofun⟩
    · simpa [LinkState.beginSnapshot] using room
    · simpa [LinkState.beginSnapshot] using down hd
    · simpa [LinkState.beginSnapshot, List.countP_map, Function.comp_def] using due hd
  · rw [startNext_idle free hr hs hd hq]; exact h
  · rw [startNext_notice free hr hn hs hd hq, modLink_get_self]
    rw [hq] at room down due
    refine ⟨LinkState.Calm.sendNotice (k := { s.links.get l with queue := rest }) ?_ _, fun hl => ?_⟩
    · refine ⟨(Nat.le_succ _).trans room, fun hd => absurd (down hd) (List.cons_ne_nil _ _), fun hd => ?_, fun ne => absurd hs ne, allowance⟩
      exact (List.sublist_cons_self q rest).countP_le.trans (due hd)
    · obtain ⟨noneDue, none, faults⟩ := plant hl
      exact ⟨noneDue, none, fun x hx => faults x (by rw [hq]; exact List.mem_cons_of_mem _ hx)⟩

end startNext

/-- R170: an abandoned SNAPSHOT leaves at most the one list notice that joined before it. -/
theorem LinkState.Calm.dropStalled {k : LinkState} (h : k.Calm) : k.dropStalled.Calm := by
  unfold LinkState.dropStalled
  split
  · rename_i stalled
    obtain ⟨room, down, due, joined, allowance⟩ := h
    have running : k.snapshot ≠ [] := by
      simp only [Bool.and_eq_true, Bool.not_eq_true', List.isEmpty_eq_false_iff] at stalled
      exact stalled.1
    have left : ((k.queue.filter fun q => !(q.notice.isList && q.since)).countP fun q => q.notice.isList) ≤
        k.queue.countP fun q => q.notice.isList && !q.since := by
      rw [List.countP_filter]
      exact (List.countP_congr fun q _ => by cases q.notice.isList <;> cases q.since <;> simp).le
    refine ⟨(List.length_filter_le ..).trans room, fun hd => ?_, fun _ => left.trans (joined running), nofun, allowance⟩
    simp [LinkState.abandon, down hd]
  · exact h

theorem LinkState.rest_calmAt {l : Link} {k : LinkState} {n : Nat} (h : CalmAt l k) : CalmAt l (k.rest n) := by
  obtain ⟨calm, plant⟩ := h
  refine ⟨LinkState.Calm.dropStalled (k := k.judgeHold n) calm, fun hl => ?_⟩
  obtain ⟨due, none, faults⟩ := plant hl
  have kept : (k.judgeHold n).dropStalled = k.judgeHold n := by
    unfold LinkState.dropStalled
    rw [if_neg]
    simp [LinkState.judgeHold, none]
  rw [LinkState.rest, kept]
  exact ⟨due, none, faults⟩

/-- R171: at the end of a command every link is calm and its hold timer is judged. -/
theorem linkInv_settle {s : State} (h : LinksCalm s) : LinkInv (settle s) := by
  refine (linkInv_iff _).2 ⟨fun l => ?_, fun l => ?_⟩ <;> obtain ⟨u, -, same, settled⟩ := settle_get s l <;>
    rw [settled, settleLink, modLink_get_self]
  · exact LinkState.rest_calmAt (startNext_calmAt (by rw [same]; exact h l))
  · exact LinkState.rest_holdTimer ..

/-- The end of a command keeps the invariants of the blocks but the links', which it restores. -/
theorem settle_agrees (s : State) (p : Part) (h : p ≠ .links) :
    Agrees s (settle s) p := (kept_settle s).agrees p (by simpa using h)

/-! ### A step -/

/-- An invariant that does not read the queue of commands, that holds at reset, and that every command keeps, is kept by
every step. -/
theorem step_induction {P : State → Prop} (pending : ∀ s cs, P s → P { s with pending := cs })
    (cold : ∀ s : State, P { State.reset with free := s.free, pending := s.pending })
    (kept : ∀ c s t, c ≠ .coldStart → P s → exec c s = .next t → P t) {s t : State} (h : P s) (hs : step s = .next t) : P t := by
  unfold step at hs
  split at hs
  · cases hs
    exact h
  · rename_i c rest _
    by_cases hc : c = .coldStart
    · subst hc
      cases hs
      exact cold _
    · exact kept c _ t hc (pending s rest h) hs

/-- A command, but for cold start, does work that keeps the invariants of the blocks, and ends. -/
theorem exec_settles {c : Instr} {s t : State} (hc : c ≠ .coldStart) (ht : exec c s = .next t) :
    ∃ u, Keeps s u ∧ t = settle u := by
  obtain ⟨u, hu, keeps⟩ := exec_keeps c hc s
  rw [ht, Host.Outcome.next.injEq] at hu
  exact ⟨u, keeps, hu⟩

theorem loadInv_reset (s : State) : LoadInv { State.reset with free := s.free, pending := s.pending } := fun p => by
  simp only [State.reset, PerPos.get_all]
  refine ⟨?_, ?_, ?_, ?_, ?_, ?_, ?_, ?_, ?_⟩ <;> simp [PosLoad.cold]

theorem reset_links_get (l : Link) : State.reset.links.get l = LinkState.cold := by
  cases l
  · exact PerPos.get_all ..
  · rfl

theorem linkInv_reset (s : State) : LinkInv { State.reset with free := s.free, pending := s.pending } := by
  refine ⟨fun l => ?_, ?_⟩
  · rw [show ({ State.reset with free := s.free, pending := s.pending } : State).links.get l = _ from reset_links_get l]
    refine ⟨Nat.zero_le _, ?_, ?_, ?_, ?_, ?_⟩ <;> simp [LinkState.cold, LinkState.holdRuns]
  · exact ⟨rfl, rfl, nofun⟩

theorem journalInv_reset (s : State) : JournalInv { State.reset with free := s.free, pending := s.pending } :=
  ⟨Nat.zero_le _, nofun⟩

theorem capacityInv_reset (s : State) : CapacityInv { State.reset with free := s.free, pending := s.pending } := by
  refine (capacityInv_iff _).2 ⟨fun p => ?_, Nat.zero_le _, fun p => ?_, rfl, rfl, rfl, rfl, rfl, nofun, nofun⟩
  · simp only [State.reset, PerPos.get_all]
    exact ⟨Nat.zero_le _, Nat.zero_le _, Nat.zero_le _⟩
  · simp only [State.reset, PerPos.get_all]
    exact ⟨Nat.zero_le _, Nat.zero_le _, ItemsFit.nil⟩

theorem deskInv_reset (s : State) : DeskInv { State.reset with free := s.free, pending := s.pending } := fun p => by
  simp only [State.reset, PerPos.get_all]
  refine ⟨?_, ?_, ?_, ?_, ?_⟩ <;> simp [PosContext.cold]

theorem alarmInv_reset (s : State) : AlarmInv { State.reset with free := s.free, pending := s.pending } :=
  fun e he => by cases he

/-- Settles O6, by the lemma for each shared operation and one case for each command. -/
theorem loadInvIsKept : Obligations.LoadInvIsKept := by
  refine fun s t h hs => step_induction (P := LoadInv) (fun _ _ h => h) loadInv_reset (fun c s t hc h ht => ?_) h hs
  obtain ⟨u, keeps, rfl⟩ := exec_settles hc ht
  have loads : (settle u).loads = u.loads := settle_agrees u .loads nofun
  rw [LoadInv, loads]
  exact keeps.load h

/-- Settles O7: every command keeps the links calm, and its end judges the hold timers. -/
theorem linkInvIsKept : Obligations.LinkInvIsKept := by
  refine fun s t h hs => step_induction (P := LinkInv) (fun _ _ h => h) linkInv_reset (fun c s t hc h ht => ?_) h hs
  obtain ⟨u, keeps, rfl⟩ := exec_settles hc ht
  exact linkInv_settle (keeps.calm ((linkInv_iff s).1 h).1)

/-- Settles O8, by the lemma for each shared operation and one case for each command. -/
theorem journalInvIsKept : Obligations.JournalInvIsKept := by
  refine fun s t h hs => step_induction (P := JournalInv) (fun _ _ h => h) journalInv_reset (fun c s t hc h ht => ?_) h hs
  obtain ⟨u, keeps, rfl⟩ := exec_settles hc ht
  obtain ⟨journal, seq⟩ : (settle u).journal = u.journal ∧ (settle u).nextSeq = u.nextSeq := settle_agrees u .journal nofun
  simp only [JournalInv, journal, seq]
  exact keeps.journal h

theorem capacityInv_settle {u : State} (h : CapacityInv u) : CapacityInv (settle u) := by
  have same (p : Part) (hp : p ≠ .links) := settle_agrees u p hp
  have lists : (settle u).lists = u.lists := same .lists nofun
  have escalation : (settle u).escalation = u.escalation := same .escalation nofun
  have positions : (settle u).positions = u.positions := same .positions nofun
  have areas : (settle u).areas = u.areas := same .areas nofun
  have alarms : (settle u).alarms = u.alarms := same .alarms nofun
  have operators : (settle u).operators = u.operators := same .operators nofun
  have grants : (settle u).grants = u.grants := same .grants nofun
  have bypasses : (settle u).bypasses = u.bypasses := same .bypasses nofun
  simpa only [CapacityInv, lists, escalation, positions, areas, alarms, operators, grants, bypasses] using h

/-- Settles O9, by the lemma for each shared operation and one case for each command. -/
theorem capacityInvIsKept : Obligations.CapacityInvIsKept := by
  refine fun s t h hs => step_induction (P := CapacityInv) (fun _ _ h => h) capacityInv_reset (fun c s t hc h ht => ?_) h hs
  obtain ⟨u, keeps, rfl⟩ := exec_settles hc ht
  exact capacityInv_settle (keeps.capacity h)

/-- R90, R121: every step keeps the position contexts in their states. -/
theorem deskInv_step {s t : State} (h : DeskInv s) (hs : step s = .next t) : DeskInv t := by
  refine step_induction (P := DeskInv) (fun _ _ h => h) deskInv_reset (fun c s t hc h ht => ?_) h hs
  obtain ⟨u, keeps, rfl⟩ := exec_settles hc ht
  have positions : (settle u).positions = u.positions := settle_agrees u .positions nofun
  rw [DeskInv, positions]
  exact keeps.desk h

/-- R1 to R7: every step keeps the alarm points in their ranges. -/
theorem alarmInv_step {s t : State} (h : AlarmInv s) (hs : step s = .next t) : AlarmInv t := by
  refine step_induction (P := AlarmInv) (fun _ _ h => h) alarmInv_reset (fun c s t hc h ht => ?_) h hs
  obtain ⟨u, keeps, rfl⟩ := exec_settles hc ht
  have alarms : (settle u).alarms = u.alarms := settle_agrees u .alarms nofun
  rw [AlarmInv, alarms]
  exact keeps.alarm h

end Sys2Proof.Machine
end

section
/-! PROOFS. What each command does to the parts and to the links: the parts it changes are among those of its rules, a request
is answered once, and a refused request changes nothing but what R67 and R85 state. Settles
`OnlyTheNamedCommandsChangeAPart`, `EveryRequestIsAnsweredOnce` and `RefusedRequestsChangeNothingElse`. -/

namespace Sys2Proof.Machine

/-! ### Work that sends no reply -/

/-- Work that changes only the parts `ps` and puts no frame on a link. -/
structure Still (ps : List Part) (s t : State) : Prop where
  kept : Kept ps s t
  outgoing : ∀ l, outgoing t l = outgoing s l
  snapshot : ∀ l, ∀ f ∈ (t.links.get l).snapshot, f ∈ (s.links.get l).snapshot

theorem Quiet.still {ps : List Part} {s t : State} (h : Quiet ps s t) : Still ps s t :=
  ⟨h.kept, h.outgoing, fun l f hf => by rwa [h.snapshot l] at hf⟩

theorem Still.mono {ps qs : List Part} {s t : State} (h : Still ps s t) (hs : ∀ p ∈ ps, p ∈ qs) : Still qs s t :=
  ⟨h.kept.mono hs, h.outgoing, h.snapshot⟩

theorem Still.trans {ps : List Part} {s t u : State} (h : Still ps s t) (k : Still ps t u) : Still ps s u :=
  ⟨h.kept.trans k.kept, fun l => (k.outgoing l).trans (h.outgoing l), fun l f hf => h.snapshot l f (k.snapshot l f hf)⟩

theorem Still.refl (ps : List Part) (s : State) : Still ps s s := (Quiet.refl ps s).still

theorem Still.when {ps : List Part} {t u : State} {c : Prop} [Decidable c] (k : Still ps t u) :
    Still ps t (if c then u else t) := by
  split
  · exact k
  · exact .refl ..

/-- A link changed in what it does not send. -/
theorem still_modLink {l : Link} {f : LinkState → LinkState} {s : State}
    (sends : (f (s.links.get l)).sending = (s.links.get l).sending ∧ (f (s.links.get l)).replies = (s.links.get l).replies)
    (snapshot : ∀ x ∈ (f (s.links.get l)).snapshot, x ∈ (s.links.get l).snapshot) : Still [.links] s (modLink l f s) := by
  refine ⟨kept_modLink .., fun m => ?_, fun m x hx => ?_⟩
  · simp only [Machine.outgoing, modLink_get]
    split
    · subst m; rw [sends.1, sends.2]
    · rfl
  · rw [modLink_get] at hx
    split at hx
    · subst m; exact snapshot x hx
    · exact hx

/-- Every link changed in what it does not send. -/
theorem still_mapLinks {f : Link → LinkState → LinkState} {s : State}
    (h : ∀ l k, (f l k).sending = k.sending ∧ (f l k).replies = k.replies ∧ ∀ x ∈ (f l k).snapshot, x ∈ k.snapshot) :
    Still [.links] s { s with links := s.links.map f } := by
  refine ⟨⟨fun p hp => by cases p <;> simp_all [Agrees]⟩, fun l => ?_, fun l x hx => ?_⟩
  · simp only [Machine.outgoing, PerLink.get_map, (h l _).1, (h l _).2.1]
  · rw [PerLink.get_map] at hx
    exact (h l _).2.2 x hx

/-- Work on parts of which the links are none. -/
theorem Still.of {ps : List Part} {s t : State} (h : Kept ps s t) (hl : Part.links ∉ ps) : Still ps s t :=
  (Quiet.of h (h.agrees .links hl)).still

/-! ### The body of a request -/

/-- R67: the record of an operator but for its failure count and lock. -/
def Operator.unchecked (r : Operator) : Operator := { r with failures := 0, locked := false }

/-- R84: what a refusal may have changed: the failure count and the lock of one operator. -/
def OnlyChecked (o : Nat) (s t : State) : Prop :=
  t = s ∨ ∃ f : Operator → Operator, (∀ r, (f r).unchecked = r.unchecked) ∧ t = modOperator o f s

/-- What the body of a request leaves and answers. -/
structure Work (ps : List Part) (o : Nat) (s : State) (r : State × Answer) : Prop where
  still : Still ps s r.1
  answered : r.2 ≠ .each []
  refused : ∀ c v, r.2 = .refused c v → OnlyChecked o s r.1

namespace Work
variable {ps : List Part} {o : Nat} {s : State}

theorem done {t : State} {es : List (List Byte)} {g : Bool} (h : Quiet ps s t) : Work ps o s (t, .done es g) :=
  ⟨h.still, nofun, nofun⟩

theorem still_done {t : State} {es : List (List Byte)} {g : Bool} (h : Still ps s t) : Work ps o s (t, .done es g) :=
  ⟨h, nofun, nofun⟩

theorem refuse (c : Cause) (v : Nat) : Work ps o s (s, .refused c v) := ⟨.refl .., nofun, fun _ _ _ => .inl rfl⟩

theorem judged {cs : List Check} {act : State → State × Answer} (h : firstRefusal cs = none → Work ps o s (act s)) :
    Work ps o s (judged cs s act) := by
  unfold Machine.judged
  split
  · exact refuse ..
  · exact h ‹_›

theorem console {h : Header} {body : Pos → State → State × Answer} (hb : ∀ p, Work ps o s (body p s)) :
    Work ps o s (atConsole h body s) := by
  unfold atConsole
  split
  · exact hb _
  · exact refuse ..

end Work

/-- R67: a badge check changes at most the failure count and the lock of its operator. -/
theorem badgeCheck_onlyChecked (o : Nat) (b : Word) (s : State) : OnlyChecked o s (badgeCheck o b s).1 := by
  unfold badgeCheck
  split
  · exact .inl rfl
  · split
    · exact .inl rfl
    · have checked {f : Operator → Operator} (h : ∀ r, (f r).unchecked = r.unchecked) : OnlyChecked o s (modOperator o f s) :=
        .inr ⟨f, h, rfl⟩
      split
      · exact checked fun _ => rfl
      · split <;> exact checked fun _ => rfl

theorem work_badgeRequest {ps : List Part} {before : List Check} {o : Nat} {badge : Word} {after : State → List Check}
    {act : State → State × Answer} {s : State} (h : ∀ t, Quiet (.operators :: ps) t (act t).1)
    (hd : ∀ t, ∃ es g, (act t).2 = .done es g) : Work (.operators :: ps) o s (badgeRequest before o badge after act s) := by
  unfold badgeRequest
  refine .judged fun _ => ?_
  have quiet := (quiet_badgeCheck s o badge).mono (qs := .operators :: ps) (by simp)
  have only := badgeCheck_onlyChecked o badge s
  split
  · rename_i checked
    rw [checked] at quiet only
    exact ⟨quiet.still, nofun, fun _ _ _ => only⟩
  · rename_i t checked
    rw [checked] at quiet only
    unfold judged
    split
    · exact ⟨quiet.still, nofun, fun _ _ _ => only⟩
    · obtain ⟨es, g, done⟩ := hd t
      exact ⟨(quiet.trans (h t)).still, by simp [done], by simp [done]⟩

/-! ### Requests and events -/

/-- A request served with a body that changes only the parts `ps`, answers, and undoes nothing it refused. -/
def RequestRuns (ps : List Part) (k : Kind) (h : Header) (s : State) (r : Host.Outcome State Fault Refusal) : Prop :=
  ∃ i body, r = serve k h i body s ∧ ∀ u, Work ps h.op u (body u)

/-- An event that changes only the parts `ps` and sends no reply. -/
def EventRuns (ps : List Part) (s : State) (r : Host.Outcome State Fault Refusal) : Prop :=
  ∃ act, r = event act s ∧ Still ps s (act s)

theorem requestRuns {ps : List Part} {k : Kind} {h : Header} {i : Option Nat} {body : State → State × Answer} {s : State}
    (hb : ∀ u, Work ps h.op u (body u)) : RequestRuns ps k h s (serve k h i body s) := ⟨i, body, rfl, hb⟩

theorem consoleRuns {ps : List Part} {k : Kind} {h : Header} {i : Option Nat} {body : Pos → State → State × Answer} {s : State}
    (hb : ∀ p u, Work ps h.op u (body p u)) : RequestRuns ps k h s (serve k h i (atConsole h body) s) :=
  requestRuns fun _ => .console fun _ => hb ..

theorem eventRuns {ps : List Part} {act : State → State} {s : State} (ha : Still ps s (act s)) :
    EventRuns ps s (event act s) :=
  ⟨act, rfl, ha⟩

theorem work_judged_liu {ps : List Part} {o : Nat} {k : Kind} {h : Header} {body : State → State × Answer}
    (hb : ∀ u, Work ps o u (body u)) (u : State) : Work ps o u (judged (liuChecks k h u) u body) := .judged fun _ => hb u

/-- R165: a request is answered once, on its own link. -/
theorem serve_replied {ps : List Part} {k : Kind} {h : Header} {i : Option Nat} {body : State → State × Answer} {s : State}
    (hb : ∀ u, Work ps h.op u (body u)) : ∃ t, serve k h i body s = .next t ∧ Kept (.links :: .journal :: ps) s t ∧
      Replied k h (answerOf k h body s) s t ∧ answerFrames k h.tag (answerOf k h body s) ≠ [] := by
  refine ⟨_, rfl, kept_serve (fun u => (hb u).still.kept) rfl, ?_⟩
  have work := work_judged_liu (k := k) (h := h) hb (takeFrame h.link s)
  simp only [answerOf]
  generalize judged (liuChecks k h (takeFrame h.link s)) (takeFrame h.link s) body = r at work
  have quiet := quiet_journalRefusal r.1 h k i r.2
  generalize journalRefusal h k i r.2 r.1 = v at quiet
  have sent (l : Link) : outgoing v l = outgoing s l := by
    rw [quiet.outgoing, work.still.outgoing, takeFrame_outgoing]
  have held (l : Link) : ∀ f ∈ (v.links.get l).snapshot, f ∈ (s.links.get l).snapshot := fun f hf => by
    rw [quiet.snapshot] at hf
    exact (takeFrame_snapshot h.link l s) ▸ work.still.snapshot l f hf
  have answered := answerFrames_ne_nil k h.tag r.2 work.answered
  refine ⟨⟨?_, fun l hl => ?_⟩, answered⟩
  · rw [settle_outgoing] <;> rw [reply_outgoing, if_pos rfl, sent]
    simp [answered]
  · have starts := settle_sends (reply h k r.2 v) l
    simp only [OnlyNoticeStarts, reply_outgoing, if_neg hl, sent, reply_snapshot] at starts
    rcases starts with same | ⟨free, f, hf, one⟩
    · exact .inl same
    · exact .inr ⟨free, f, hf.imp_right (held l f), one⟩

theorem RequestRuns.replied {ps : List Part} {k : Kind} {h : Header} {s : State} {r : Host.Outcome State Fault Refusal}
    (hr : RequestRuns ps k h s r) : ∃ t a, r = .next t ∧ Kept (.links :: .journal :: ps) s t ∧ Replied k h a s t ∧
      answerFrames k h.tag a ≠ [] := by
  obtain ⟨i, body, rfl, hb⟩ := hr
  obtain ⟨t, ht, replied⟩ := serve_replied (k := k) (i := i) (s := s) hb
  exact ⟨t, _, ht, replied⟩

theorem EventRuns.kept {ps : List Part} {s : State} {r : Host.Outcome State Fault Refusal} (hr : EventRuns ps s r) :
    ∃ t, r = .next t ∧ Kept (.links :: ps) s t := by
  obtain ⟨act, rfl, still⟩ := hr
  exact ⟨_, rfl, kept_event still.kept rfl⟩

theorem EventRuns.noReply {ps : List Part} {s t : State} {r : Host.Outcome State Fault Refusal} (hr : EventRuns ps s r)
    (ht : r = .next t) : NoReply s t := by
  obtain ⟨act, rfl, still⟩ := hr
  cases ht
  intro l
  have starts := settle_sends (act s) l
  simp only [OnlyNoticeStarts, still.outgoing] at starts
  rcases starts with same | ⟨free, f, hf, one⟩
  · exact .inl same
  · exact .inr ⟨free, f, hf.imp_right (still.snapshot l f), one⟩

/-! ### The work of the commands -/

section work
variable (s : State)

theorem kept_areas (areas : List Pos) : Kept [.areas] s { s with areas := areas } :=
  ⟨fun p hp => by cases p <;> simp_all [Agrees]⟩

theorem quiet_areas (areas : List Pos) : Quiet [.areas] s { s with areas := areas } := .of (kept_areas s areas) rfl

theorem quiet_bypasses (t : Table Bypass) : Quiet [.bypasses] s { s with bypasses := t } :=
  .of ⟨fun p hp => by cases p <;> simp_all [Agrees]⟩ rfl

theorem quiet_mask (m : Word) : Quiet [.mask] s { s with mask := m } := .of (kept_mask m s) rfl

theorem quiet_foldl {α : Type} {ps : List Part} {f : State → α → State} (h : ∀ s a, Quiet ps s (f s a)) (l : List α) :
    Quiet ps s (l.foldl f s) := by
  induction l generalizing s with
  | nil => exact .refl ..
  | cons a l ih => exact (h s a).trans (ih _)

theorem quiet_foldl_fst {α β : Type} {ps : List Part} {f : State × β → α → State × β} (h : ∀ r a, Quiet ps r.1 (f r a).1)
    (r : State × β) (l : List α) : Quiet ps r.1 (l.foldl f r).1 := by
  induction l generalizing r with
  | nil => exact .refl ..
  | cons a l ih => exact (h r a).trans (ih _)

theorem quiet_defineOperator (o present : Nat) (b : Word) (level : Nat) :
    Quiet [.operators, .grants, .journal] s (defineOperator o present b level s) := by
  unfold defineOperator
  refine .ite (fun _ => (quiet_operators ..).mono (by simp)) fun _ => .when ?_
  exact ((quiet_operators s _).mono (by simp)).trans ((quiet_endGrants ..).mono (by simp))

theorem quiet_configure (p : Pos) (f : PositionFields) :
    Quiet [.alarms, .lists, .links, .loads, .journal, .positions] s (configure p f s) :=
  .trans (.trans ((quiet_modPos ..).mono (by simp)) ((quiet_modLoad ..).mono (by simp))) (quiet_evaluateFlood ..)

theorem quiet_suppressionEntry (a : Nat) (c : Word) : Quiet [.journal] s (suppressionEntry a c s) := .unless (quiet_append ..)

theorem quiet_maskAlarm (changed : Word) (r : State × Nat) (i : Nat) :
    Quiet [.alarms, .lists, .escalation, .positions, .links, .free] r.1 (maskAlarm changed r i).1 := by
  simp only [maskAlarm]
  split
  · split
    · exact (quiet_removeReport ..).mono (by simp)
    · exact .trans (.trans ((quiet_modDyn ..).mono (by simp)) ((quiet_removeReport ..).mono (by simp)))
        ((quiet_lifecycleReport ..).mono (by simp))
    · exact .trans ((quiet_modDyn ..).mono (by simp)) ((quiet_lifecycleReport ..).mono (by simp))
    · exact .refl ..
  · exact .refl ..

theorem quiet_unmaskAlarm (changed : Word) (r : State × Nat) (i : Nat) :
    Quiet [.alarms, .lists, .links, .loads, .journal, .positions, .free] r.1 (unmaskAlarm changed r i).1 := by
  simp only [unmaskAlarm]
  split
  · exact quiet_placeReport ..
  · exact .refl ..

/-- A RERAISE report without weight leaves the loads and the journal. -/
theorem quiet_reraiseReport_unweighted (i : Nat) : Quiet [.lists, .links] s (reraiseReport i false s) := by
  simp only [reraiseReport, Bool.false_eq_true, if_false]
  refine .when (.trans (.trans (.trans ((quiet_modLists ..).mono (by simp)) ((quiet_setReminder ..).mono (by simp)))
    ((quiet_updateNotice ..).mono (by simp))) (quiet_judgeHorn ..))

/-- R180: a RAISE without weight and without an entry leaves the loads and the journal. -/
theorem quiet_raiseAlarm_unweighted (i : Nat) :
    Quiet [.alarms, .lists, .positions, .links, .free] s (raiseAlarm i false s) := by
  simp only [raiseAlarm, Bool.false_eq_true, if_false]
  refine .trans ((quiet_modDyn ..).mono (by simp)) (.unless ?_)
  refine .trans (.trans ((quiet_modDyn ..).mono (by simp)) (.unless ?_)) ((quiet_lifecycleReport ..).mono (by simp))
  exact .ite (fun _ => (quiet_reraiseReport_unweighted ..).mono (by simp)) fun _ =>
    (quiet_placeReport_unweighted ..).mono (by simp)

/-- R180: a CLEAR without an entry leaves the journal. -/
theorem quiet_clearAlarm_silent (i : Nat) : Quiet [.alarms, .lists, .positions, .links, .free] s (clearAlarm i false s) := by
  simp only [clearAlarm, Bool.false_eq_true, if_false]
  refine .trans ((quiet_modDyn ..).mono (by simp)) (.unless ?_)
  exact .trans (.trans ((quiet_modDyn ..).mono (by simp)) (.when ((quiet_returnReport ..).mono (by simp))))
    ((quiet_lifecycleReport ..).mono (by simp))

theorem quiet_setService (i : Nat) (b : Bool) : Quiet [.alarms] s (setService i b s) := quiet_modAlarm ..

theorem quiet_takeOutOfService (i : Nat) :
    Quiet [.alarms, .lists, .escalation, .positions, .journal, .links, .free] s (takeOutOfService i s) := by
  simp only [takeOutOfService]
  refine .trans (.trans (.trans (.trans (.trans ((quiet_modDyn ..).mono (by simp)) ((quiet_setService ..).mono (by simp)))
    (.when ?_)) ((quiet_append ..).mono (by simp))) (.when ((quiet_removeReport ..).mono (by simp))))
    ((quiet_lifecycleReport ..).mono (by simp))
  exact .trans ((quiet_leaveShelf ..).mono (by simp)) ((quiet_shelfEndedReport ..).mono (by simp))

theorem quiet_returnAlarm (i : Nat) :
    Quiet [.alarms, .lists, .loads, .positions, .journal, .links, .free] s (returnAlarm i s) := by
  simp only [returnAlarm]
  exact .trans (.trans (.trans (.trans ((quiet_modDyn ..).mono (by simp)) ((quiet_setService ..).mono (by simp)))
    ((quiet_append ..).mono (by simp))) (.when ((quiet_placeReport ..).mono (by simp))))
    ((quiet_lifecycleReport ..).mono (by simp))

theorem quiet_ackOne (o : Nat) (p : Pos) (r : State × List (List Byte)) (i : Nat) :
    Quiet [.alarms, .lists, .escalation, .positions, .journal, .links, .free] r.1 (ackOne o p r i).1 := by
  simp only [ackOne]
  split
  · split
    · exact (quiet_accessRefused ..).mono (by simp)
    · split
      · exact .refl ..
      · exact quiet_acknowledge ..
  · exact .refl ..

theorem quiet_renewShelf (p : Pos) (o i e : Nat) : Quiet [.lists] s (renewShelf p o i e s) :=
  .when ((quiet_modLists ..).trans (quiet_modLists ..))

theorem quiet_shelve (o i d : Nat) :
    Quiet [.alarms, .lists, .escalation, .positions, .journal, .links] s (shelve o i d s).1 := by
  simp only [shelve]
  split
  · exact .trans (.trans ((quiet_renewShelf ..).mono (by simp)) ((quiet_append ..).mono (by simp)))
      ((quiet_shelvedReport ..).mono (by simp))
  · exact .trans (.trans (.trans (.trans ((quiet_modDyn ..).mono (by simp)) ((quiet_modLists ..).mono (by simp)))
      ((quiet_append ..).mono (by simp))) (.when ((quiet_removeReport ..).mono (by simp))))
      ((quiet_shelvedReport ..).mono (by simp))

theorem quiet_unshelveAlarm (o i : Nat) :
    Quiet [.alarms, .lists, .links, .loads, .journal, .positions, .free] s (unshelveAlarm o i s) :=
  .trans (.trans ((quiet_leaveShelf ..).mono (by simp)) ((quiet_append ..).mono (by simp))) (quiet_endShelve ..)

theorem quiet_expireShelf (i : Nat) :
    Quiet [.alarms, .lists, .links, .loads, .journal, .positions, .free] s (expireShelf i s) :=
  .trans (.trans ((quiet_leaveShelf ..).mono (by simp)) ((quiet_append ..).mono (by simp))) (quiet_endShelve ..)

theorem quiet_resetLatch (o : Nat) (p : Pos) (i : Nat) :
    Quiet [.alarms, .positions, .journal, .links, .free] s (resetLatch o p i s) :=
  .trans (.trans ((quiet_modDyn ..).mono (by simp)) ((quiet_append ..).mono (by simp)))
    ((quiet_lifecycleReport ..).mono (by simp))

theorem quiet_silenceList (p : Pos) : Quiet [.lists, .links] s (silenceList p s) :=
  ((quiet_modLists ..).mono (by simp)).trans (quiet_judgeHorn ..)

theorem quiet_expireReminder (i : Nat) :
    Quiet [.alarms, .lists, .escalation, .loads, .positions, .journal, .links] s (expireReminder i s) := by
  simp only [expireReminder]
  exact .trans (.trans (.trans (.trans ((quiet_modDyn ..).mono (by simp)) ((quiet_notify ..).mono (by simp)))
    (.when ((quiet_escalate ..).mono (by simp)))) ((quiet_setReminder ..).mono (by simp))) ((quiet_addLoad ..).mono (by simp))

theorem quiet_decay (p : Pos) : Quiet [.alarms, .lists, .links, .loads, .journal, .positions] s (decay p s) :=
  .trans ((quiet_modLoad ..).mono (by simp)) (.unless (quiet_evaluateFlood ..))

theorem quiet_signOn (o : Nat) (p : Pos) : Quiet [.operators, .positions, .journal] s (signOn o p s) :=
  .trans (.trans ((quiet_modPos ..).mono (by simp)) ((quiet_setEngagement ..).mono (by simp))) ((quiet_append ..).mono (by simp))

theorem quiet_signOff (p : Pos) : Quiet [.operators, .grants, .positions, .journal] s (signOff p s) :=
  .trans (.trans ((quiet_modPos ..).mono (by simp)) ((quiet_release ..).mono (by simp))) ((quiet_append ..).mono (by simp))

theorem quiet_moveOut (source : Pos) (e : ListEntry) : Quiet [.alarms, .lists, .links] s (moveOut source s e) :=
  .ite (fun _ => .trans ((quiet_leaveAnn ..).mono (by simp)) ((quiet_notify ..).mono (by simp))) fun _ =>
    .trans ((quiet_leaveDeferred ..).mono (by simp)) ((quiet_setOverflow ..).mono (by simp))

theorem quiet_moveLists (source target : Pos) (moving : List ListEntry) :
    Quiet [.alarms, .lists, .links] s (moveLists source target moving s) := by
  simp only [moveLists]
  have out := (quiet_foldl s (fun s e => quiet_moveOut s source e) moving).trans (quiet_restoreLists _ source)
  have placed (u : State) := quiet_foldl (f := moveIn target) u (fun s e => quiet_placeOnLists s target e.alarm e.time) moving
  exact out.trans ((placed _).trans ((quiet_judgeHorn ..).mono (by simp)))

theorem quiet_moveShelf (a : Nat) (source target : Pos) : Quiet [.lists] s (moveShelf a source target s) := by
  simp only [moveShelf]
  exact (quiet_modLists ..).trans (quiet_modLists ..)

theorem quiet_transferArea (a : Nat) (source target : Pos) (o : Nat) :
    Quiet [.areas, .alarms, .lists, .journal, .links] s (transferArea a source target o s) := by
  simp only [transferArea]
  exact .trans (.trans (.trans ((quiet_areas ..).mono (by simp)) ((quiet_append ..).mono (by simp)))
    ((quiet_moveShelf ..).mono (by simp))) ((quiet_moveLists ..).mono (by simp))

theorem quiet_declareBypass (o a k d slot : Nat) :
    Quiet [.bypasses, .positions, .journal, .links] s (declareBypass o a k d slot s) := by
  simp only [declareBypass]
  exact .trans (.trans ((quiet_bypasses ..).mono (by simp)) ((quiet_append ..).mono (by simp)))
    (.when ((quiet_appendItem ..).mono (by simp)))

theorem quiet_endBypass (o slot : Nat) (b : Bypass) :
    Quiet [.bypasses, .positions, .journal, .links] s (endBypass o slot b s) :=
  .trans (.trans ((quiet_bypasses ..).mono (by simp)) ((quiet_append ..).mono (by simp)))
    (.when ((quiet_resolveItem ..).mono (by simp)))

theorem quiet_expireBypass (slot : Nat) (b : Bypass) : Quiet [.bypasses, .journal, .links] s (expireBypass slot b s) :=
  .trans (.trans ((quiet_bypasses ..).mono (by simp)) ((quiet_append ..).mono (by simp))) ((quiet_notifyBoth ..).mono (by simp))

theorem quiet_addNote (o : Nat) (p : Pos) (n : Note) : Quiet [.positions, .journal, .links] s (addNote o p n s) :=
  .trans (.trans ((quiet_modPos ..).mono (by simp)) ((quiet_append ..).mono (by simp)))
    (.when ((quiet_appendItem ..).mono (by simp)))

theorem quiet_offer (p : Pos) (o : Nat) : Quiet [.positions, .journal, .links] s (offer p o s) :=
  .trans (.trans ((quiet_modPos ..).mono (by simp)) ((quiet_append ..).mono (by simp)))
    ((quiet_handoverNotices ..).mono (by simp))

theorem quiet_take (o : Nat) (p : Pos) : Quiet [.operators, .positions, .journal, .links] s (take o p s) :=
  .trans (.trans (.trans (.trans ((quiet_modPos ..).mono (by simp)) ((quiet_setEngagement ..).mono (by simp)))
    ((quiet_modPos ..).mono (by simp))) ((quiet_append ..).mono (by simp))) ((quiet_handoverNotices ..).mono (by simp))

theorem quiet_accept (o : Nat) (p : Pos) : Quiet [.operators, .grants, .positions, .journal, .links] s (accept o p s) :=
  .trans (.trans (.trans (.trans (.trans ((quiet_modPos ..).mono (by simp)) ((quiet_setEngagement ..).mono (by simp)))
    ((quiet_release ..).mono (by simp))) ((quiet_modPos ..).mono (by simp))) ((quiet_append ..).mono (by simp)))
    ((quiet_handoverNotices ..).mono (by simp))

/-- R125: an offer that ends releases nobody. -/
theorem quiet_endHandover_offered {p : Pos} {r : EndReason} {e : Option Nat} (h : (s.positions.get p).state = .offered) :
    Quiet [.positions, .journal, .links] s (endHandover p r e s) := by
  simp only [endHandover, h, reduceCtorEq, if_false]
  exact .trans (.trans ((quiet_modPos ..).mono (by simp)) ((quiet_append ..).mono (by simp)))
    ((quiet_handoverNotices ..).mono (by simp))

theorem quiet_dropHandover (p : Pos) : Quiet [.operators, .grants, .positions, .journal] s (dropHandover s p) :=
  .when (.trans ((quiet_modPos ..).mono (by simp)) (.when
    (.trans ((quiet_release ..).mono (by simp)) ((quiet_modPos ..).mono (by simp)))))

theorem quiet_takeRelief (o : Nat) (p : Pos) : Quiet [.operators, .positions, .journal] s (takeRelief o p s) :=
  .trans (.trans (.trans (.trans ((quiet_modPos ..).mono (by simp)) ((quiet_setEngagement ..).mono (by simp)))
    ((quiet_modPos ..).mono (by simp))) ((quiet_setEngagement ..).mono (by simp))) ((quiet_append ..).mono (by simp))

theorem quiet_returnRelease (p : Pos) (d : Nat) (o : Nat) : Quiet [.operators, .grants, .journal] s (returnRelease p d s o) :=
  (quiet_release ..).trans ((quiet_append ..).mono (by simp))

theorem quiet_clearRelease (p : Pos) (d : Nat) (o : Nat) : Quiet [.operators, .grants, .journal] s (clearRelease p d s o) :=
  (quiet_release ..).trans ((quiet_append ..).mono (by simp))

theorem quiet_returnRelief (o : Nat) (p : Pos) : Quiet [.operators, .grants, .positions, .journal] s (returnRelief o p s) :=
  .trans (.trans ((quiet_foldl s (fun s => quiet_returnRelease s p _) _).mono (by simp)) ((quiet_modPos ..).mono (by simp)))
    ((quiet_setEngagement ..).mono (by simp))

theorem quiet_clearRelief (p : Pos) (o : Nat) : Quiet [.operators, .grants, .positions, .journal] s (clearRelief p o s) := by
  simp only [clearRelief]
  exact .trans ((quiet_foldl s (fun s => quiet_clearRelease s p o) _).mono (by simp)) ((quiet_modPos ..).mono (by simp))

theorem quiet_expireRelief (p : Pos) (n : Nat) (f : ReliefFrame) :
    Quiet [.positions, .journal, .links] s (expireRelief p n f s) :=
  .trans (.trans ((quiet_modPos ..).mono (by simp)) ((quiet_append ..).mono (by simp))) ((quiet_notifyBoth ..).mono (by simp))

theorem still_takeFrame (l : Link) : Still [.links] s (takeFrame l s) := still_modLink ⟨rfl, rfl⟩ fun _ h => h

theorem quiet_passFault (l : Link) (q : Queued) : Quiet [.links, .journal, .device] s (passFault l s q) := by
  unfold passFault
  split
  · exact quiet_routeFault ..
  · exact .refl ..

theorem still_takeDown (l : Link) : Still [.links, .journal, .device] s (takeDown l s) := by
  simp only [takeDown]
  refine .trans (.trans (.trans (.trans ((still_modLink ⟨rfl, rfl⟩ fun _ h => h).mono (by simp))
    ((quiet_append ..).still.mono (by simp))) (quiet_foldl _ (fun s => quiet_passFault s l) _).still)
    ((still_modLink ⟨rfl, rfl⟩ (by simp [LinkState.goDown])).mono (by simp))) (quiet_routeFault ..).still

theorem still_restartBlocks : Still [.alarms, .lists, .escalation, .loads, .operators, .grants, .positions, .journal] s
    (restartBlocks s) :=
  .trans (.of ⟨fun p hp => by cases p <;> simp_all [Agrees]⟩ (by simp))
    ((quiet_foldl _ quiet_dropHandover _).still.mono (by simp))

theorem kept_start (n : Nat) (k : StartKind) (r : RunState) :
    Kept [.device] s { s with restarts := n, startKind := k, runState := r } :=
  ⟨fun p hp => by cases p <;> simp_all [Agrees]⟩

theorem still_warmRestart : Still [.device, .alarms, .lists, .escalation, .loads, .operators, .grants, .positions, .journal,
    .links] s (warmRestart s) := by
  have links (u : State) : Still [.links] u { u with links := u.links.map fun l k => k.restart (l != .plant) } :=
    still_mapLinks fun _ _ => ⟨rfl, rfl, by simp [LinkState.restart]⟩
  simp only [warmRestart]
  exact .trans (.trans (.trans ((Still.of (kept_start s _ _ _) (by simp)).mono (by simp)) ((quiet_append ..).still.mono (by simp)))
    ((still_restartBlocks _).mono (by simp))) ((links _).mono (by simp))

end work

end Sys2Proof.Machine
end

section
/-! PROOFS. What each command does to the parts and to the links, command by command. Settles
`OnlyTheNamedCommandsChangeAPart`, `EveryRequestIsAnsweredOnce` and `RefusedRequestsChangeNothingElse`. -/

namespace Sys2Proof.Machine

section commands
variable {s : State}

theorem quiet_clock (s : State) (m : Word) : Quiet [.clock] s { s with millTime := m, timeSet := true } :=
  .of ⟨fun p hp => by cases p <;> simp_all [Agrees]⟩ rfl

theorem kept_commissioned (s : State) (n : Nat) : Kept [.device] s { s with plantHold := n, runState := .resync } :=
  ⟨fun p hp => by cases p <;> simp_all [Agrees]⟩

theorem still_storeRates (s : State) (rates : List Nat) : Still [.links] s (storeRates rates s) :=
  still_mapLinks fun _ _ => ⟨rfl, rfl, fun _ h => h⟩

theorem Still.ite {ps : List Part} {s t u : State} {c : Prop} [Decidable c] (h : c → Still ps s t) (k : ¬c → Still ps s u) :
    Still ps s (if c then t else u) := by
  split
  · exact h ‹_›
  · exact k ‹_›

theorem runs_execOneSecondStep :
    EventRuns [.clock, .lists, .loads, .positions, .bypasses, .links] s (execOneSecondStep s) :=
  eventRuns <| by
    refine ⟨⟨fun p hp => by cases p <;> simp_all [Agrees, tick]⟩, fun l => ?_, fun l f hf => ?_⟩
    · simp [outgoing, tick]
    · simpa [tick] using hf

theorem runs_execFrameDiscarded (l : Link) (bytes : List Byte) : EventRuns [.links] s (execFrameDiscarded l bytes s) :=
  eventRuns (still_modLink ⟨rfl, rfl⟩ fun _ h => h)

theorem runs_execFlowHold (l : Link) (value : Option Byte) : EventRuns [.links] s (execFlowHold l value s) :=
  eventRuns (.trans (still_takeFrame ..) (.when (still_modLink (by unfold LinkState.takeHold; split <;> simp) (by unfold LinkState.takeHold; split <;> simp))))

theorem runs_execFlowGo (l : Link) : EventRuns [.links, .journal] s (execFlowGo l s) :=
  eventRuns <| .trans ((still_takeFrame ..).mono (by simp)) (.ite (fun _ => (still_modLink ⟨rfl, rfl⟩ fun _ h => h).mono (by simp))
    fun _ => .trans ((still_modLink ⟨rfl, rfl⟩ fun _ h => h).mono (by simp)) ((quiet_append ..).still.mono (by simp)))

theorem runs_execDefineAlarm (h : Header) (f : AlarmFields) :
    RequestRuns [.alarms] .defineAlarm h s (execDefineAlarm h f s) :=
  requestRuns fun _ => .judged fun _ => .done (quiet_alarms ..)

theorem runs_execDefineOperator (h : Header) (id : Nat) (present : Nat) (badge : Word) (level : Nat) :
    RequestRuns [.operators, .grants, .journal] .defineOperator h s (execDefineOperator h id present badge level s) :=
  requestRuns fun _ => .judged fun _ => .done (quiet_defineOperator ..)

theorem runs_execDefineGrant (h : Header) (id : Nat) (kind : Nat) (scope : Nat) (binding : Nat) :
    RequestRuns [.grants, .journal] .defineGrant h s (execDefineGrant h id kind scope binding s) :=
  requestRuns fun _ => .judged fun _ => .done (quiet_issueGrant ..)

theorem runs_execDefinePosition (h : Header) (f : PositionFields) :
    RequestRuns [.alarms, .lists, .links, .loads, .journal, .positions] .definePosition h s (execDefinePosition h f s) :=
  requestRuns fun _ => .judged fun _ => .done (quiet_configure ..)

theorem runs_execGroupMaskMask (h : Header) (action : Nat) (groups : Word) :
    RequestRuns [.mask, .alarms, .lists, .escalation, .positions, .journal, .links, .free] .groupMask h s (execGroupMaskMask h action groups s) :=
  requestRuns fun u => .judged fun _ => .done <|
    .trans (.trans ((quiet_mask u _).mono (by simp)) ((quiet_suppressionEntry ..).mono (by simp)))
      ((quiet_foldl_fst (quiet_maskAlarm _) (_, 0) _).mono (by simp))

theorem runs_execGroupMaskUnmask (h : Header) (groups : Word) :
    RequestRuns [.mask, .alarms, .lists, .links, .loads, .journal, .positions, .free] .groupMask h s (execGroupMaskUnmask h groups s) :=
  requestRuns fun u => .judged fun _ => .done <|
    .trans (.trans ((quiet_mask u _).mono (by simp)) ((quiet_suppressionEntry ..).mono (by simp)))
      ((quiet_foldl_fst (quiet_unmaskAlarm _) (_, 0) _).mono (by simp))

theorem runs_execTimeSet (h : Header) (time : Word) : RequestRuns [.clock, .journal] .timeSet h s (execTimeSet h time s) :=
  requestRuns fun u => .done <| .trans ((quiet_clock u _).mono (by simp)) ((quiet_append ..).mono (by simp))

theorem runs_execStatus (h : Header) : RequestRuns [] .status h s (execStatus h s) :=
  requestRuns fun _ => .done (.refl ..)

theorem runs_execOperatorRead (h : Header) (id : Nat) : RequestRuns [] .operatorRead h s (execOperatorRead h id s) :=
  requestRuns fun _ => .judged fun _ => .done (.refl ..)

theorem runs_execRelayReset (h : Header) : RequestRuns [.device, .journal] .relayReset h s (execRelayReset h s) := by
  refine requestRuns fun u => .judged fun _ => ?_
  split
  · exact .done ((quiet_relay ..).comp (quiet_append ..) (by simp) (by simp))
  · exact .done (.refl ..)

theorem runs_execCommission (h : Header) (hold : Nat) (rates : List Nat) :
    RequestRuns [.device, .links] .commission h s (execCommission h hold rates s) :=
  requestRuns fun u => .judged fun _ => .still_done <|
    .trans ((Still.of (kept_commissioned u _) (by simp)).mono (by simp))
      ((still_storeRates _ rates).mono (by simp))

theorem runs_execAlarmEventRaise (h : Header) (i : Nat) (event : Nat) :
    RequestRuns [.alarms, .lists, .loads, .positions, .journal, .links, .free] .alarmEvent h s (execAlarmEventRaise h i event s) :=
  requestRuns fun _ => .judged fun _ => .done (quiet_raiseAlarm ..)

theorem runs_execAlarmEventClear (h : Header) (i : Nat) :
    RequestRuns [.alarms, .lists, .positions, .journal, .links, .free] .alarmEvent h s (execAlarmEventClear h i s) :=
  requestRuns fun _ => .judged fun _ => .done (quiet_clearAlarm ..)

theorem runs_execOutOfService (h : Header) (i : Nat) :
    RequestRuns [.alarms, .lists, .escalation, .positions, .journal, .links, .free] .outOfService h s (execOutOfService h i s) := by
  refine requestRuns fun u => .judged fun _ => ?_
  split
  · exact .done (.refl ..)
  · exact .done (quiet_takeOutOfService ..)

theorem runs_execReturnToService (h : Header) (i : Nat) :
    RequestRuns [.alarms, .lists, .loads, .positions, .journal, .links, .free] .returnToService h s (execReturnToService h i s) := by
  refine requestRuns fun u => .judged fun _ => ?_
  split
  · exact .done (quiet_returnAlarm ..)
  · exact .done (.refl ..)

theorem runs_execRevokeGrant (h : Header) (slot : Nat) :
    RequestRuns [.grants, .journal] .revokeGrant h s (execRevokeGrant h slot s) :=
  requestRuns fun _ => .judged fun _ => .done (quiet_endGrant ..)

theorem runs_execAlarmStateActive (h : Header) (i : Nat) (state : Nat) :
    RequestRuns [.alarms, .lists, .positions, .links, .free] .alarmState h s (execAlarmStateActive h i state s) :=
  requestRuns fun _ => .judged fun _ => .done (quiet_raiseAlarm_unweighted ..)

theorem runs_execAlarmStateInactive (h : Header) (i : Nat) :
    RequestRuns [.alarms, .lists, .positions, .links, .free] .alarmState h s (execAlarmStateInactive h i s) :=
  requestRuns fun _ => .judged fun _ => .done (quiet_clearAlarm_silent ..)

theorem runs_execResyncEnd (h : Header) : RequestRuns [.alarms, .device] .resyncEnd h s (execResyncEnd h s) :=
  requestRuns fun u => .judged fun _ => .done (.of ⟨fun p hp => by cases p <;> simp_all [Agrees]⟩ rfl)

theorem runs_execRestart (h : Header) :
    RequestRuns [.device, .alarms, .lists, .escalation, .loads, .operators, .grants, .positions, .journal, .links] .restart h s (execRestart h s) :=
  requestRuns fun _ => .still_done (still_warmRestart ..)

theorem runs_execAlarmRead (h : Header) (i : Nat) : RequestRuns [] .alarmRead h s (execAlarmRead h i s) :=
  requestRuns fun _ => .judged fun _ => .done (.refl ..)

theorem runs_execListRead (h : Header) (selector : Nat) (position : Nat) (start : Nat) (count : Nat) :
    RequestRuns [] .listRead h s (execListRead h selector position start count s) :=
  requestRuns fun _ => .judged fun _ => .done (.refl ..)

theorem runs_execLoadQuery (h : Header) (selector : Nat) :
    RequestRuns [.loads] .loadQuery h s (execLoadQuery h selector s) := by
  refine requestRuns fun u => .judged fun checked => ⟨?_, ?_, nofun⟩
  · exact (quiet_foldl u (fun s p => quiet_modLoad s p _) _).still
  · simp only [firstRefusal_cons_eq_none] at checked
    intro none
    simp_all

theorem runs_execJournalRead (h : Header) (start : Word) (count : Nat) :
    RequestRuns [] .journalRead h s (execJournalRead h start count s) :=
  requestRuns fun _ => .judged fun _ => .done (.refl ..)

theorem runs_execPositionRead (h : Header) (position : Nat) :
    RequestRuns [] .positionRead h s (execPositionRead h position s) :=
  requestRuns fun _ => .judged fun _ => .done (.refl ..)

theorem runs_execBypassRead (h : Header) : RequestRuns [] .bypassRead h s (execBypassRead h s) :=
  requestRuns fun _ => .done (.refl ..)

theorem runs_execShelfRead (h : Header) (position : Nat) : RequestRuns [] .shelfRead h s (execShelfRead h position s) :=
  requestRuns fun _ => .judged fun _ => .done (.refl ..)

theorem runs_execItemRead (h : Header) (position : Nat) (start : Nat) (count : Nat) :
    RequestRuns [] .itemRead h s (execItemRead h position start count s) :=
  requestRuns fun _ => .judged fun _ => .done (.refl ..)

theorem runs_execAck (h : Header) (i : Nat) :
    RequestRuns [.alarms, .lists, .escalation, .positions, .journal, .links, .free] .ack h s (execAck h i s) := by
  refine consoleRuns fun p u => .judged fun _ => ?_
  unfold ackAnswer
  split
  · exact .refuse ..
  · exact .done (quiet_acknowledge ..)

theorem runs_execAckList (h : Header) (count : Nat) (indices : List Nat) :
    RequestRuns [.alarms, .lists, .escalation, .positions, .journal, .links, .free] .ackList h s (execAckList h count indices s) :=
  consoleRuns fun p u => .judged fun _ => .done (quiet_foldl_fst (quiet_ackOne h.op p) (u, []) indices)

theorem runs_execShelve (h : Header) (i : Nat) (duration : Nat) :
    RequestRuns [.alarms, .lists, .escalation, .positions, .journal, .links] .shelve h s (execShelve h i duration s) := by
  refine consoleRuns fun p u => .judged fun _ => ?_
  have quiet := quiet_shelve u h.op i duration
  have done : ∃ es g, (shelve h.op i duration u).2 = .done es g := by
    unfold shelve
    split <;> exact ⟨_, _, rfl⟩
  obtain ⟨es, g, done⟩ := done
  exact ⟨quiet.still, by simp [done], by simp [done]⟩

theorem runs_execUnshelve (h : Header) (i : Nat) :
    RequestRuns [.alarms, .lists, .links, .loads, .journal, .positions, .free] .unshelve h s (execUnshelve h i s) :=
  consoleRuns fun _ _ => .judged fun _ => .done (quiet_unshelveAlarm ..)

theorem runs_execLatchReset (h : Header) (i : Nat) :
    RequestRuns [.alarms, .positions, .journal, .links, .free] .latchReset h s (execLatchReset h i s) :=
  consoleRuns fun _ _ => .judged fun _ => .done (quiet_resetLatch ..)

theorem runs_execSilence (h : Header) : RequestRuns [.lists, .links] .silence h s (execSilence h s) :=
  consoleRuns fun _ _ => .judged fun _ => .done (quiet_silenceList ..)

theorem runs_execBypassDeclare (h : Header) (area : Nat) (interlock : Nat) (duration : Nat) :
    RequestRuns [.bypasses, .positions, .journal, .links] .bypassDeclare h s (execBypassDeclare h area interlock duration s) :=
  consoleRuns fun _ _ => .judged fun _ => .done (quiet_declareBypass ..)

theorem runs_execBypassEnd (h : Header) (area : Nat) (interlock : Nat) :
    RequestRuns [.bypasses, .positions, .journal, .links] .bypassEnd h s (execBypassEnd h area interlock s) :=
  consoleRuns fun _ _ => .judged fun _ => .done (quiet_endBypass ..)

theorem runs_execNoteAdd (h : Header) (code : Nat) (length : Nat) (text : List Byte) :
    RequestRuns [.positions, .journal, .links] .noteAdd h s (execNoteAdd h code length text s) :=
  consoleRuns fun _ _ => .judged fun _ => .done (quiet_addNote ..)

theorem runs_execSignOn (h : Header) (badge : Word) :
    RequestRuns [.operators, .positions, .journal] .signOn h s (execSignOn h badge s) :=
  consoleRuns fun _ _ => work_badgeRequest (fun _ => quiet_signOn ..) fun _ => ⟨_, _, rfl⟩

theorem runs_execSignOff (h : Header) :
    RequestRuns [.operators, .grants, .positions, .journal] .signOff h s (execSignOff h s) :=
  consoleRuns fun _ _ => .judged fun _ => .done (quiet_signOff ..)

theorem runs_execHandoverOffer (h : Header) (incoming : Nat) :
    RequestRuns [.positions, .journal, .links] .handoverOffer h s (execHandoverOffer h incoming s) :=
  consoleRuns fun _ _ => .judged fun _ => .done (quiet_offer ..)

theorem runs_execHandoverTake (h : Header) (badge : Word) :
    RequestRuns [.operators, .positions, .journal, .links] .handoverTake h s (execHandoverTake h badge s) :=
  consoleRuns fun _ _ => work_badgeRequest (fun _ => quiet_take ..) fun _ => ⟨_, _, rfl⟩

theorem runs_execItemConfirm (h : Header) (count : Nat) (numbers : List Nat) :
    RequestRuns [.positions] .itemConfirm h s (execItemConfirm h count numbers s) :=
  consoleRuns fun _ _ => .judged fun _ => .done (quiet_modPos ..)

theorem runs_execHandoverAccept (h : Header) :
    RequestRuns [.operators, .grants, .positions, .journal, .links] .handoverAccept h s (execHandoverAccept h s) :=
  consoleRuns fun _ _ => .judged fun _ => .done (quiet_accept ..)

theorem runs_execHandoverWithdraw (h : Header) :
    RequestRuns [.operators, .grants, .positions, .journal, .links] .handoverWithdraw h s (execHandoverWithdraw h s) :=
  consoleRuns fun _ _ => .judged fun _ => .done (quiet_endHandover ..)

theorem runs_execHandoverCancel (h : Header) (position : Nat) :
    RequestRuns [.operators, .grants, .positions, .journal, .links] .handoverCancel h s (execHandoverCancel h position s) :=
  requestRuns fun _ => .judged fun _ => .done (quiet_endHandover ..)

theorem runs_execReliefTake (h : Header) (badge : Word) :
    RequestRuns [.operators, .positions, .journal] .reliefTake h s (execReliefTake h badge s) :=
  consoleRuns fun _ _ => work_badgeRequest (fun _ => quiet_takeRelief ..) fun _ => ⟨_, _, rfl⟩

theorem runs_execReliefReturn (h : Header) (badge : Word) :
    RequestRuns [.operators, .grants, .positions, .journal] .reliefReturn h s (execReliefReturn h badge s) :=
  consoleRuns fun _ _ => work_badgeRequest (fun _ => quiet_returnRelief ..) fun _ => ⟨_, _, rfl⟩

theorem runs_execReliefClear (h : Header) (position : Nat) :
    RequestRuns [.operators, .grants, .positions, .journal] .reliefClear h s (execReliefClear h position s) :=
  requestRuns fun _ => .judged fun _ => .done (quiet_clearRelief ..)

theorem runs_execAreaTransfer (h : Header) (area : Nat) (target : Nat) :
    RequestRuns [.areas, .alarms, .lists, .journal, .links] .areaTransfer h s (execAreaTransfer h area target s) :=
  requestRuns fun _ => .judged fun _ => .done (quiet_transferArea ..)

theorem runs_execGrantTemporary (h : Header) (target : Nat) (kind : Nat) (scope : Nat) :
    RequestRuns [.grants, .journal] .grantTemporary h s (execGrantTemporary h target kind scope s) :=
  requestRuns fun _ => .judged fun _ => .done (quiet_issueGrant ..)

theorem runs_execGrantEnd (h : Header) (slot : Nat) :
    RequestRuns [.grants, .journal] .grantEnd h s (execGrantEnd h slot s) :=
  requestRuns fun _ => .judged fun _ => .done (quiet_endGrant ..)

theorem runs_execOperatorUnlock (h : Header) (id : Nat) :
    RequestRuns [.operators] .operatorUnlock h s (execOperatorUnlock h id s) :=
  requestRuns fun _ => .judged fun _ => .done (quiet_modOperator ..)

theorem runs_execDecayExpiry (p : Pos) :
    EventRuns [.alarms, .lists, .links, .loads, .journal, .positions] s (execDecayExpiry p s) :=
  eventRuns (.when (quiet_decay ..).still)

theorem runs_execReminderExpiry (i : Nat) :
    EventRuns [.alarms, .lists, .escalation, .loads, .positions, .journal, .links] s (execReminderExpiry i s) :=
  eventRuns (.when (quiet_expireReminder ..).still)

theorem runs_execShelfExpiry (i : Nat) :
    EventRuns [.alarms, .lists, .links, .loads, .journal, .positions, .free] s (execShelfExpiry i s) :=
  eventRuns (.when (quiet_expireShelf ..).still)

theorem runs_execDueExpiry (slot : Nat) : EventRuns [.bypasses, .journal, .links] s (execDueExpiry slot s) := by
  refine eventRuns ?_
  split
  · exact (quiet_expireBypass ..).still
  · exact .refl ..

theorem runs_execReliefLimitExpiry (p : Pos) (frame : Nat) :
    EventRuns [.positions, .journal, .links] s (execReliefLimitExpiry p frame s) := by
  refine eventRuns ?_
  split
  · exact (quiet_expireRelief ..).still
  · exact .refl ..

theorem runs_execOfferTimeout (p : Pos) : EventRuns [.positions, .journal, .links] s (execOfferTimeout p s) := by
  refine eventRuns ?_
  split
  · rename_i due
    simp only [handoverDue, Bool.and_eq_true, beq_iff_eq] at due
    exact (quiet_endHandover_offered s due.1).still
  · exact .refl ..

theorem runs_execReviewTimeout (p : Pos) :
    EventRuns [.operators, .grants, .positions, .journal, .links] s (execReviewTimeout p s) :=
  eventRuns (.when (quiet_endHandover ..).still)

theorem runs_execHoldTimerExpiry (l : Link) : EventRuns [.links, .journal, .device] s (execHoldTimerExpiry l s) :=
  eventRuns (.when (still_takeDown ..))

end commands

end Sys2Proof.Machine
end

section
/-! PROOFS. The rules of the whole machine: `OnlyTheNamedCommandsChangeAPart`, `EveryRequestIsAnsweredOnce` and
`RefusedRequestsChangeNothingElse`, from what each command does to the parts and to the links. -/

namespace Sys2Proof.Machine

/-- What a command does: cold start apart, it is served as the request that it is, or taken as an event, and changes only the
parts that it is named for. A sent frame and a frame of unknown kind are events that put frames on a link. -/
def RunsAs (c : Instr) (s : State) : Prop :=
  match requestFields c with
  | some (k, h, _) => ∃ ps, RequestRuns ps k h s (exec c s) ∧ ps.all (fun p => p.changedBy c) = true
  | none => ∃ ps, EventRuns ps s (exec c s) ∧ ps.all (fun p => p.changedBy c) = true

theorem exec_runs (c : Instr) (s : State) (hc : c ≠ .coldStart) (hs : ∀ l, c ≠ .frameSent l)
    (hu : ∀ l k tag, c ≠ .unknownKindFrame l k tag) : RunsAs c s := by
  cases c with
  | coldStart => exact absurd rfl hc
  | frameSent l => exact absurd rfl (hs l)
  | unknownKindFrame l kind tag => exact absurd rfl (hu l kind tag)
  | oneSecondStep => exact ⟨_, runs_execOneSecondStep, rfl⟩
  | frameDiscarded l bytes => exact ⟨_, runs_execFrameDiscarded .., rfl⟩
  | flowHold l value => exact ⟨_, runs_execFlowHold .., rfl⟩
  | flowGo l => exact ⟨_, runs_execFlowGo .., rfl⟩
  | defineAlarm h f => exact ⟨_, runs_execDefineAlarm .., rfl⟩
  | defineOperator h id present badge level => exact ⟨_, runs_execDefineOperator .., rfl⟩
  | defineGrant h id kind scope binding => exact ⟨_, runs_execDefineGrant .., rfl⟩
  | definePosition h f => exact ⟨_, runs_execDefinePosition .., rfl⟩
  | groupMaskMask h action groups => exact ⟨_, runs_execGroupMaskMask .., rfl⟩
  | groupMaskUnmask h groups => exact ⟨_, runs_execGroupMaskUnmask .., rfl⟩
  | timeSet h time => exact ⟨_, runs_execTimeSet .., rfl⟩
  | status h => exact ⟨_, runs_execStatus .., rfl⟩
  | operatorRead h id => exact ⟨_, runs_execOperatorRead .., rfl⟩
  | relayReset h => exact ⟨_, runs_execRelayReset .., rfl⟩
  | commission h hold rates => exact ⟨_, runs_execCommission .., rfl⟩
  | alarmEventRaise h i event => exact ⟨_, runs_execAlarmEventRaise .., rfl⟩
  | alarmEventClear h i => exact ⟨_, runs_execAlarmEventClear .., rfl⟩
  | outOfService h i => exact ⟨_, runs_execOutOfService .., rfl⟩
  | returnToService h i => exact ⟨_, runs_execReturnToService .., rfl⟩
  | revokeGrant h slot => exact ⟨_, runs_execRevokeGrant .., rfl⟩
  | alarmStateActive h i state => exact ⟨_, runs_execAlarmStateActive .., rfl⟩
  | alarmStateInactive h i => exact ⟨_, runs_execAlarmStateInactive .., rfl⟩
  | resyncEnd h => exact ⟨_, runs_execResyncEnd .., rfl⟩
  | restart h => exact ⟨_, runs_execRestart .., rfl⟩
  | alarmRead h i => exact ⟨_, runs_execAlarmRead .., rfl⟩
  | listRead h selector position start count => exact ⟨_, runs_execListRead .., rfl⟩
  | loadQuery h selector => exact ⟨_, runs_execLoadQuery .., rfl⟩
  | journalRead h start count => exact ⟨_, runs_execJournalRead .., rfl⟩
  | positionRead h position => exact ⟨_, runs_execPositionRead .., rfl⟩
  | bypassRead h => exact ⟨_, runs_execBypassRead .., rfl⟩
  | shelfRead h position => exact ⟨_, runs_execShelfRead .., rfl⟩
  | itemRead h position start count => exact ⟨_, runs_execItemRead .., rfl⟩
  | ack h i => exact ⟨_, runs_execAck .., rfl⟩
  | ackList h count indices => exact ⟨_, runs_execAckList .., rfl⟩
  | shelve h i duration => exact ⟨_, runs_execShelve .., rfl⟩
  | unshelve h i => exact ⟨_, runs_execUnshelve .., rfl⟩
  | latchReset h i => exact ⟨_, runs_execLatchReset .., rfl⟩
  | silence h => exact ⟨_, runs_execSilence .., rfl⟩
  | bypassDeclare h area interlock duration => exact ⟨_, runs_execBypassDeclare .., rfl⟩
  | bypassEnd h area interlock => exact ⟨_, runs_execBypassEnd .., rfl⟩
  | noteAdd h code length text => exact ⟨_, runs_execNoteAdd .., rfl⟩
  | signOn h badge => exact ⟨_, runs_execSignOn .., rfl⟩
  | signOff h => exact ⟨_, runs_execSignOff .., rfl⟩
  | handoverOffer h incoming => exact ⟨_, runs_execHandoverOffer .., rfl⟩
  | handoverTake h badge => exact ⟨_, runs_execHandoverTake .., rfl⟩
  | itemConfirm h count numbers => exact ⟨_, runs_execItemConfirm .., rfl⟩
  | handoverAccept h => exact ⟨_, runs_execHandoverAccept .., rfl⟩
  | handoverWithdraw h => exact ⟨_, runs_execHandoverWithdraw .., rfl⟩
  | handoverCancel h position => exact ⟨_, runs_execHandoverCancel .., rfl⟩
  | reliefTake h badge => exact ⟨_, runs_execReliefTake .., rfl⟩
  | reliefReturn h badge => exact ⟨_, runs_execReliefReturn .., rfl⟩
  | reliefClear h position => exact ⟨_, runs_execReliefClear .., rfl⟩
  | areaTransfer h area target => exact ⟨_, runs_execAreaTransfer .., rfl⟩
  | grantTemporary h target kind scope => exact ⟨_, runs_execGrantTemporary .., rfl⟩
  | grantEnd h slot => exact ⟨_, runs_execGrantEnd .., rfl⟩
  | operatorUnlock h id => exact ⟨_, runs_execOperatorUnlock .., rfl⟩
  | decayExpiry p => exact ⟨_, runs_execDecayExpiry .., rfl⟩
  | reminderExpiry i => exact ⟨_, runs_execReminderExpiry .., rfl⟩
  | shelfExpiry i => exact ⟨_, runs_execShelfExpiry .., rfl⟩
  | dueExpiry slot => exact ⟨_, runs_execDueExpiry .., rfl⟩
  | reliefLimitExpiry p frame => exact ⟨_, runs_execReliefLimitExpiry .., rfl⟩
  | offerTimeout p => exact ⟨_, runs_execOfferTimeout .., rfl⟩
  | reviewTimeout p => exact ⟨_, runs_execReviewTimeout .., rfl⟩
  | holdTimerExpiry l => exact ⟨_, runs_execHoldTimerExpiry .., rfl⟩

/-! ### Each part is changed by its own commands -/

theorem agrees_of_kept {c : Instr} {ps : List Part} {s t : State} (h : Kept ps s t)
    (hp : ∀ p ∈ ps, p.changedBy c = true) (part : Part) (hc : part.changedBy c = false) : Agrees s t part :=
  h.agrees part fun hm => by simp [hp part hm] at hc

theorem kept_coldStart (s : State) : Agrees s { State.reset with free := s.free, pending := s.pending } .pending := rfl

theorem kept_finishFrame (l : Link) (s : State) : Kept [.links] s (finishFrame l s) := by
  unfold finishFrame
  split
  · exact (kept_modLink ..).trans (.when ⟨fun p hp => by cases p <;> simp_all [Agrees, changeRates]⟩)
  · exact .refl ..

theorem kept_execFrameSent (l : Link) (s : State) : ∃ t, execFrameSent l s = .next t ∧ Kept [.links] s t :=
  ⟨_, rfl, (kept_finishFrame l s).trans (kept_settle _)⟩

theorem kept_execUnknownKindFrame (l : Link) (kind tag : Byte) (s : State) :
    ∃ t, execUnknownKindFrame l kind tag s = .next t ∧ Kept [.links] s t :=
  ⟨_, rfl, ((kept_takeFrame s l).trans (kept_modLink ..)).trans (kept_settle _)⟩

/-- Settles O12, by one case for each command, over the lemma for each shared operation. -/
theorem onlyTheNamedCommandsChangeAPart : Obligations.OnlyTheNamedCommandsChangeAPart := by
  intro c s
  have named (h : RunsAs c s) : ∃ t, exec c s = .next t ∧ ∀ part : Part, part.changedBy c = false → Agrees s t part := by
    unfold RunsAs at h
    split at h
    · obtain ⟨ps, runs, parts⟩ := h
      obtain ⟨t, -, ht, kept, -⟩ := runs.replied
      refine ⟨t, ht, agrees_of_kept kept ?_⟩
      simpa [Part.changedBy] using parts
    · obtain ⟨ps, runs, parts⟩ := h
      obtain ⟨t, ht, kept⟩ := runs.kept
      refine ⟨t, ht, agrees_of_kept kept ?_⟩
      simpa [Part.changedBy] using parts
  have linked (h : ∃ t, exec c s = .next t ∧ Kept [.links] s t) :
      ∃ t, exec c s = .next t ∧ ∀ part : Part, part.changedBy c = false → Agrees s t part := by
    obtain ⟨t, ht, kept⟩ := h
    exact ⟨t, ht, agrees_of_kept kept (by simp [Part.changedBy])⟩
  by_cases hc : c = .coldStart
  · subst hc
    refine ⟨_, rfl, fun part hp => ?_⟩
    cases part
    case pending => exact kept_coldStart s
    all_goals simp [Part.changedBy] at hp
  by_cases hs : ∃ l, c = .frameSent l
  · obtain ⟨l, rfl⟩ := hs
    exact linked (kept_execFrameSent l s)
  by_cases hu : ∃ l k tag, c = .unknownKindFrame l k tag
  · obtain ⟨l, k, tag, rfl⟩ := hu
    exact linked (kept_execUnknownKindFrame l k tag s)
  exact named (exec_runs c s hc (fun l h => hs ⟨l, h⟩) fun l k tag h => hu ⟨l, k, tag, h⟩)

/-! ### One answer to each request -/

/-- A request is served as the kind and with the header that its frame has. -/
theorem request_runs {c : Instr} {k : Kind} {h : Header} {fields : List Byte} (s : State)
    (hr : requestFields c = some (k, h, fields)) : ∃ ps, RequestRuns ps k h s (exec c s) := by
  have runs := exec_runs c s (by rintro rfl; cases hr) (by rintro l rfl; cases hr) (by rintro l k tag rfl; cases hr)
  rw [RunsAs, hr] at runs
  obtain ⟨ps, runs, -⟩ := runs
  exact ⟨ps, runs⟩

/-- Settles O13, from what serving a request sends and from what an event does not. -/
theorem everyRequestIsAnsweredOnce : Obligations.EveryRequestIsAnsweredOnce := by
  refine ⟨fun c k h fields s hr => ?_, fun c s t ht hr hc hs hu => ?_⟩
  · obtain ⟨ps, runs⟩ := request_runs s hr
    obtain ⟨t, a, ht, -, replied, answered⟩ := runs.replied
    exact ⟨t, a, ht, replied, answered⟩
  · have runs := exec_runs c s hc hs hu
    rw [RunsAs, hr] at runs
    obtain ⟨ps, runs, -⟩ := runs
    exact runs.noReply ht

/-! ### Refused requests -/

/-- R165: the first body of a DONE reply keeps its outcome byte. -/
theorem packBodies_head (b : List Byte) (es : List (List Byte)) :
    ∃ c rest, packBodies (be8 0 ++ b) es = (be8 0 ++ c) :: rest := by
  induction es generalizing b with
  | nil => exact ⟨b, [], rfl⟩
  | cons e es ih =>
    unfold packBodies
    split
    · simpa using ih (b ++ e)
    · exact ⟨b, _, rfl⟩

/-- R84, R165: a reply of one frame whose outcome byte is that of a refusal is a refusal. -/
theorem refused_of_frame {k : Kind} {tag : Byte} {a : Answer} {f : Frame} (ha : answerFrames k tag a = [f])
    (hf : f.body.head? = some 1) : ∃ c v, a = .refused c v := by
  have done (b : List Byte) : (be8 0 ++ b).head? ≠ some 1 := by simp [be8]
  cases a with
  | refused c v => exact ⟨c, v, rfl⟩
  | done es g =>
    obtain ⟨c, rest, hp⟩ := packBodies_head [] es
    simp only [List.append_nil] at hp
    simp only [answerFrames, hp, markGap, replyFrames, List.cons.injEq] at ha
    rw [← ha.1] at hf
    exact absurd hf (done c)
  | each es =>
    cases es with
    | nil => simp [answerFrames, replyFrames] at ha
    | cons e es =>
      simp only [answerFrames, List.map_cons, replyFrames, List.cons.injEq] at ha
      rw [← ha.1] at hf
      exact absurd hf (done e.1)

/-- R84: what a refusal may have changed, part by part. -/
theorem OnlyChecked.kept {o : Nat} {s t : State} (h : OnlyChecked o s t) : Kept [.operators] s t ∧ t.links = s.links ∧
    OtherOperatorsKept o s t ∧ (t.operators.get? o).map Operator.unchecked = (s.operators.get? o).map Operator.unchecked := by
  rcases h with rfl | ⟨f, hf, rfl⟩
  · exact ⟨.refl .., rfl, fun _ _ => rfl, rfl⟩
  · refine ⟨(quiet_modOperator ..).kept, rfl, fun q hq => Table.get?_modify_ne _ _ hq, ?_⟩
    rw [modOperator_operators, Table.get?_modify_self, Option.map_map]
    congr 1
    exact funext hf

/-- R85: a refusal writes at most one entry, which names the refused operator. -/
theorem journaled_journalRefusal (h : Header) (k : Kind) (i : Option Nat) (a : Answer) (s : State) :
    ∃ ls, Journaled ls s (journalRefusal h k i a s) ∧ ls.length ≤ 1 ∧
      ∀ e ∈ ls, e.kind = .accessRefused ∧ e.operator = some h.op := by
  unfold journalRefusal
  split
  · unfold accessRefused
    split
    · exact ⟨[], .refl s, Nat.zero_le _, nofun⟩
    · exact ⟨_, journaled_append .., le_rfl, by simp⟩
  · exact ⟨[], .refl s, Nat.zero_le _, nofun⟩

/-- R84: what serving a request leaves where the answer is a refusal. -/
theorem RequestRuns.refused {ps : List Part} {k : Kind} {h : Header} {s t : State} {f : Frame}
    {r : Host.Outcome State Fault Refusal} (hr : RequestRuns ps k h s r) (ht : r = .next t)
    (sent : outgoing t h.link = outgoing s h.link ++ [f]) (hf : f.body.head? = some 1) :
    ∃ i a u, OnlyChecked h.op (takeFrame h.link s) u ∧ t = settle (reply h k a (journalRefusal h k i a u)) := by
  obtain ⟨i, body, rfl, hb⟩ := hr
  obtain ⟨t', ht', -, ⟨frames, -⟩, -⟩ := serve_replied (k := k) (i := i) (s := s) hb
  rw [ht, Host.Outcome.next.injEq] at ht'
  subst ht'
  rw [sent, List.append_cancel_left_eq] at frames
  obtain ⟨c, v, refused⟩ := refused_of_frame frames.symm hf
  have checked := (work_judged_liu hb (takeFrame h.link s)).refused c v refused
  exact ⟨i, _, _, checked, (Host.Outcome.next.inj ht).symm⟩

/-- Settles O14: a refusing body has changed at most the failure count and lock of its operator. -/
theorem refusedRequestsChangeNothingElse : Obligations.RefusedRequestsChangeNothingElse := by
  intro c k h fields s t f hr ht sent hf
  obtain ⟨ps, runs⟩ := request_runs s hr
  obtain ⟨i, a, u, checked, rfl⟩ := runs.refused ht sent hf
  obtain ⟨kept, links, others, own⟩ := checked.kept
  have quiet := quiet_journalRefusal u h k i a
  obtain ⟨ls, written, short, named⟩ := journaled_journalRefusal h k i a u
  generalize journalRefusal h k i a u = v at quiet written
  have ended : Kept [.links] v (settle (reply h k a v)) := (kept_reply ..).trans (kept_settle _)
  have same : (settle (reply h k a v)).operators = u.operators :=
    Eq.trans (ended.agrees .operators (by simp)) (quiet.kept.agrees .operators (by simp))
  have lines : LinesKept (takeFrame h.link s) u := fun l => by simp [links]
  refine ⟨?_, ?_, ?_, ?_, ls, ?_, short, named⟩
  · exact .trans (.trans ((kept_takeFrame ..).mono (by simp)) (kept.mono (by simp)))
      (.trans (quiet.kept.mono (by simp)) (ended.mono (by simp)))
  · exact ((takeFrame_lines h.link s).trans lines).trans (quiet.lines.trans ((reply_lines h k a v).trans (settle_lines _)))
  · exact fun q hq => by rw [same]; exact others q hq
  · rw [same]; exact own
  · have began : Journaled [] s u := .after (.of_kept (kept_takeFrame ..) (by simp)) (.of_kept kept (by simp)) rfl
    have time : u.millTime = s.millTime := (kept.agrees .clock (by simp)).1
    have time' : v.millTime = u.millTime := (quiet.kept.agrees .clock (by simp)).1
    exact .after began (.before written (.of_kept ended (by simp)) time') time

end Sys2Proof.Machine
end

section
/-! PROOFS. The front command, and what cold start leaves. Settles `StepRunsTheFrontCommand`, `ColdStartGivesTheStateOfReset`
and `InvariantsHoldAtReset`. -/

namespace Sys2Proof.Machine

/-- Settles O1, by evaluation. -/
theorem stepRunsTheFrontCommand : Obligations.StepRunsTheFrontCommand :=
  ⟨fun _ _ _ => rfl, fun _ _ _ => ⟨rfl, rfl⟩⟩

theorem reset_loads_get (p : Pos) : State.reset.loads.get p = PosLoad.cold := PerPos.get_all ..

/-- Settles O3, by the values of the cold containers. -/
theorem coldStartGivesTheStateOfReset : Obligations.ColdStartGivesTheStateOfReset := by
  intro s
  refine ⟨_, exec_coldStart s, rfl, rfl, rfl, rfl, rfl, rfl, rfl, rfl, rfl, rfl, rfl, rfl, rfl, fun p => ?_, fun l => ?_⟩
  · simp only [reset_loads_get, PosLoad.cold, and_self]
  · simp only [reset_links_get, LinkState.cold, and_self]

theorem engagementInv_reset (s : State) : EngagementInv { State.reset with free := s.free, pending := s.pending } := by
  have none (o : Nat) : engagementOf { State.reset with free := s.free, pending := s.pending } o = none :=
    engagementOf_of_operators_nil rfl o
  have cold (p : Pos) : ({ State.reset with free := s.free, pending := s.pending } : State).positions.get p = PosContext.cold :=
    reset_positions_get p
  refine ⟨deskInv_reset s, rfl, fun o p role => ?_, fun p => ?_, fun p o a hold => ?_⟩
  · rw [none]
    cases role <;> simp [Serves, cold, PosContext.cold]
  · simp [cold, PosContext.cold]
  · simp [cold, PosContext.cold] at hold

theorem placeInv_reset (s : State) : PlaceInv { State.reset with free := s.free, pending := s.pending } := by
  have cold (p : Pos) : ({ State.reset with free := s.free, pending := s.pending } : State).lists.get p = PosLists.cold :=
    reset_lists_get p
  refine ⟨capacityInv_reset s, alarmInv_reset s, fun p => ?_, ⟨.nil, .nil⟩, fun p => ?_, ?_, fun p => ?_, ?_, fun p => ?_⟩
  · simp [cold, PosLists.cold, InRankOrder, InShelfOrder]
  · simp [cold, PosLists.cold]
  · exact fun e he => by cases he
  · simp [cold, PosLists.cold]
  · exact fun i a ha => by cases ha
  · simp [DeskSounds, cold, PosLists.cold]

/-- Settles O5, by the values of the cold containers. -/
theorem invariantsHoldAtReset : Obligations.InvariantsHoldAtReset :=
  ⟨loadInv_reset State.reset, linkInv_reset State.reset, journalInv_reset State.reset, capacityInv_reset State.reset,
    deskInv_reset State.reset, alarmInv_reset State.reset, engagementInv_reset State.reset, placeInv_reset State.reset⟩

end Sys2Proof.Machine
end

section
/-! PROOFS. Who serves where: the engagements of the ACU are those of the PCU, and every holder covers the position (R66, R71).
What work at the desks does to them, one lemma for each operation. -/

namespace Sys2Proof.Machine

/-! ### Engagements and grants after their updates -/

theorem operator?_modOperator (o q : Nat) (f : Operator → Operator) (s : State) :
    operator? (modOperator o f s) q = if q = o then (operator? s o).map f else operator? s q := by
  simp only [operator?, modOperator_operators, Table.get?_modify]
  split_ifs <;> simp_all

theorem engagementOf_modOperator (o q : Nat) (f : Operator → Operator) (s : State) (hf : ∀ r, (f r).engagement = r.engagement) :
    engagementOf (modOperator o f s) q = engagementOf s q := by
  simp only [engagementOf, operator?_modOperator]
  split
  · subst q
    cases operator? s o <;> simp [hf]
  · rfl

/-- R66: a defined operator has the engagement written. -/
theorem engagementOf_setEngagement (o q : Nat) (e : Option (Pos × Role)) (s : State) (h : (operator? s o).isSome) :
    engagementOf (setEngagement o e s) q = if q = o then e else engagementOf s q := by
  simp only [engagementOf, setEngagement, operator?_modOperator]
  split
  · obtain ⟨r, hr⟩ := Option.isSome_iff_exists.1 h
    simp [hr]
  · rfl

theorem isSome_operator?_of_engaged {s : State} {o : Nat} {e : Pos × Role} (h : engagementOf s o = some e) :
    (operator? s o).isSome := by
  cases ho : operator? s o with
  | none => simp [engagementOf, ho] at h
  | some r => rfl

theorem foldl_endGrant_operators (es : List (Nat × Grant)) (s : State) :
    (es.foldl (fun s e => endGrant e.1 e.2 s) s).operators = s.operators := (quiet_foldl_endGrant s es).kept.agrees .operators (by simp)

theorem endGrants_operators (f : Grant → Bool) (s : State) : (endGrants f s).operators = s.operators :=
  foldl_endGrant_operators _ s

theorem engagementOf_of_operators {s t : State} (h : t.operators = s.operators) (o : Nat) :
    engagementOf t o = engagementOf s o := by simp only [engagementOf, operator?, h]

/-- R66: a release leaves its operator without an engagement. -/
theorem engagementOf_release (o q : Nat) (s : State) :
    engagementOf (release o s) q = if q = o then none else engagementOf s q := by
  unfold release
  split
  · rename_i engaged
    rw [engagementOf_of_operators (endGrants_operators ..),
      engagementOf_setEngagement _ _ _ _ (isSome_operator?_of_engaged engaged)]
  · rename_i free
    split
    · subst q; exact free
    · rfl

theorem endGrants_wf {f : Grant → Bool} {s : State} (h : s.grants.wf = true) : (endGrants f s).grants.wf = true := by
  have ended (es : List (Nat × Grant)) (s : State) (h : s.grants.wf = true) :
      (es.foldl (fun s e => endGrant e.1 e.2 s) s).grants.wf = true := by
    induction es generalizing s with
    | nil => exact h
    | cons e es ih => exact ih _ (Table.wf_erase h e.1)
  exact ended _ s h

theorem holdsFor_iff (t : Table Grant) (o : Nat) (k : GrantKind) (a : Nat) (p : Pos) : holdsFor t o k a p = true ↔
    ∃ e ∈ t, e.2.operator = o ∧ e.2.kind = k ∧ e.2.coversArea a = true ∧ e.2.appliesAt p = true := by
  simp [holdsFor, and_assoc]

/-- R69: an operator of whom no grant ends holds what it held. -/
theorem holdsFor_endGrants {f : Grant → Bool} {s : State} (wf : s.grants.wf = true) {o : Nat} (hf : ∀ g, f g = true → g.operator ≠ o)
    {k : GrantKind} {a : Nat} {p : Pos} (h : holdsFor s.grants o k a p = true) : holdsFor (endGrants f s).grants o k a p = true := by
  rw [holdsFor_iff] at h ⊢
  obtain ⟨⟨n, g⟩, hg, rfl, rest⟩ := h
  have left : f g = false := by
    by_contra ne
    exact hf g (by simpa using ne) rfl
  exact ⟨(n, g), Table.mem_of_get? ((endGrants_ended f s wf n g).2 ⟨Table.get?_of_mem wf hg, left⟩), rfl, rest⟩

theorem release_wf {o : Nat} {s : State} (h : s.grants.wf = true) : (release o s).grants.wf = true := by
  unfold release
  split
  · exact endGrants_wf h
  · exact h

/-- R75: a release ends no grant of another operator. -/
theorem holdsFor_release {o q : Nat} {s : State} (wf : s.grants.wf = true) (hq : q ≠ o) {k : GrantKind} {a : Nat} {p : Pos}
    (h : holdsFor s.grants q k a p = true) : holdsFor (release o s).grants q k a p = true := by
  unfold release
  split
  · refine holdsFor_endGrants (s := setEngagement o none s) wf (fun g hg => ?_) h
    simp only [Bool.and_eq_true, beq_iff_eq] at hg
    rw [hg.1.2]
    exact hq.symm
  · exact h

theorem release_positions (o : Nat) (s : State) : (release o s).positions = s.positions :=
  (quiet_release s o).kept.agrees .positions (by simp)

theorem release_areas (o : Nat) (s : State) : (release o s).areas = s.areas := (quiet_release s o).kept.agrees .areas (by simp)

/-! ### The roster -/

/-- R66: the engagements of the ACU are those of the PCU. -/
def Engaged (s : State) : Prop := ∀ o p role, engagementOf s o = some (p, role) ↔ Serves s p o role

/-- R146: no operator stands twice in a relief stack. -/
def StacksDistinct (s : State) : Prop := ∀ p, ((s.positions.get p).relief.map (·.operator)).Nodup

/-- R71: the holder of every position covers it. -/
def Covered (s : State) : Prop :=
  ∀ p o a, (s.positions.get p).holder = some o → a < 16 → areaOwner s a = p → holdsFor s.grants o .operate a p = true

/-- The engagement invariant beside that of the contexts. -/
structure Roster (s : State) : Prop where
  wf : s.grants.wf = true
  engaged : Engaged s
  distinct : StacksDistinct s
  covered : Covered s

theorem engagementInv_iff (s : State) : EngagementInv s ↔ DeskInv s ∧ Roster s :=
  ⟨fun ⟨desk, wf, engaged, distinct, covered⟩ => ⟨desk, wf, engaged, distinct, covered⟩,
    fun ⟨desk, wf, engaged, distinct, covered⟩ => ⟨desk, wf, engaged, distinct, covered⟩⟩

/-- Work that changes nobody's service: the engagements, the grants, the area map, and of every context the holder, the
incoming of a review and the operators of the relief stack. -/
structure SameStaff (s t : State) : Prop where
  engagement : ∀ o, engagementOf t o = engagementOf s o
  grants : t.grants = s.grants
  areas : t.areas = s.areas
  holder : ∀ p, (t.positions.get p).holder = (s.positions.get p).holder
  incoming : ∀ p o, Serves t p o .incoming ↔ Serves s p o .incoming
  relief : ∀ p, (t.positions.get p).relief.map (·.operator) = (s.positions.get p).relief.map (·.operator)

theorem serves_stacked_iff (s : State) (p : Pos) (o : Nat) :
    Serves s p o .stacked ↔ o ∈ (s.positions.get p).relief.map (·.operator) := by simp [Serves]

theorem SameStaff.serves {s t : State} (h : SameStaff s t) (p : Pos) (o : Nat) (role : Role) :
    Serves t p o role ↔ Serves s p o role := by
  cases role with
  | holder => simp only [Serves, h.holder]
  | incoming => exact h.incoming p o
  | stacked => rw [serves_stacked_iff, serves_stacked_iff, h.relief]

theorem SameStaff.roster {s t : State} (h : SameStaff s t) (r : Roster s) : Roster t := by
  refine ⟨by rw [h.grants]; exact r.wf, fun o p role => ?_, fun p => by rw [h.relief]; exact r.distinct p, fun p o a => ?_⟩
  · rw [h.engagement, h.serves]; exact r.engaged o p role
  · simp only [h.holder, h.grants, areaOwner, h.areas]
    exact r.covered p o a

theorem SameStaff.refl (s : State) : SameStaff s s :=
  ⟨fun _ => rfl, rfl, rfl, fun _ => rfl, fun _ _ => .rfl, fun _ => rfl⟩

theorem SameStaff.trans {s t u : State} (h : SameStaff s t) (k : SameStaff t u) : SameStaff s u :=
  ⟨fun o => (k.engagement o).trans (h.engagement o), k.grants.trans h.grants, k.areas.trans h.areas,
    fun p => (k.holder p).trans (h.holder p), fun p o => (k.incoming p o).trans (h.incoming p o),
    fun p => (k.relief p).trans (h.relief p)⟩

/-- Work outside the operators, grants and areas that leaves every context but for its items. -/
theorem SameStaff.of_desks {ps : List Part} {s t : State} (h : Kept ps s t) (desks : DesksKept s t) (ho : .operators ∉ ps)
    (hg : .grants ∉ ps) (ha : .areas ∉ ps) : SameStaff s t := by
  have state (p : Pos) := desks.state p
  have holder (p : Pos) : (t.positions.get p).holder = (s.positions.get p).holder := congrArg (·.holder) (desks p)
  have incoming (p : Pos) : (t.positions.get p).incoming = (s.positions.get p).incoming := congrArg (·.incoming) (desks p)
  have relief (p : Pos) : (t.positions.get p).relief = (s.positions.get p).relief := congrArg (·.relief) (desks p)
  exact ⟨engagementOf_of_operators (h.agrees .operators ho), h.agrees .grants hg, h.agrees .areas ha, holder,
    fun p o => by simp only [Serves, state, incoming], fun p => by rw [relief]⟩

/-- Work that leaves every context but for its items. -/
structure SameDesks (s t : State) : Prop where
  desks : DesksKept s t

theorem SameDesks.of_kept {ps : List Part} {s t : State} (h : Kept ps s t) (hp : .positions ∉ ps) : SameDesks s t := ⟨fun q => by
  rw [show t.positions = s.positions from h.agrees .positions hp]⟩

theorem SameDesks.trans {s t u : State} (h : SameDesks s t) (k : SameDesks t u) : SameDesks s u :=
  ⟨fun q => (k.desks q).trans (h.desks q)⟩

theorem SameDesks.refl (s : State) : SameDesks s s := ⟨fun _ => rfl⟩

theorem SameDesks.ite {s t u : State} {c : Prop} [Decidable c] (h : c → SameDesks s t) (k : ¬c → SameDesks s u) :
    SameDesks s (if c then t else u) := by
  split
  · exact h ‹_›
  · exact k ‹_›

theorem SameDesks.when {t u : State} {c : Prop} [Decidable c] (k : SameDesks t u) : SameDesks t (if c then u else t) :=
  .ite (fun _ => k) fun _ => .refl t

/-! ### Alarm work at the desks: items alone -/

section alarms
variable (s : State)

theorem desks_modDyn (i : Nat) (f : AlarmDyn → AlarmDyn) : SameDesks s (modDyn i f s) := .of_kept (quiet_modDyn ..).kept (by simp)

theorem desks_append (k : EntryKind) (p : Option Pos) (o i : Option Nat) (d : Nat) : SameDesks s (append k p o i d s) :=
  .of_kept (quiet_append ..).kept (by simp)

theorem desks_lifecycleReport (i : Nat) (old new : Lifecycle) : SameDesks s (lifecycleReport i old new s) :=
  ⟨(atPos_lifecycleReport _ s i old new rfl).desks⟩

theorem desks_placeReport (i : Nat) (w : Bool) : SameDesks s (placeReport i w s) := ⟨(atPos_placeReport _ s i w rfl).desks⟩

theorem desks_removeReport (i : Nat) (r : Reason) : SameDesks s (removeReport i r s) := ⟨(atPos_removeReport _ s i r rfl).desks⟩

theorem desks_raiseAlarm (i : Nat) (e : Bool) : SameDesks s (raiseAlarm i e s) := by
  simp only [raiseAlarm]
  refine (desks_modDyn ..).trans (.ite (fun _ => .refl _) fun _ => ?_)
  refine (((desks_modDyn ..).trans (.when (desks_append ..))).trans (.ite (fun _ => .refl _) fun _ => ?_)).trans
    (desks_lifecycleReport ..)
  exact .ite (fun _ => ⟨(atPos_reraiseReport _ _ i e rfl).desks⟩) fun _ => desks_placeReport ..

theorem desks_clearAlarm (i : Nat) (e : Bool) : SameDesks s (clearAlarm i e s) := by
  simp only [clearAlarm]
  refine (desks_modDyn ..).trans (.ite (fun _ => .refl _) fun _ => ?_)
  exact (((desks_modDyn ..).trans (.when (desks_append ..))).trans (.when ⟨(atPos_returnReport _ _ i rfl).desks⟩)).trans
    (desks_lifecycleReport ..)

theorem desks_acknowledge (o : Nat) (p : Pos) (i : Nat) : SameDesks s (acknowledge o p i s) := by
  unfold acknowledge
  split
  · exact (((desks_modDyn ..).trans (desks_append ..)).trans (desks_removeReport ..)).trans (desks_lifecycleReport ..)
  · exact .refl s

theorem desks_endShelve (p : Pos) (i : Nat) : SameDesks s (endShelve p i s) :=
  .trans (.when (desks_placeReport ..)) ⟨(atPos_shelfEndedReport ..).desks⟩

theorem desks_leaveShelf (p : Pos) (i : Nat) : SameDesks s (leaveShelf p i s) := .of_kept (quiet_leaveShelf ..).kept (by simp)

theorem desks_setService (i : Nat) (b : Bool) : SameDesks s (setService i b s) := .of_kept (quiet_setService ..).kept (by simp)

theorem desks_takeOutOfService (i : Nat) : SameDesks s (takeOutOfService i s) := by
  simp only [takeOutOfService]
  refine (((((desks_modDyn ..).trans (desks_setService ..)).trans (.when ?_)).trans (desks_append ..)).trans
    (.when (desks_removeReport ..))).trans (desks_lifecycleReport ..)
  exact (desks_leaveShelf ..).trans ⟨(atPos_shelfEndedReport ..).desks⟩

theorem desks_returnAlarm (i : Nat) : SameDesks s (returnAlarm i s) := by
  simp only [returnAlarm]
  exact ((((desks_modDyn ..).trans (desks_setService ..)).trans (desks_append ..)).trans (.when (desks_placeReport ..))).trans
    (desks_lifecycleReport ..)

theorem desks_maskAlarm (changed : Word) (r : State × Nat) (i : Nat) : SameDesks r.1 (maskAlarm changed r i).1 := by
  simp only [maskAlarm]
  split
  · split
    · exact desks_removeReport ..
    · exact ((desks_modDyn ..).trans (desks_removeReport ..)).trans (desks_lifecycleReport ..)
    · exact (desks_modDyn ..).trans (desks_lifecycleReport ..)
    · exact .refl _
  · exact .refl _

theorem desks_unmaskAlarm (changed : Word) (r : State × Nat) (i : Nat) : SameDesks r.1 (unmaskAlarm changed r i).1 := by
  simp only [unmaskAlarm]
  split
  · exact desks_placeReport ..
  · exact .refl _

theorem desks_foldl_fst {α β : Type} {f : State × β → α → State × β} (h : ∀ r a, SameDesks r.1 (f r a).1) (r : State × β)
    (l : List α) : SameDesks r.1 (l.foldl f r).1 := by
  induction l generalizing r with
  | nil => exact .refl _
  | cons a l ih => exact (h r a).trans (ih _)

theorem desks_ackOne (o : Nat) (p : Pos) (r : State × List (List Byte)) (i : Nat) : SameDesks r.1 (ackOne o p r i).1 := by
  simp only [ackOne]
  split
  · split
    · exact .of_kept (quiet_accessRefused ..).kept (by simp)
    · split
      · exact .refl _
      · exact desks_acknowledge ..
  · exact .refl _

theorem desks_shelve (o i d : Nat) : SameDesks s (shelve o i d s).1 := by
  simp only [shelve]
  split
  · have renewed : SameDesks s (renewShelf (ownerOf s i) o i (effectiveDuration s i d) s) :=
      .of_kept (quiet_renewShelf ..).kept (by simp)
    exact (renewed.trans (desks_append ..)).trans ⟨(atPos_shelvedReport ..).desks⟩
  · have entered (u : State) : SameDesks u (putShelf (ownerOf s i) o i (effectiveDuration s i d) u) :=
      .of_kept (quiet_modLists ..).kept (by simp)
    exact ((((desks_modDyn ..).trans (entered _)).trans (desks_append ..)).trans (.when (desks_removeReport ..))).trans
      ⟨(atPos_shelvedReport ..).desks⟩

theorem desks_unshelveAlarm (o i : Nat) : SameDesks s (unshelveAlarm o i s) :=
  ((desks_leaveShelf ..).trans (desks_append ..)).trans (desks_endShelve ..)

theorem desks_expireShelf (i : Nat) : SameDesks s (expireShelf i s) :=
  ((desks_leaveShelf ..).trans (desks_append ..)).trans (desks_endShelve ..)

theorem desks_resetLatch (o : Nat) (p : Pos) (i : Nat) : SameDesks s (resetLatch o p i s) :=
  ((desks_modDyn ..).trans (desks_append ..)).trans (desks_lifecycleReport ..)

theorem desks_expireReminder (i : Nat) : SameDesks s (expireReminder i s) := by
  simp only [expireReminder]
  have noticed (l : Link) (n : Notice) (u : State) : SameDesks u (notify l n u) := .of_kept (quiet_notify ..).kept (by simp)
  have escalated (u : State) : SameDesks u (escalate i u) := .of_kept (quiet_escalate ..).kept (by simp)
  have started (p : Pos) (r : Option Nat) (u : State) : SameDesks u (setReminder p i r u) :=
    .of_kept (quiet_setReminder ..).kept (by simp)
  exact ((((desks_modDyn ..).trans (noticed ..)).trans (.when (escalated _))).trans (started ..)).trans ⟨(atPos_addLoad ..).desks⟩

theorem desks_decay (p : Pos) : SameDesks s (decay p s) :=
  .trans ⟨(atPos_modLoad ..).desks⟩ (.ite (fun _ => .refl _) fun _ => ⟨(atPos_evaluateFlood ..).desks⟩)

theorem desks_declareBypass (o a k d slot : Nat) : SameDesks s (declareBypass o a k d slot s) := by
  simp only [declareBypass]
  have entered : SameDesks s { s with bypasses := s.bypasses.insert slot ⟨a, k, o, s.millTime, d, d, false⟩ } := ⟨fun _ => rfl⟩
  exact (entered.trans (desks_append ..)).trans (.when ⟨(atPos_appendItem ..).desks⟩)

theorem desks_endBypass (o slot : Nat) (b : Bypass) : SameDesks s (endBypass o slot b s) := by
  simp only [endBypass]
  have left : SameDesks s { s with bypasses := s.bypasses.erase slot } := ⟨fun _ => rfl⟩
  exact (left.trans (desks_append ..)).trans (.when ⟨(atPos_resolveItem ..).desks⟩)

end alarms

/-! ### Operators and grants -/

section access
variable {s : State}

/-- More grants, and the same staff. -/
theorem Roster.grants {t : State} (r : Roster s) (wf : t.grants.wf = true) (engagement : ∀ o, engagementOf t o = engagementOf s o)
    (positions : t.positions = s.positions) (areas : t.areas = s.areas)
    (kept : ∀ o a p, (s.positions.get p).holder = some o → a < 16 → areaOwner s a = p → holdsFor s.grants o .operate a p = true →
      holdsFor t.grants o .operate a p = true) : Roster t := by
  refine ⟨wf, fun o p role => ?_, fun p => by rw [positions]; exact r.distinct p, fun p o a hold low own => ?_⟩
  · rw [engagement]
    have same : Serves t p o role ↔ Serves s p o role := by cases role <;> simp only [Serves, positions]
    rw [same]
    exact r.engaged o p role
  · rw [positions] at hold
    simp only [areaOwner, areas] at own
    exact kept o a p hold low own (r.covered p o a hold low own)

theorem mem_insert_of_get?_none {α : Type} {t : Table α} {n : Nat} {x : α} (h : t.get? n = none) {e : Nat × α} (he : e ∈ t) :
    e ∈ t.insert n x := by
  induction t with
  | nil => cases he
  | cons y t ih =>
    obtain ⟨j, z⟩ := y
    rw [Table.get?_cons] at h
    split at h
    · cases h
    · rename_i ne
      simp only [Table.insert]
      split
      · exact List.mem_cons_of_mem _ he
      · split
        · omega
        · rcases List.mem_cons.1 he with rfl | he
          · exact List.mem_cons_self ..
          · exact List.mem_cons_of_mem _ (ih h he)

theorem roster_newGrant {g : Grant} (h : (freeSlot? 256 s.grants).isSome) (r : Roster s) : Roster (newGrant g s) := by
  obtain ⟨n, hn⟩ := Option.isSome_iff_exists.1 h
  have empty := (freeSlot?_some hn).2.1
  have written : (newGrant g s).grants = s.grants.insert n g := by
    rw [newGrant, Config.grantSlots, hn]; rfl
  refine r.grants (t := newGrant g s) ?_ (fun o => rfl) rfl rfl fun o a p _ _ _ h => ?_
  · rw [written]; exact Table.wf_insert r.wf ..
  · rw [written]
    rw [holdsFor_iff] at h ⊢
    obtain ⟨e, he, rest⟩ := h
    exact ⟨e, mem_insert_of_get?_none empty he, rest⟩

/-- R66: an operator holds at most one position. -/
theorem Roster.holder_unique (r : Roster s) {o : Nat} {p q : Pos} (hp : (s.positions.get p).holder = some o)
    (hq : (s.positions.get q).holder = some o) : p = q := by
  have ep := (r.engaged o p .holder).2 hp
  have eq := (r.engaged o q .holder).2 hq
  rw [ep] at eq
  cases eq
  rfl

theorem Pos.mem_all (p : Pos) : p ∈ Pos.all := by cases p <;> decide

/-- R72: a grant that is not in use may end. -/
theorem roster_endGrant {n : Nat} (hd : DeskInv s) (hg : (s.grants.get? n).isSome)
    (h : inUse? s n (grantIn s n) = none) (r : Roster s) : Roster (endGrant n (grantIn s n) s) := by
  refine r.grants (t := endGrant n (grantIn s n) s) (Table.wf_erase r.wf n) (fun o => rfl) rfl rfl fun o a p hold low own held => ?_
  obtain ⟨g, hget⟩ := Option.isSome_iff_exists.1 hg
  have hgi : grantIn s n = g := by rw [grantIn, hget, Option.getD_some]
  rw [hgi] at h
  have erased : (endGrant n (grantIn s n) s).grants = s.grants.erase n := rfl
  rw [erased]
  by_cases used : g.operator = o ∧ g.kind = .operate
  · have staffed : (s.positions.get p).state ≠ .vacant := fun vacant => by
      rw [((hd p).1).2 vacant] at hold
      cases hold
    obtain ⟨q, hq⟩ : ∃ q, (Pos.all.find? fun p => (s.positions.get p).state != .vacant && (s.positions.get p).holder == some g.operator) =
        some q := by
      rw [← Option.isSome_iff_exists, List.find?_isSome]
      exact ⟨p, Pos.mem_all p, by simp [staffed, hold, used.1]⟩
    have hq' := List.find?_some hq
    simp only [Bool.and_eq_true, beq_iff_eq] at hq'
    have same := r.holder_unique hold (used.1 ▸ hq'.2)
    subst same
    simp only [inUse?, used.2, beq_self_eq_true, if_true, hq, uncovered?, List.find?_eq_none] at h
    have := h a (by simp [ownedAreas, low, own])
    simpa [used.1] using this
  · rw [holdsFor_iff] at held ⊢
    obtain ⟨⟨m, x⟩, hx, op, kind, rest⟩ := held
    refine ⟨(m, x), List.mem_filter.2 ⟨hx, ?_⟩, op, kind, rest⟩
    by_contra eq
    have hm : m = n := by simpa using eq
    subst hm
    have := Table.get?_of_mem r.wf hx
    rw [hget, Option.some.injEq] at this
    subst this
    exact used ⟨op, kind⟩

theorem sameStaff_modOperator {o : Nat} {f : Operator → Operator} (hf : ∀ r, (f r).engagement = r.engagement) :
    SameStaff s (modOperator o f s) :=
  ⟨fun q => engagementOf_modOperator o q f s hf, rfl, rfl, fun _ => rfl, fun _ _ => .rfl, fun _ => rfl⟩

theorem sameStaff_badgeCheck (o : Nat) (b : Word) (s : State) : SameStaff s (badgeCheck o b s).1 := by
  rcases badgeCheck_onlyChecked o b s with same | ⟨f, hf, changed⟩
  · rw [same]; exact .refl s
  · rw [changed]
    exact sameStaff_modOperator fun r => by
      have same := congrArg Operator.engagement (hf r)
      exact same

/-- R65: an operator who is written or removed is not engaged. -/
theorem roster_defineOperator {o present : Nat} {b : Word} {level : Nat} (free : engagementOf s o = none) (r : Roster s) :
    Roster (defineOperator o present b level s) := by
  have nobody (p : Pos) : (s.positions.get p).holder ≠ some o := fun hold => by
    have := (r.engaged o p .holder).2 hold
    rw [free] at this
    cases this
  unfold defineOperator
  split
  · refine r.grants r.wf (fun q => ?_) rfl rfl fun _ _ _ _ _ _ h => h
    simp only [engagementOf, operator?]
    by_cases hq : q = o
    · subst hq
      split
      · rename_i range
        simp only [engagementOf, operator?, range, if_true] at free
        simp only [Table.get?_insert_self, presentRecord, Option.bind_some, operator?, range, if_true]
      · rfl
    · rw [Table.get?_insert_ne _ _ hq]
  · split
    · refine r.grants (t := removeOperator o s) (endGrants_wf r.wf) (fun q => ?_) ?_ ?_ fun q a p hold _ _ h => ?_
      · rw [removeOperator, engagementOf_of_operators (endGrants_operators ..)]
        by_cases hq : q = o
        · subst hq
          rw [free]
          simp [engagementOf, operator?]
        · simp only [engagementOf, operator?, Table.get?_erase_ne _ hq]
      · exact (quiet_endGrants ..).kept.agrees .positions (by simp)
      · exact (quiet_endGrants ..).kept.agrees .areas (by simp)
      · refine holdsFor_endGrants (s := { s with operators := s.operators.erase o }) r.wf (fun g hg => ?_) h
        rintro rfl
        rw [beq_iff_eq] at hg
        exact nobody p (hg ▸ hold)
    · exact r

end access

end Sys2Proof.Machine
end

section
/-! PROOFS. The roster over the work at the desks. Settles `DeskInvIsKept`. -/

namespace Sys2Proof.Machine

/-! ### Releases -/

/-- The operators `os` have lost their engagements and grants of theirs may have ended; every other operator keeps both. -/
structure Released (os : List Nat) (s t : State) : Prop where
  engagement : ∀ q, engagementOf t q = if q ∈ os then none else engagementOf s q
  positions : t.positions = s.positions
  areas : t.areas = s.areas
  wf : s.grants.wf = true → t.grants.wf = true
  holds : s.grants.wf = true → ∀ q ∉ os, ∀ k a p, holdsFor s.grants q k a p = true → holdsFor t.grants q k a p = true

theorem Released.refl (s : State) : Released [] s s :=
  ⟨fun q => by simp, rfl, rfl, id, fun _ _ _ _ _ _ h => h⟩

theorem Released.trans {os rs : List Nat} {s t u : State} (h : Released os s t) (k : Released rs t u) : Released (os ++ rs) s u := by
  refine ⟨fun q => ?_, k.positions.trans h.positions, k.areas.trans h.areas, fun w => k.wf (h.wf w), fun w q hq n a p held => ?_⟩
  · rw [k.engagement, h.engagement]
    by_cases h1 : q ∈ os <;> by_cases h2 : q ∈ rs <;> simp [h1, h2]
  · rw [List.mem_append, not_or] at hq
    exact k.holds (h.wf w) q hq.2 n a p (h.holds w q hq.1 n a p held)

theorem released_release (o : Nat) (s : State) : Released [o] s (release o s) :=
  ⟨fun q => by simpa using engagementOf_release o q s, release_positions o s, release_areas o s, release_wf,
    fun w _ hq _ _ _ held => holdsFor_release w (by simpa using hq) held⟩

theorem Released.append {os : List Nat} {s t : State} (h : Released os s t) (k : EntryKind) (p : Option Pos) (o i : Option Nat)
    (d : Nat) : Released os s (append k p o i d t) := ⟨h.engagement, h.positions, h.areas, h.wf, h.holds⟩

theorem released_foldl {f : State → Nat → State} (h : ∀ s o, Released [o] s (f s o)) (s : State) (os : List Nat) :
    Released os s (os.foldl f s) := by
  induction os generalizing s with
  | nil => exact .refl s
  | cons o os ih => exact (h s o).trans (ih _)

theorem released_returnRelease (p : Pos) (d : Nat) (s : State) (o : Nat) : Released [o] s (returnRelease p d s o) :=
  (released_release o s).append ..

theorem released_clearRelease (p : Pos) (c : Nat) (s : State) (o : Nat) : Released [o] s (clearRelease p c s o) :=
  (released_release o s).append ..

/-! ### New staff at one position -/

/-- The roster after work at one position: nobody who serves elsewhere is touched, and the services at the position are
the engagements there. -/
theorem Roster.restaff {s t : State} (r : Roster s) (p : Pos) (wf : t.grants.wf = true) (areas : t.areas = s.areas)
    (others : ∀ q, q ≠ p → t.positions.get q = s.positions.get q)
    (elsewhere : ∀ o q role, q ≠ p → (engagementOf t o = some (q, role) ↔ engagementOf s o = some (q, role)))
    (here : ∀ o role, engagementOf t o = some (p, role) ↔ Serves t p o role)
    (distinct : ((t.positions.get p).relief.map (·.operator)).Nodup)
    (kept : ∀ o q a, q ≠ p → (s.positions.get q).holder = some o → holdsFor s.grants o .operate a q = true →
      holdsFor t.grants o .operate a q = true)
    (covered : ∀ o a, (t.positions.get p).holder = some o → a < 16 → areaOwner s a = p → holdsFor t.grants o .operate a p = true) :
    Roster t := by
  refine ⟨wf, fun o q role => ?_, fun q => ?_, fun q o a hold low own => ?_⟩
  · by_cases hq : q = p
    · subst hq; exact here o role
    · have same : Serves t q o role ↔ Serves s q o role := by cases role <;> simp only [Serves, others q hq]
      rw [elsewhere o q role hq, same]
      exact r.engaged o q role
  · by_cases hq : q = p
    · subst hq; exact distinct
    · rw [others q hq]; exact r.distinct q
  · simp only [areaOwner, areas] at own
    by_cases hq : q = p
    · subst hq; exact covered o a hold low own
    · rw [others q hq] at hold
      exact kept o q a hq hold (r.covered q o a hold low own)

theorem uncovered?_eq_none {s : State} {o : Nat} {p : Pos} :
    uncovered? s s.grants o p = none ↔ ∀ a < 16, areaOwner s a = p → holdsFor s.grants o .operate a p = true := by
  simp [uncovered?, ownedAreas, and_imp]

/-- The services at a position, read from its context. -/
theorem serves_at {t : State} {p : Pos} {c : PosContext} (h : t.positions.get p = c) (o : Nat) (role : Role) :
    Serves t p o role ↔ match role with
      | .holder => c.holder = some o
      | .incoming => c.state = .review ∧ c.incoming = some o
      | .stacked => o ∈ c.relief.map (·.operator) := by
  subst h
  cases role <;> simp [Serves]

section desks
variable {s : State} {p : Pos} {o : Nat}

theorem engagementOf_modPos (p : Pos) (f : PosContext → PosContext) (s : State) (q : Nat) :
    engagementOf (modPos p f s) q = engagementOf s q := rfl

/-- R93. -/
theorem roster_signOn (d : DeskInv s) (vacant : (s.positions.get p).state = .vacant) (known : (operator? s o).isSome)
    (free : engagementOf s o = none) (covers : uncovered? s s.grants o p = none) (r : Roster s) : Roster (signOn o p s) := by
  obtain ⟨holder, -, -, -, relief⟩ := d p
  have nobody : (s.positions.get p).holder = none := holder.2 vacant
  have unrelieved : (s.positions.get p).relief = [] := by
    by_contra ne
    rw [relief ne] at vacant
    cases vacant
  have engagement (q : Nat) : engagementOf (signOn o p s) q = if q = o then some (p, .holder) else engagementOf s q :=
    engagementOf_setEngagement o q _ (modPos p _ s) known
  have context : (signOn o p s).positions.get p = { s.positions.get p with holder := some o, state := .staffed } :=
    PerPos.get_set_self ..
  refine r.restaff p r.wf rfl (fun q hq => PerPos.get_set_ne _ _ hq) (fun q w role ne => ?_) (fun q role => ?_) ?_
    (fun _ _ _ _ _ h => h) (fun q a hold low own => ?_)
  · rw [engagement]
    split
    · subst q; simp [free, ne.symm]
    · rfl
  · rw [engagement, serves_at context]
    have before := r.engaged q p role
    rw [serves_at rfl] at before
    split
    · subst q; cases role <;> simp [unrelieved]
    · rename_i hq
      rw [before]
      cases role <;> simp [unrelieved, nobody, vacant, Ne.symm hq]
  · simp [context, unrelieved]
  · rw [context, Option.some.injEq] at hold
    subst hold
    exact uncovered?_eq_none.1 covers a low own

/-- A context changed in nothing that says who serves. -/
theorem sameStaff_modPos {f : PosContext → PosContext} (holder : (f (s.positions.get p)).holder = (s.positions.get p).holder)
    (incoming : ∀ o, (f (s.positions.get p)).state = .review ∧ (f (s.positions.get p)).incoming = some o ↔
      (s.positions.get p).state = .review ∧ (s.positions.get p).incoming = some o)
    (relief : (f (s.positions.get p)).relief.map (·.operator) = (s.positions.get p).relief.map (·.operator)) :
    SameStaff s (modPos p f s) := by
  refine ⟨fun _ => rfl, rfl, rfl, fun q => ?_, fun q o => ?_, fun q => ?_⟩ <;> simp only [Serves, modPos_get] <;> split
  · subst q; exact holder
  · rfl
  · subst q; exact incoming o
  · rfl
  · subst q; exact relief
  · rfl

theorem sameStaff_items (p : Pos) (items : List Item) (s : State) : SameStaff s (modPos p (fun c => { c with items := items }) s) :=
  sameStaff_modPos rfl (fun _ => .rfl) rfl

theorem sameStaff_append (k : EntryKind) (q : Option Pos) (n i : Option Nat) (d : Nat) (s : State) :
    SameStaff s (append k q n i d s) := .of_desks (quiet_append ..).kept (desks_append ..).desks (by simp) (by simp) (by simp)

theorem sameStaff_handoverNotices (p : Pos) (c : HandoverChange) (n : Nat) (e : Option EndReason) (s : State) :
    SameStaff s (handoverNotices p c n e s) :=
  have kept := (quiet_handoverNotices s p c n e).kept
  .of_desks kept (SameDesks.of_kept kept (by simp)).desks (by simp) (by simp) (by simp)

theorem Roster.engagement_holder (r : Roster s) (h : (s.positions.get p).holder = some o) :
    engagementOf s o = some (p, .holder) := (r.engaged o p .holder).2 h

theorem Roster.engagement_stacked (r : Roster s) (h : o ∈ (s.positions.get p).relief.map (·.operator)) :
    engagementOf s o = some (p, .stacked) := (r.engaged o p .stacked).2 ((serves_stacked_iff s p o).2 h)

/-- A position that is not vacant has a holder. -/
theorem holder_of_staffed (d : DeskInv s) (h : (s.positions.get p).state ≠ .vacant) :
    (s.positions.get p).holder = some (holderOf s p) := by
  obtain ⟨x, hx⟩ := Option.ne_none_iff_exists'.1 fun none => h ((d p).1.1 none)
  rw [holderOf, hx, Option.getD_some]

theorem relief_nil (d : DeskInv s) (h : (s.positions.get p).state ≠ .staffed) : (s.positions.get p).relief = [] :=
  not_not.1 fun ne => h ((d p).2.2.2.2 ne)

/-- R94. -/
theorem roster_signOff (d : DeskInv s) (staffed : (s.positions.get p).state = .staffed) (unrelieved : (s.positions.get p).relief = [])
    (r : Roster s) : Roster (signOff p s) := by
  have hold := holder_of_staffed d (p := p) (by simp [staffed])
  have released := released_release (holderOf s p) (modPos p (fun c => { c with holder := none, state := .vacant }) s)
  have context : (signOff p s).positions.get p = { s.positions.get p with holder := none, state := .vacant } :=
    (congrArg (·.get p) released.positions).trans (PerPos.get_set_self ..)
  have engagement (q : Nat) : engagementOf (signOff p s) q = if q = holderOf s p then none else engagementOf s q :=
    engagementOf_release (holderOf s p) q (modPos p _ s)
  refine r.restaff p (released.wf r.wf) released.areas
    (fun q hq => (congrArg (·.get q) released.positions).trans (PerPos.get_set_ne _ _ hq)) (fun q w role ne => ?_)
    (fun q role => ?_) ?_ (fun q w a ne there held => released.holds r.wf q ?_ _ _ _ held) (fun q a hold => ?_)
  · rw [engagement]
    split
    · subst q; simp [r.engagement_holder hold, ne.symm]
    · rfl
  · have before := r.engaged q p role
    rw [serves_at rfl] at before
    rw [engagement, serves_at context]
    split
    · cases role <;> simp [unrelieved]
    · rename_i hq
      rw [before]
      cases role <;> simp [unrelieved, staffed, hold, Ne.symm hq]
  · simp [context, unrelieved]
  · rw [List.mem_singleton]
    rintro rfl
    exact ne (r.holder_unique there hold)
  · rw [context] at hold
    cases hold

/-- R124: an offer names somebody who does not serve yet. -/
theorem sameStaff_offer (staffed : (s.positions.get p).state = .staffed) : SameStaff s (offer p o s) :=
  ((sameStaff_modPos rfl (fun _ => by simp [staffed]) rfl).trans (sameStaff_append ..)).trans (sameStaff_handoverNotices ..)

/-- R122, R145: the incoming of a review is released, and the position stays with its holder. -/
theorem roster_endReview {f : PosContext → PosContext} {n : Nat} (d : DeskInv s) (review : (s.positions.get p).state = .review)
    (named : (s.positions.get p).incoming = some n) (hf : ∀ c, (f c).holder = c.holder ∧ (f c).relief = c.relief ∧ (f c).state = .staffed)
    (r : Roster s) : Roster (release n (modPos p f s)) := by
  have unrelieved := relief_nil d (p := p) (by simp [review])
  have engaged : engagementOf s n = some (p, .incoming) := (r.engaged n p .incoming).2 ⟨review, named⟩
  have released := released_release n (modPos p f s)
  have context : (release n (modPos p f s)).positions.get p = f (s.positions.get p) :=
    (congrArg (·.get p) released.positions).trans (PerPos.get_set_self ..)
  obtain ⟨holder, relief, staffed⟩ := hf (s.positions.get p)
  have engagement (q : Nat) : engagementOf (release n (modPos p f s)) q = if q = n then none else engagementOf s q :=
    engagementOf_release n q (modPos p f s)
  have apart {q : Nat} {w : Pos} (h : (s.positions.get w).holder = some q) : q ≠ n := by
    rintro rfl
    rw [r.engagement_holder h] at engaged
    cases engaged
  refine r.restaff p (released.wf r.wf) released.areas
    (fun q hq => (congrArg (·.get q) released.positions).trans (PerPos.get_set_ne _ _ hq)) (fun q w role ne => ?_)
    (fun q role => ?_) ?_ (fun q w a ne there held => released.holds r.wf q ?_ _ _ _ held) (fun q a hold low own => ?_)
  · rw [engagement]
    split
    · subst q; simp [engaged, ne.symm]
    · rfl
  · have before := r.engaged q p role
    rw [serves_at rfl] at before
    rw [engagement, serves_at context]
    split
    · subst q
      cases role with
      | holder => simpa [holder] using fun h => apart h rfl
      | incoming => simp [staffed]
      | stacked => simp [relief, unrelieved]
    · rename_i hq
      rw [before]
      cases role <;> simp [relief, unrelieved, staffed, holder, named, Ne.symm hq]
  · simp [context, relief, unrelieved]
  · simpa using apart there
  · rw [context, holder] at hold
    exact released.holds r.wf q (by simpa using apart hold) _ _ _ (r.covered p q a hold low own)

/-- R122. -/
theorem roster_endHandover {e : EndReason} {by' : Option Nat} (d : DeskInv s)
    (open' : (s.positions.get p).state = .offered ∨ (s.positions.get p).state = .review) (r : Roster s) :
    Roster (endHandover p e by' s) := by
  simp only [endHandover]
  refine (sameStaff_handoverNotices ..).roster ((sameStaff_append ..).roster ?_)
  obtain ⟨n, named⟩ := Option.isSome_iff_exists.1 ((d p).2.1.2 open')
  split
  · rename_i review
    rw [named, Option.getD_some]
    exact (sameStaff_items ..).roster (roster_endReview d review named (fun _ => ⟨rfl, rfl, rfl⟩) r)
  · rename_i other
    exact (sameStaff_modPos rfl (fun _ => by simp [other]) rfl).roster r

/-- R145. -/
theorem roster_dropHandover (d : DeskInv s) (r : Roster s) : Roster (dropHandover s p) := by
  simp only [dropHandover]
  split
  · rename_i open'
    obtain ⟨n, named⟩ := Option.isSome_iff_exists.1 ((d p).2.1.2 open')
    split
    · rename_i review
      rw [named, Option.getD_some]
      exact (sameStaff_items ..).roster (roster_endReview d review named (fun _ => ⟨rfl, rfl, rfl⟩) r)
    · rename_i other
      exact (sameStaff_modPos rfl (fun _ => by simp [other]) rfl).roster r
  · exact r

/-- R127. -/
theorem roster_take (d : DeskInv s) (offered : (s.positions.get p).state = .offered) (named : (s.positions.get p).incoming = some o)
    (known : (operator? s o).isSome) (free : engagementOf s o = none) (r : Roster s) : Roster (take o p s) := by
  have unrelieved := relief_nil d (p := p) (by simp [offered])
  simp only [take]
  refine (sameStaff_handoverNotices ..).roster ((sameStaff_append ..).roster ?_)
  refine (sameStaff_modPos rfl (fun _ => .rfl) rfl).roster ?_
  generalize ht : setEngagement o (some (p, .incoming)) (modPos p (fun c => { c with timer := none, state := .review }) s) = t
  have engagement (q : Nat) : engagementOf t q = if q = o then some (p, .incoming) else engagementOf s q :=
    ht ▸ engagementOf_setEngagement o q _ (modPos p _ s) known
  have context : t.positions.get p = { s.positions.get p with timer := none, state := .review } := ht ▸ PerPos.get_set_self ..
  have others (q : Pos) (hq : q ≠ p) : t.positions.get q = s.positions.get q := ht ▸ PerPos.get_set_ne _ _ hq
  have areas : t.areas = s.areas := ht ▸ rfl
  have grants : t.grants = s.grants := ht ▸ rfl
  refine r.restaff p (grants ▸ r.wf) areas others (fun q w role ne => ?_) (fun q role => ?_) ?_
    (fun _ _ _ _ _ h => grants ▸ h) (fun q a hold low own => ?_)
  · rw [engagement]
    split
    · subst q; simp [free, ne.symm]
    · rfl
  · have before := r.engaged q p role
    rw [serves_at rfl] at before
    rw [engagement, serves_at context]
    split
    · subst q
      rw [free] at before
      cases role with
      | holder => simpa using before
      | incoming => simp [named]
      | stacked => simp [unrelieved]
    · rename_i hq
      rw [before]
      cases role <;> simp [unrelieved, offered, named, Ne.symm hq]
  · simp [context, unrelieved]
  · rw [context] at hold
    exact grants ▸ r.covered p q a hold low own

/-- R141. -/
theorem roster_accept (d : DeskInv s) (engaged : engagementOf s o = some (p, .incoming)) (covers : uncovered? s s.grants o p = none)
    (r : Roster s) : Roster (accept o p s) := by
  obtain ⟨review, named⟩ : (s.positions.get p).state = .review ∧ (s.positions.get p).incoming = some o :=
    (r.engaged o p .incoming).1 engaged
  have unrelieved := relief_nil d (p := p) (by simp [review])
  have hold := holder_of_staffed d (p := p) (by simp [review])
  simp only [accept]
  refine (sameStaff_handoverNotices ..).roster ((sameStaff_append ..).roster ((sameStaff_modPos rfl (fun _ => .rfl) rfl).roster ?_))
  generalize hu : setEngagement o (some (p, .holder)) (modPos p (fun c =>
    { c with timer := none, holder := some o, incoming := none, state := .staffed }) s) = u
  have entered (q : Nat) : engagementOf u q = if q = o then some (p, .holder) else engagementOf s q :=
    hu ▸ engagementOf_setEngagement o q _ (modPos p _ s) (isSome_operator?_of_engaged engaged)
  have released := released_release (holderOf s p) u
  have positions : u.positions = s.positions.set p { s.positions.get p with
    timer := none, holder := some o, incoming := none, state := .staffed } := hu ▸ rfl
  have areas : u.areas = s.areas := hu ▸ rfl
  have grants : u.grants = s.grants := hu ▸ rfl
  have wf : u.grants.wf = true := grants ▸ r.wf
  have context : (release (holderOf s p) u).positions.get p = { s.positions.get p with
      timer := none, holder := some o, incoming := none, state := .staffed } := by
    rw [released.positions, positions]; exact PerPos.get_set_self ..
  have outgoing := r.engagement_holder hold
  have ne : o ≠ holderOf s p := by
    intro same
    rw [← same, engaged] at outgoing
    cases outgoing
  have engagement (q : Nat) : engagementOf (release (holderOf s p) u) q =
      if q = holderOf s p then none else if q = o then some (p, .holder) else engagementOf s q := by
    rw [released.engagement q, entered]
    simp
  refine r.restaff p (released.wf wf) (released.areas.trans areas) (fun q hq => ?_) (fun q w role ne => ?_)
    (fun q role => ?_) ?_ (fun q w a ne there held => released.holds wf q ?_ _ _ _ (grants ▸ held)) (fun q a now low own => ?_)
  · rw [released.positions, positions, PerPos.get_set_ne _ _ hq]
  · rw [engagement]
    split_ifs with h1 h2
    · subst q; simp [outgoing, ne.symm]
    · subst q; simp [engaged, ne.symm]
    · rfl
  · have before := r.engaged q p role
    rw [serves_at rfl] at before
    rw [engagement, serves_at context]
    split_ifs with h1 h2
    · subst q; cases role <;> simp [unrelieved, ne]
    · subst q; cases role <;> simp [unrelieved]
    · rw [before]
      cases role <;> simp [unrelieved, hold, named, Ne.symm h1, Ne.symm h2]
  · simp [context, unrelieved]
  · rw [List.mem_singleton]
    rintro rfl
    exact ne (r.holder_unique there hold)
  · rw [context, Option.some.injEq] at now
    subst now
    exact released.holds wf o (by simpa using ne) _ _ _ (grants ▸ uncovered?_eq_none.1 covers a low own)

/-- R149. -/
theorem roster_takeRelief (d : DeskInv s) (staffed : (s.positions.get p).state = .staffed) (known : (operator? s o).isSome)
    (free : engagementOf s o = none) (covers : uncovered? s s.grants o p = none) (r : Roster s) : Roster (takeRelief o p s) := by
  have hold := holder_of_staffed d (p := p) (by simp [staffed])
  have former := r.engagement_holder hold
  have ne : o ≠ holderOf s p := by
    intro same
    rw [← same, free] at former
    cases former
  simp only [takeRelief, setEngagement_modPos, modPos_modPos]
  refine (sameStaff_append ..).roster ?_
  generalize hg : (_ ∘ _ : PosContext → PosContext) = g
  have holder : (g (s.positions.get p)).holder = some o := hg ▸ rfl
  have state : (g (s.positions.get p)).state = .staffed := by rw [← staffed, ← hg]; rfl
  obtain ⟨f, hf, relief⟩ : ∃ f : ReliefFrame, f.operator = holderOf s p ∧
      (g (s.positions.get p)).relief = (s.positions.get p).relief ++ [f] := hg ▸ ⟨_, rfl, rfl⟩
  have known' : (operator? (setEngagement (holderOf s p) (some (p, .stacked)) s) o).isSome := by
    rw [setEngagement, operator?_modOperator, if_neg ne]
    exact known
  have engagement (q : Nat) : engagementOf (modPos p g (setEngagement o (some (p, .holder))
      (setEngagement (holderOf s p) (some (p, .stacked)) s))) q =
      if q = o then some (p, .holder) else if q = holderOf s p then some (p, .stacked) else engagementOf s q := by
    rw [engagementOf_modPos, engagementOf_setEngagement o q _ _ known',
      engagementOf_setEngagement _ q _ _ (isSome_operator?_of_engaged former)]
  have context : (modPos p g (setEngagement o (some (p, .holder)) (setEngagement (holderOf s p) (some (p, .stacked)) s))).positions.get p =
      g (s.positions.get p) := modPos_get_self ..
  refine r.restaff p r.wf rfl (fun q hq => PerPos.get_set_ne _ _ hq) (fun q w role hw => ?_) (fun q role => ?_) ?_
    (fun _ _ _ _ _ h => h) (fun q a now low own => ?_)
  · rw [engagement]
    split_ifs with h1 h2
    · subst q; simp [free, hw.symm]
    · subst q; simp [former, hw.symm]
    · rfl
  · have before := r.engaged q p role
    rw [serves_at rfl] at before
    rw [engagement, serves_at context]
    split_ifs with h1 h2
    · subst q
      rw [free] at before
      cases role with
      | holder => simp [holder]
      | incoming => simp [state]
      | stacked => simpa [relief, hf, ne] using before
    · subst q
      cases role <;> simp [holder, relief, hf, state, ne]
    · rw [before]
      cases role <;> simp [hold, holder, relief, hf, staffed, state, Ne.symm h1, h2, Ne.symm h2]
  · rw [context, relief]
    have free' : holderOf s p ∉ (s.positions.get p).relief.map (·.operator) := fun h => by
      have := r.engagement_stacked h
      rw [former] at this
      cases this
    rw [List.map_append, List.nodup_append]
    refine ⟨r.distinct p, List.nodup_singleton _, fun a ha b hb => ?_⟩
    rw [show b = holderOf s p by simpa [hf] using hb]
    exact fun same => free' (same ▸ ha)
  · rw [context, holder, Option.some.injEq] at now
    subst now
    exact uncovered?_eq_none.1 covers a low own

/-- R151: the stack around the frame of an operator who is stacked. -/
theorem relief_split (h : o ∈ (s.positions.get p).relief.map (·.operator)) : ∃ f : ReliefFrame, f.operator = o ∧
    (s.positions.get p).relief = (s.positions.get p).relief.take (frameOf? s p o) ++
      f :: (s.positions.get p).relief.drop (frameOf? s p o + 1) := by
  have found : frameOf? s p o < (s.positions.get p).relief.length := by
    rw [frameOf?, List.findIdx_lt_length]
    simpa using h
  refine ⟨(s.positions.get p).relief[frameOf? s p o], ?_, ?_⟩
  · have := List.findIdx_getElem (w := found)
    rwa [beq_iff_eq] at this
  · rw [List.cons_getElem_drop_succ, List.take_append_drop]

/-- R151. -/
theorem roster_returnRelief (d : DeskInv s) (stacked : o ∈ (s.positions.get p).relief.map (·.operator))
    (covers : uncovered? s s.grants o p = none) (r : Roster s) : Roster (returnRelief o p s) := by
  have staffed : (s.positions.get p).state = .staffed := (d p).2.2.2.2 fun h => by simp [h] at stacked
  have hold := holder_of_staffed d (p := p) (by simp [staffed])
  have held := r.engagement_holder hold
  have engaged := r.engagement_stacked stacked
  obtain ⟨f, hf, parts⟩ := relief_split stacked
  have nodup := r.distinct p
  simp only [returnRelief]
  generalize hd : o + (if frameOverdue s p (frameOf? s p o) = true then 32768 else 0) = detail
  generalize hn : frameOf? s p o = n at parts ⊢
  have released := released_foldl (released_returnRelease p detail) s (returnReleased s p n)
  generalize (returnReleased s p n).foldl (returnRelease p detail) s = u at released
  generalize above : (s.positions.get p).relief.drop (n + 1) = upper at parts
  generalize below : (s.positions.get p).relief.take n = lower at parts
  rw [parts] at nodup
  simp only [List.map_append, List.map_cons, hf, List.nodup_append, List.nodup_cons, List.mem_cons, List.mem_map] at nodup
  obtain ⟨lower_nodup, ⟨o_upper, upper_nodup⟩, apart⟩ := nodup
  have mem_released (q : Nat) : q ∈ returnReleased s p n ↔ q = holderOf s p ∨ ∃ g ∈ upper, g.operator = q := by
    simp [returnReleased, above]
  have ne : o ≠ holderOf s p := by
    intro same
    rw [← same, engaged] at held
    cases held
  have kept : o ∉ returnReleased s p n := by
    rw [mem_released]
    exact fun h => h.elim ne o_upper
  have context : (setEngagement o (some (p, .holder)) (modPos p (fun c => { c with
      relief := c.relief.take n, holder := some o }) u)).positions.get p =
      { s.positions.get p with relief := lower, holder := some o } := by
    rw [← below, ← released.positions]; exact PerPos.get_set_self ..
  have engagement (q : Nat) : engagementOf (setEngagement o (some (p, .holder)) (modPos p (fun c => { c with
      relief := c.relief.take n, holder := some o }) u)) q =
      if q = o then some (p, .holder) else if q ∈ returnReleased s p n then none else engagementOf s q := by
    rw [← released.engagement]
    refine engagementOf_setEngagement o q _ (modPos p _ u) (isSome_operator?_of_engaged (e := (p, .stacked)) ?_)
    rw [engagementOf_modPos, released.engagement, if_neg kept, engaged]
  have stackedHere (g : ReliefFrame) (hg : g ∈ upper) : engagementOf s g.operator = some (p, .stacked) :=
    r.engagement_stacked (List.mem_map.2 ⟨g, by rw [parts]; simp [hg], rfl⟩)
  have stackedBelow (g : ReliefFrame) (hg : g ∈ lower) : engagementOf s g.operator = some (p, .stacked) :=
    r.engagement_stacked (List.mem_map.2 ⟨g, by rw [parts]; simp [hg], rfl⟩)
  refine r.restaff p (released.wf r.wf) released.areas (fun q hq => ?_) (fun q w role hw => ?_) (fun q role => ?_) ?_
    (fun q w a hw there h => released.holds r.wf q ?_ _ _ _ h) (fun q a now low own => ?_)
  · exact (PerPos.get_set_ne _ _ hq).trans (congrArg (·.get q) released.positions)
  · rw [engagement]
    split_ifs with h1 h2
    · subst q; simp [engaged, hw.symm]
    · rcases (mem_released q).1 h2 with rfl | ⟨g, hg, rfl⟩
      · simp [held, hw.symm]
      · simp [stackedHere g hg, hw.symm]
    · rfl
  · have before := r.engaged q p role
    rw [serves_at rfl, parts] at before
    rw [engagement, serves_at context]
    split_ifs with h1 h2
    · subst q
      cases role with
      | holder => simp
      | incoming => simp [staffed]
      | stacked => simpa using fun g hg same => apart _ ⟨g, hg, rfl⟩ _ (.inl rfl) same
    · cases role with
      | holder => simpa using Ne.symm h1
      | incoming => simp [staffed]
      | stacked =>
        rcases (mem_released q).1 h2 with rfl | ⟨g, hg, rfl⟩
        · suffices ∀ g ∈ lower, g.operator ≠ holderOf s p by simpa
          intro g hg same
          have := stackedBelow g hg
          rw [same, held] at this
          cases this
        · simpa using fun f' hf' => apart _ ⟨f', hf', rfl⟩ _ (.inr ⟨g, hg, rfl⟩)
    · rw [before]
      rw [mem_released, not_or] at h2
      cases role with
      | holder => simp [hold, Ne.symm h1, Ne.symm h2.1]
      | incoming => simp [staffed]
      | stacked =>
        simp only [List.map_append, List.map_cons, List.mem_append, List.mem_cons, List.mem_map, hf, h1, h2.2, or_false]
  · rw [context]; exact lower_nodup
  · rw [mem_released]
    rintro (rfl | ⟨g, hg, rfl⟩)
    · exact hw (r.holder_unique there hold)
    · have := stackedHere g hg
      rw [r.engagement_holder there] at this
      cases this
  · rw [context, Option.some.injEq] at now
    subst now
    exact released.holds r.wf o kept _ _ _ (uncovered?_eq_none.1 covers a low own)

/-- R152. -/
theorem roster_clearRelief {c : Nat} (d : DeskInv s) (some' : (s.positions.get p).relief ≠ []) (r : Roster s) :
    Roster (clearRelief p c s) := by
  have staffed : (s.positions.get p).state = .staffed := (d p).2.2.2.2 some'
  simp only [clearRelief]
  have released := released_foldl (released_clearRelease p c) s ((s.positions.get p).relief.reverse.map (·.operator))
  generalize ((s.positions.get p).relief.reverse.map (·.operator)).foldl (clearRelease p c) s = u at released
  generalize hos : (s.positions.get p).relief.reverse.map (·.operator) = os at released
  have mem (q : Nat) : q ∈ os ↔ q ∈ (s.positions.get p).relief.map (·.operator) := by simp [← hos]
  have context : (modPos p (fun c => { c with relief := [] }) u).positions.get p = { s.positions.get p with relief := [] } := by
    rw [← released.positions]; exact PerPos.get_set_self ..
  have engagement (q : Nat) : engagementOf (modPos p (fun c => { c with relief := [] }) u) q =
      if q ∈ os then none else engagementOf s q := released.engagement q
  have holder {q : Nat} {w : Pos} (h : (s.positions.get w).holder = some q) : q ∉ os := fun hq => by
    have := r.engagement_stacked ((mem q).1 hq)
    rw [r.engagement_holder h] at this
    cases this
  refine r.restaff p (released.wf r.wf) released.areas (fun q hq => ?_) (fun q w role hw => ?_) (fun q role => ?_) ?_
    (fun q w a _ there h => released.holds r.wf q (holder there) _ _ _ h) (fun q a now low own => ?_)
  · exact (PerPos.get_set_ne _ _ hq).trans (congrArg (·.get q) released.positions)
  · rw [engagement]
    split_ifs with h
    · simp [r.engagement_stacked ((mem q).1 h), hw.symm]
    · rfl
  · have before := r.engaged q p role
    rw [serves_at rfl] at before
    rw [engagement, serves_at context]
    split_ifs with h
    · cases role with
      | holder => simpa using fun there => holder there h
      | incoming => simp [staffed]
      | stacked => simp
    · rw [before]
      rw [mem] at h
      cases role with
      | holder => rfl
      | incoming => rfl
      | stacked => simpa using h
  · simp [context]
  · rw [context] at now
    exact released.holds r.wf q (holder now) _ _ _ (r.covered p q a now low own)

/-- R97: the new owner of an area covers it. -/
theorem roster_transferArea {a c : Nat} {source target : Pos} (staffed : (s.positions.get target).state ≠ .vacant) (d : DeskInv s)
    (covers : holdsFor s.grants (holderOf s target) .operate a target = true) (r : Roster s) :
    Roster (transferArea a source target c s) := by
  have kept := (quiet_transferArea s a source target c).kept
  have positions : (transferArea a source target c s).positions = s.positions := kept.agrees .positions (by simp)
  have operators : (transferArea a source target c s).operators = s.operators := kept.agrees .operators (by simp)
  have grants : (transferArea a source target c s).grants = s.grants := kept.agrees .grants (by simp)
  have areas : (transferArea a source target c s).areas = s.areas.set a target := by
    have lists := ((quiet_moveShelf (append .areaTransferred (some target) (some c) (some a) source.num
      { s with areas := s.areas.set a target }) a source target).mono (qs := [.alarms, .lists, .links]) (by simp)).trans
      (quiet_moveLists _ source target (collected (moveShelf a source target (append .areaTransferred (some target) (some c) (some a)
        source.num { s with areas := s.areas.set a target })) a source))
    exact lists.kept.agrees .areas (by simp)
  refine ⟨grants ▸ r.wf, fun q w role => ?_, fun w => positions ▸ r.distinct w, fun w q b hold low own => ?_⟩
  · have same : Serves (transferArea a source target c s) w q role ↔ Serves s w q role := by cases role <;> simp only [Serves, positions]
    rw [engagementOf_of_operators operators, same]
    exact r.engaged q w role
  · rw [positions] at hold
    rw [grants]
    by_cases hb : b = a ∧ a < s.areas.length
    · obtain ⟨rfl, inside⟩ := hb
      have here : w = target := by
        rw [← own, areaOwner, areas]
        simp [List.getD, inside]
      subst here
      rw [holder_of_staffed d staffed, Option.some.injEq] at hold
      exact hold ▸ covers
    · refine r.covered w q b hold low ?_
      rw [← own, areaOwner, areaOwner, areas]
      simp only [List.getD, List.getElem?_set]
      split_ifs with h1 h2
      · exact absurd ⟨h1.symm, h2⟩ hb
      · rw [List.getElem?_eq_none (by omega)]
      · rfl

theorem sameStaff_configure (p : Pos) (f : PositionFields) (s : State) : SameStaff s (configure p f s) := by
  have configured : SameStaff s (modPos p (PosContext.configured f) s) := sameStaff_modPos rfl (fun _ => .rfl) rfl
  refine configured.trans (.of_desks (ps := [.alarms, .lists, .links, .loads, .journal, .positions])
    (((quiet_modLoad _ p (PosLoad.configured f)).mono (by simp)).trans (quiet_evaluateFlood ..)).kept ?_ (by simp) (by simp) (by simp))
  exact (SameDesks.trans ⟨(atPos_modLoad ..).desks⟩ ⟨(atPos_evaluateFlood ..).desks⟩).desks

theorem sameStaff_tick (s : State) : SameStaff s (tick s) := by
  refine ⟨fun _ => rfl, rfl, rfl, fun p => ?_, fun p o => ?_, fun p => ?_⟩ <;> simp [tick, PosContext.tick, Serves]

theorem sameStaff_addNote (o : Nat) (p : Pos) (n : Note) (s : State) : SameStaff s (addNote o p n s) := by
  have noted : SameStaff s (modPos p (fun c => { c with notes := c.notes ++ [n] }) s) := sameStaff_modPos rfl (fun _ => .rfl) rfl
  have itemised (q : Pos) (k : ItemKind) (a b : Nat) (u : State) : SameStaff u (appendItem q k a b u) :=
    .of_desks (quiet_appendItem ..).kept (atPos_appendItem ..).desks (by simp) (by simp) (by simp)
  simp only [addNote]
  split
  · exact (noted.trans (sameStaff_append ..)).trans (itemised ..)
  · exact noted.trans (sameStaff_append ..)

theorem sameStaff_expireRelief {n : Nat} {f : ReliefFrame} (h : (s.positions.get p).relief[n]? = some f) :
    SameStaff s (expireRelief p n f s) := by
  have kept (l : Notice) (u : State) : Kept [.links] u (notifyBoth p l u) := (quiet_notifyBoth ..).kept
  refine ((sameStaff_modPos rfl (fun _ => .rfl) ?_).trans (sameStaff_append ..)).trans
    (.of_desks (kept ..) (SameDesks.of_kept (kept ..) (by simp)).desks (by simp) (by simp) (by simp))
  apply List.ext_getElem?
  intro k
  simp only [List.getElem?_map, List.getElem?_set]
  split_ifs with hk hn
  · subst hk; simp [h]
  · subst hk; simp [List.getElem?_eq_none (Nat.le_of_not_lt hn)]
  · rfl

end desks

end Sys2Proof.Machine
end

section
/-! PROOFS. The roster over every command. Settles `DeskInvIsKept`. -/

namespace Sys2Proof.Machine

/-! ### Serving -/

/-- The command leaves engagements, contexts and coverage in step with one another. -/
def StaffKept (s : State) (r : Host.Outcome State Fault Refusal) : Prop :=
  ∃ u, r = .next (settle u) ∧ (DeskInv s → Roster s → Roster u)

theorem sameStaff_work {ps : List Part} {s t : State} (h : Quiet ps s t) (d : SameDesks s t)
    (hp : .operators ∉ ps ∧ .grants ∉ ps ∧ .areas ∉ ps) : SameStaff s t := .of_desks h.kept d.desks hp.1 hp.2.1 hp.2.2

theorem sameStaff_links {ps : List Part} {s t : State} (h : Kept ps s t)
    (hp : .positions ∉ ps ∧ .operators ∉ ps ∧ .grants ∉ ps ∧ .areas ∉ ps) : SameStaff s t :=
  .of_desks h (SameDesks.of_kept h hp.1).desks hp.2.1 hp.2.2.1 hp.2.2.2

theorem Roster.same {s t : State} (positions : t.positions = s.positions) (operators : t.operators = s.operators)
    (grants : t.grants = s.grants) (areas : t.areas = s.areas) (r : Roster s) : Roster t :=
  SameStaff.roster ⟨engagementOf_of_operators operators, grants, areas, fun _ => by rw [positions],
    fun _ _ => by simp only [Serves, positions], fun _ => by rw [positions]⟩ r

section serving
variable {k : Kind} {h : Header} {i : Option Nat} {s : State}

theorem staffKept_serve {body : State → State × Answer} (hb : ∀ u, DeskInv u → Roster u → Roster (body u).1) :
    StaffKept s (serve k h i body s) := by
  refine ⟨_, rfl, fun d r => ?_⟩
  have taken : SameStaff s (takeFrame h.link s) := sameStaff_links (still_takeFrame ..).kept (by simp)
  have same : (takeFrame h.link s).positions = s.positions := takeFrame_positions ..
  have replied (u : State) (a : Answer) : SameStaff u (reply h k a u) := sameStaff_links (kept_reply ..) (by simp)
  have refused (u : State) (a : Answer) : SameStaff u (journalRefusal h k i a u) :=
    sameStaff_links (quiet_journalRefusal u h k i a).kept (by simp)
  refine (replied ..).roster ((refused ..).roster ?_)
  unfold judged
  split
  · exact taken.roster r
  · exact hb _ (by rw [DeskInv, same]; exact d) (taken.roster r)

theorem staffKept_console {body : Pos → State → State × Answer} (hb : ∀ p u, DeskInv u → Roster u → Roster (body p u).1) :
    StaffKept s (serve k h i (atConsole h body) s) := by
  refine staffKept_serve fun u d r => ?_
  unfold atConsole
  split
  · exact hb _ u d r
  · exact r

theorem staffKept_event {act : State → State} (ha : DeskInv s → Roster s → Roster (act s)) : StaffKept s (event act s) :=
  ⟨_, rfl, ha⟩

theorem roster_judged {cs : List Check} {act : State → State × Answer} (r : Roster s)
    (ha : firstRefusal cs = none → Roster (act s).1) : Roster (judged cs s act).1 := by
  unfold judged
  split
  · exact r
  · exact ha ‹_›

/-- R67, R77: the check of the badge changes nobody's service, and the operator it leaves is defined. -/
theorem roster_badgeRequest {before : List Check} {o : Nat} {badge : Word} {after : State → List Check}
    {act : State → State × Answer} (d : DeskInv s) (r : Roster s)
    (ha : firstRefusal before = none → ∀ t, t.positions = s.positions → DeskInv t → Roster t → (operator? t o).isSome →
      firstRefusal (after t) = none → Roster (act t).1) : Roster (badgeRequest before o badge after act s).1 := by
  unfold badgeRequest
  refine roster_judged r fun checked => ?_
  simp only [firstRefusal_append_eq_none, firstRefusal_cons_eq_none, definedCheck] at checked
  obtain ⟨hb, known, -⟩ := checked
  have staff := (sameStaff_badgeCheck o badge s).roster r
  have same : (badgeCheck o badge s).1.positions = s.positions := (quiet_badgeCheck s o badge).kept.agrees .positions (by simp)
  have known' : (operator? (badgeCheck o badge s).1 o).isSome := by
    rcases badgeCheck_onlyChecked o badge s with h | ⟨f, -, h⟩ <;> rw [h]
    · exact known
    · rw [operator?_modOperator, if_pos rfl, Option.isSome_map]; exact known
  split
  · rename_i checked
    rw [checked] at staff
    exact staff
  · rename_i t checked
    rw [checked] at staff same known'
    exact roster_judged staff (ha hb t same (by rw [DeskInv, same]; exact d) staff known')

end serving

/-! ### The commands -/

section commands
variable {s : State}

theorem staff_execOneSecondStep : StaffKept s (execOneSecondStep s) := staffKept_event fun _ => (sameStaff_tick s).roster

theorem staff_execDefineOperator (h : Header) (id present : Nat) (badge : Word) (level : Nat) :
    StaffKept s (execDefineOperator h id present badge level s) := by
  refine staffKept_serve fun u _ r => roster_judged r fun checked => roster_defineOperator ?_ r
  simp only [operatorChecks, firstRefusal_cons_eq_none] at checked
  simpa using checked.2.2.2.1

theorem staff_execDefineGrant (h : Header) (id kind scope binding : Nat) : StaffKept s (execDefineGrant h id kind scope binding s) := by
  refine staffKept_serve fun u _ r => roster_judged r fun checked => roster_newGrant ?_ r
  simp only [newGrantChecks, firstRefusal_cons_eq_none, firstRefusal_append_eq_none] at checked
  exact checked.2.2.1

theorem staff_execGrantTemporary (h : Header) (target kind scope : Nat) :
    StaffKept s (execGrantTemporary h target kind scope s) := by
  refine staffKept_serve fun u _ r => roster_judged r fun checked => roster_newGrant ?_ r
  simp only [newGrantChecks, firstRefusal_cons_eq_none, firstRefusal_append_eq_none] at checked
  exact checked.2.2.1

theorem staff_execRevokeGrant (h : Header) (slot : Nat) : StaffKept s (execRevokeGrant h slot s) := by
  refine staffKept_serve fun u d r => roster_judged r fun checked => ?_
  simp only [slotChecks, inUseCheck, firstRefusal_cons_eq_none, firstRefusal_append_eq_none] at checked
  obtain ⟨⟨-, filled, -⟩, free, -⟩ := checked
  exact roster_endGrant d filled (by simpa using free) r

theorem staff_execGrantEnd (h : Header) (slot : Nat) : StaffKept s (execGrantEnd h slot s) := by
  refine staffKept_serve fun u d r => roster_judged r fun checked => ?_
  simp only [slotChecks, inUseCheck, firstRefusal_cons_eq_none, firstRefusal_append_eq_none] at checked
  obtain ⟨⟨-, -, filled, -⟩, -, free, -⟩ := checked
  exact roster_endGrant d filled (by simpa using free) r

theorem staff_execOperatorUnlock (h : Header) (id : Nat) : StaffKept s (execOperatorUnlock h id s) :=
  staffKept_serve fun _ _ r => roster_judged r fun _ => SameStaff.roster (t := unlock id _) (sameStaff_modOperator fun _ => rfl) r

theorem staff_execDefinePosition (h : Header) (f : PositionFields) : StaffKept s (execDefinePosition h f s) :=
  staffKept_serve fun _ _ r => roster_judged r fun _ => (sameStaff_configure ..).roster r

theorem staff_execGroupMaskMask (h : Header) (action : Nat) (groups : Word) :
    StaffKept s (execGroupMaskMask h action groups s) := by
  refine staffKept_serve fun u _ r => roster_judged r fun _ => SameStaff.roster (.trans (t := suppressionEntry 1 (groups &&& ~~~u.mask)
    { u with mask := u.mask ||| groups }) (sameStaff_links (ps := [.mask, .journal]) ?_ (by simp)) ?_) r
  · exact (((quiet_mask u _).mono (by simp)).trans ((quiet_suppressionEntry ..).mono (by simp))).kept
  · exact sameStaff_work (quiet_foldl_fst (quiet_maskAlarm _) (_, 0) _) (desks_foldl_fst (desks_maskAlarm _) (_, 0) _) (by simp)

theorem staff_execGroupMaskUnmask (h : Header) (groups : Word) : StaffKept s (execGroupMaskUnmask h groups s) := by
  refine staffKept_serve fun u _ r => roster_judged r fun _ => SameStaff.roster (.trans (t := suppressionEntry 0 (groups &&& u.mask)
    { u with mask := u.mask &&& ~~~groups }) (sameStaff_links (ps := [.mask, .journal]) ?_ (by simp)) ?_) r
  · exact (((quiet_mask u _).mono (by simp)).trans ((quiet_suppressionEntry ..).mono (by simp))).kept
  · exact sameStaff_work (quiet_foldl_fst (quiet_unmaskAlarm _) (_, 0) _) (desks_foldl_fst (desks_unmaskAlarm _) (_, 0) _) (by simp)

theorem staff_execAlarmEventRaise (h : Header) (i event : Nat) : StaffKept s (execAlarmEventRaise h i event s) :=
  staffKept_serve fun _ _ r => roster_judged r fun _ =>
    (sameStaff_work (quiet_raiseAlarm ..) (desks_raiseAlarm ..) (by simp)).roster r

theorem staff_execAlarmEventClear (h : Header) (i : Nat) : StaffKept s (execAlarmEventClear h i s) :=
  staffKept_serve fun _ _ r => roster_judged r fun _ =>
    (sameStaff_work (quiet_clearAlarm ..) (desks_clearAlarm ..) (by simp)).roster r

theorem staff_execAlarmStateActive (h : Header) (i state : Nat) : StaffKept s (execAlarmStateActive h i state s) :=
  staffKept_serve fun _ _ r => roster_judged r fun _ =>
    (sameStaff_work (quiet_raiseAlarm ..) (desks_raiseAlarm ..) (by simp)).roster r

theorem staff_execAlarmStateInactive (h : Header) (i : Nat) : StaffKept s (execAlarmStateInactive h i s) :=
  staffKept_serve fun _ _ r => roster_judged r fun _ =>
    (sameStaff_work (quiet_clearAlarm ..) (desks_clearAlarm ..) (by simp)).roster r

theorem staff_execOutOfService (h : Header) (i : Nat) : StaffKept s (execOutOfService h i s) := by
  refine staffKept_serve fun u _ r => roster_judged r fun _ => ?_
  split
  · exact r
  · exact (sameStaff_work (quiet_takeOutOfService ..) (desks_takeOutOfService ..) (by simp)).roster r

theorem staff_execReturnToService (h : Header) (i : Nat) : StaffKept s (execReturnToService h i s) := by
  refine staffKept_serve fun u _ r => roster_judged r fun _ => ?_
  split
  · exact (sameStaff_work (quiet_returnAlarm ..) (desks_returnAlarm ..) (by simp)).roster r
  · exact r

theorem roster_dropHandovers (ps : List Pos) (d : DeskInv s) (r : Roster s) : Roster (ps.foldl dropHandover s) := by
  induction ps generalizing s with
  | nil => exact r
  | cons p ps ih => exact ih ((keeps_dropHandover s p).desk d) (roster_dropHandover d r)

theorem roster_restartBlocks (d : DeskInv s) (r : Roster s) : Roster (restartBlocks s) := by
  unfold restartBlocks
  refine roster_dropHandovers Pos.all ?_ ?_
  · exact d
  · exact Roster.same (s := s) rfl rfl rfl rfl r

theorem Roster.with_links (r : Roster s) (k : PerLink LinkState) : Roster { s with links := k } :=
  Roster.same (s := s) rfl rfl rfl rfl r

/-- R182: the links are set after the blocks. -/
theorem roster_warmRestart (d : DeskInv s) (r : Roster s) : Roster (warmRestart s) := by
  simp only [warmRestart]
  generalize he : append .restart none none none (if s.restarts < 65535 then s.restarts + 1 else 65535) _ = u
  have positions : u.positions = s.positions := he ▸ rfl
  refine (roster_restartBlocks ?_ ?_).with_links _
  · rw [DeskInv, positions]; exact d
  · subst he; exact Roster.same (s := s) rfl rfl rfl rfl r

theorem staff_execRestart (h : Header) : StaffKept s (execRestart h s) := staffKept_serve fun _ d r => roster_warmRestart d r

theorem staff_execAck (h : Header) (i : Nat) : StaffKept s (execAck h i s) := by
  refine staffKept_console fun p u _ r => roster_judged r fun _ => ?_
  unfold ackAnswer
  split
  · exact r
  · exact (sameStaff_work (quiet_acknowledge ..) (desks_acknowledge ..) (by simp)).roster r

theorem staff_execAckList (h : Header) (count : Nat) (indices : List Nat) : StaffKept s (execAckList h count indices s) :=
  staffKept_console fun p u _ r => roster_judged r fun _ =>
    (sameStaff_work (quiet_foldl_fst (quiet_ackOne h.op p) (u, []) indices) (desks_foldl_fst (desks_ackOne h.op p) (u, []) indices)
      (by simp)).roster r

theorem staff_execShelve (h : Header) (i duration : Nat) : StaffKept s (execShelve h i duration s) :=
  staffKept_console fun _ _ _ r => roster_judged r fun _ => (sameStaff_work (quiet_shelve ..) (desks_shelve ..) (by simp)).roster r

theorem staff_execUnshelve (h : Header) (i : Nat) : StaffKept s (execUnshelve h i s) :=
  staffKept_console fun _ _ _ r => roster_judged r fun _ =>
    (sameStaff_work (quiet_unshelveAlarm ..) (desks_unshelveAlarm ..) (by simp)).roster r

theorem staff_execLatchReset (h : Header) (i : Nat) : StaffKept s (execLatchReset h i s) :=
  staffKept_console fun _ _ _ r => roster_judged r fun _ =>
    (sameStaff_work (quiet_resetLatch ..) (desks_resetLatch ..) (by simp)).roster r

theorem staff_execBypassDeclare (h : Header) (area interlock duration : Nat) :
    StaffKept s (execBypassDeclare h area interlock duration s) :=
  staffKept_console fun _ _ _ r => roster_judged r fun _ =>
    (sameStaff_work (quiet_declareBypass ..) (desks_declareBypass ..) (by simp)).roster r

theorem staff_execBypassEnd (h : Header) (area interlock : Nat) : StaffKept s (execBypassEnd h area interlock s) :=
  staffKept_console fun _ _ _ r => roster_judged r fun _ =>
    (sameStaff_work (quiet_endBypass ..) (desks_endBypass ..) (by simp)).roster r

theorem staff_execNoteAdd (h : Header) (code length : Nat) (text : List Byte) : StaffKept s (execNoteAdd h code length text s) :=
  staffKept_console fun _ _ _ r => roster_judged r fun _ => (sameStaff_addNote ..).roster r

theorem staff_execSignOn (h : Header) (badge : Word) : StaffKept s (execSignOn h badge s) := by
  refine staffKept_console fun p u d r => roster_badgeRequest d r fun before t same d r known after => ?_
  simp only [takeDeskChecks, freeCheck, coverageCheck, firstRefusal_cons_eq_none] at after
  exact roster_signOn d (by rw [same]; simpa [stateCheck] using before) known (by simpa using after.1) (by simpa using after.2.1) r

theorem staff_execSignOff (h : Header) : StaffKept s (execSignOff h s) := by
  refine staffKept_console fun p u d r => roster_judged r fun checked => ?_
  simp only [signOffChecks, stateCheck, noReliefCheck, firstRefusal_cons_eq_none] at checked
  obtain ⟨-, -, staffed, relief, -⟩ := checked
  exact roster_signOff d (by simpa using staffed) (by simpa using relief) r

theorem staff_execHandoverOffer (h : Header) (incoming : Nat) : StaffKept s (execHandoverOffer h incoming s) := by
  refine staffKept_console fun p u d r => roster_judged r fun checked => (sameStaff_offer ?_).roster r
  simp only [offerChecks, stateCheck, firstRefusal_cons_eq_none] at checked
  simpa using checked.2.2.1

theorem staff_execHandoverTake (h : Header) (badge : Word) : StaffKept s (execHandoverTake h badge s) := by
  refine staffKept_console fun p u d r => roster_badgeRequest d r fun before t same d r known after => ?_
  simp only [namedCheck, freeCheck, firstRefusal_cons_eq_none] at after
  exact roster_take d (by rw [same]; simpa [stateCheck] using before) (by simpa using after.1) known (by simpa using after.2.1) r

theorem staff_execItemConfirm (h : Header) (count : Nat) (numbers : List Nat) : StaffKept s (execItemConfirm h count numbers s) :=
  staffKept_console fun _ _ _ r => roster_judged r fun _ => (sameStaff_items ..).roster r

theorem staff_execHandoverAccept (h : Header) : StaffKept s (execHandoverAccept h s) := by
  refine staffKept_console fun p u d r => roster_judged r fun checked => ?_
  simp only [acceptChecks, incomingCheck, coverageCheck, firstRefusal_cons_eq_none] at checked
  obtain ⟨-, incoming, -, covers, -⟩ := checked
  exact roster_accept d (by simpa using incoming) (by simpa using covers) r

theorem staff_execHandoverWithdraw (h : Header) : StaffKept s (execHandoverWithdraw h s) := by
  refine staffKept_console fun p u d r => roster_judged r fun checked => roster_endHandover d ?_ r
  simp only [handoverCheck, firstRefusal_cons_eq_none] at checked
  simpa using checked.2.2.1

theorem staff_execHandoverCancel (h : Header) (position : Nat) : StaffKept s (execHandoverCancel h position s) := by
  refine staffKept_serve fun u d r => roster_judged r fun checked => roster_endHandover d ?_ r
  simp only [handoverCheck, firstRefusal_cons_eq_none, firstRefusal_append_eq_none, List.cons_append] at checked
  simpa using checked.2.2.1

theorem staff_execReliefTake (h : Header) (badge : Word) : StaffKept s (execReliefTake h badge s) := by
  refine staffKept_console fun p u d r => roster_badgeRequest d r fun before t same d r known after => ?_
  simp only [takeDeskChecks, freeCheck, coverageCheck, firstRefusal_cons_eq_none, firstRefusal_append_eq_none] at after
  exact roster_takeRelief d (by rw [same]; simpa [stateCheck] using before) known (by simpa using after.1.1) (by simpa using after.1.2.1) r

theorem staff_execReliefReturn (h : Header) (badge : Word) : StaffKept s (execReliefReturn h badge s) := by
  refine staffKept_console fun p u d r => roster_badgeRequest d r fun _ t _ d r _ after => ?_
  simp only [returnChecks, stackedCheck, coverageCheck, firstRefusal_cons_eq_none] at after
  exact roster_returnRelief d (by simpa using after.1) (by simpa using after.2.1) r

theorem staff_execReliefClear (h : Header) (position : Nat) : StaffKept s (execReliefClear h position s) := by
  refine staffKept_serve fun u d r => roster_judged r fun checked => roster_clearRelief d ?_ r
  simp only [firstRefusal_cons_eq_none, firstRefusal_append_eq_none, List.cons_append] at checked
  simpa using checked.2.2.1

theorem staff_execAreaTransfer (h : Header) (area target : Nat) : StaffKept s (execAreaTransfer h area target s) := by
  refine staffKept_serve fun u d r => roster_judged r fun checked => ?_
  simp only [transferChecks, firstRefusal_cons_eq_none, firstRefusal_append_eq_none] at checked
  obtain ⟨-, -, -, staffed, covers, -⟩ := checked
  exact roster_transferArea (by simpa using staffed) d covers r

theorem staff_execDecayExpiry (p : Pos) : StaffKept s (execDecayExpiry p s) := by
  refine staffKept_event fun _ r => ?_
  split
  · exact (sameStaff_work (quiet_decay ..) (desks_decay ..) (by simp)).roster r
  · exact r

theorem staff_execReminderExpiry (i : Nat) : StaffKept s (execReminderExpiry i s) := by
  refine staffKept_event fun _ r => ?_
  split
  · exact (sameStaff_work (quiet_expireReminder ..) (desks_expireReminder ..) (by simp)).roster r
  · exact r

theorem staff_execShelfExpiry (i : Nat) : StaffKept s (execShelfExpiry i s) := by
  refine staffKept_event fun _ r => ?_
  split
  · exact (sameStaff_work (quiet_expireShelf ..) (desks_expireShelf ..) (by simp)).roster r
  · exact r

theorem staff_execReliefLimitExpiry (p : Pos) (n : Nat) : StaffKept s (execReliefLimitExpiry p n s) := by
  refine staffKept_event fun _ r => ?_
  split
  · rename_i f due
    exact (sameStaff_expireRelief (Option.filter_eq_some_iff.1 due).1).roster r
  · exact r

theorem staff_execOfferTimeout (p : Pos) : StaffKept s (execOfferTimeout p s) := by
  refine staffKept_event fun d r => ?_
  split
  · rename_i due
    simp only [handoverDue, Bool.and_eq_true, beq_iff_eq] at due
    exact roster_endHandover d (.inl due.1) r
  · exact r

theorem staff_execReviewTimeout (p : Pos) : StaffKept s (execReviewTimeout p s) := by
  refine staffKept_event fun d r => ?_
  split
  · rename_i due
    simp only [handoverDue, Bool.and_eq_true, beq_iff_eq] at due
    exact roster_endHandover d (.inr due.1) r
  · exact r

/-- A command whose rules write neither contexts, operators, grants nor areas. -/
theorem roster_of_unchanged {c : Instr} {t : State} (ht : exec c s = .next t) (r : Roster s)
    (h : ∀ part ∈ [Part.positions, .operators, .grants, .areas], part.changedBy c = false) : Roster t := by
  obtain ⟨t', ht', agrees⟩ := onlyTheNamedCommandsChangeAPart c s
  rw [ht] at ht'
  cases ht'
  have same (part : Part) (hp : part ∈ [Part.positions, .operators, .grants, .areas]) : Agrees s t part := agrees part (h part hp)
  exact Roster.same (same .positions (by simp)) (same .operators (by simp)) (same .grants (by simp)) (same .areas (by simp)) r

theorem StaffKept.next {t : State} {out : Host.Outcome State Fault Refusal} (h : StaffKept s out) (ht : out = .next t) (d : DeskInv s)
    (r : Roster s) : Roster t := by
  obtain ⟨u, rfl, kept⟩ := h
  cases ht
  exact (sameStaff_links (kept_settle u) (by simp)).roster (kept d r)

/-- The command writes contexts, operators, grants or areas. -/
def movesStaff (c : Instr) : Bool := [Part.positions, .operators, .grants, .areas].any fun part => part.changedBy c

/-- Every command but cold start that may change who serves where keeps the roster. -/
theorem exec_staff {c : Instr} (hc : c ≠ .coldStart) : movesStaff c = false ∨ StaffKept s (exec c s) := by
  cases c
  case coldStart => exact absurd rfl hc
  case oneSecondStep => exact .inr staff_execOneSecondStep
  case defineOperator => exact .inr (staff_execDefineOperator ..)
  case defineGrant => exact .inr (staff_execDefineGrant ..)
  case revokeGrant => exact .inr (staff_execRevokeGrant ..)
  case grantTemporary => exact .inr (staff_execGrantTemporary ..)
  case grantEnd => exact .inr (staff_execGrantEnd ..)
  case operatorUnlock => exact .inr (staff_execOperatorUnlock ..)
  case definePosition => exact .inr (staff_execDefinePosition ..)
  case groupMaskMask => exact .inr (staff_execGroupMaskMask ..)
  case groupMaskUnmask => exact .inr (staff_execGroupMaskUnmask ..)
  case alarmEventRaise => exact .inr (staff_execAlarmEventRaise ..)
  case alarmEventClear => exact .inr (staff_execAlarmEventClear ..)
  case alarmStateActive => exact .inr (staff_execAlarmStateActive ..)
  case alarmStateInactive => exact .inr (staff_execAlarmStateInactive ..)
  case outOfService => exact .inr (staff_execOutOfService ..)
  case returnToService => exact .inr (staff_execReturnToService ..)
  case restart => exact .inr (staff_execRestart ..)
  case ack => exact .inr (staff_execAck ..)
  case ackList => exact .inr (staff_execAckList ..)
  case shelve => exact .inr (staff_execShelve ..)
  case unshelve => exact .inr (staff_execUnshelve ..)
  case latchReset => exact .inr (staff_execLatchReset ..)
  case bypassDeclare => exact .inr (staff_execBypassDeclare ..)
  case bypassEnd => exact .inr (staff_execBypassEnd ..)
  case noteAdd => exact .inr (staff_execNoteAdd ..)
  case signOn => exact .inr (staff_execSignOn ..)
  case signOff => exact .inr (staff_execSignOff ..)
  case handoverOffer => exact .inr (staff_execHandoverOffer ..)
  case handoverTake => exact .inr (staff_execHandoverTake ..)
  case itemConfirm => exact .inr (staff_execItemConfirm ..)
  case handoverAccept => exact .inr (staff_execHandoverAccept ..)
  case handoverWithdraw => exact .inr (staff_execHandoverWithdraw ..)
  case handoverCancel => exact .inr (staff_execHandoverCancel ..)
  case reliefTake => exact .inr (staff_execReliefTake ..)
  case reliefReturn => exact .inr (staff_execReliefReturn ..)
  case reliefClear => exact .inr (staff_execReliefClear ..)
  case areaTransfer => exact .inr (staff_execAreaTransfer ..)
  case decayExpiry => exact .inr (staff_execDecayExpiry ..)
  case reminderExpiry => exact .inr (staff_execReminderExpiry ..)
  case shelfExpiry => exact .inr (staff_execShelfExpiry ..)
  case reliefLimitExpiry => exact .inr (staff_execReliefLimitExpiry ..)
  case offerTimeout => exact .inr (staff_execOfferTimeout ..)
  case reviewTimeout => exact .inr (staff_execReviewTimeout ..)
  all_goals exact .inl rfl

theorem exec_roster {c : Instr} (hc : c ≠ .coldStart) {t : State} (ht : exec c s = .next t) (d : DeskInv s) (r : Roster s) :
    Roster t := by
  rcases exec_staff (s := s) hc with still | moved
  · exact roster_of_unchanged ht r (by simpa [movesStaff] using still)
  · exact moved.next ht d r

end commands

/-- R66, R71: every step keeps the engagements equal to the services, and every position covered by its holder. -/
theorem engagementInv_step {s t : State} (h : EngagementInv s) (hs : step s = .next t) : EngagementInv t := by
  refine step_induction (P := EngagementInv) (fun _ _ h => h) engagementInv_reset (fun c s t hc h ht => ?_) h hs
  rw [engagementInv_iff] at h ⊢
  obtain ⟨desk, roster⟩ := h
  refine ⟨?_, exec_roster hc ht desk roster⟩
  obtain ⟨u, keeps, rfl⟩ := exec_settles hc ht
  rw [DeskInv, show (settle u).positions = u.positions from settle_agrees u .positions nofun]
  exact keeps.desk desk

/-- Settles O10: `deskInv_step` for the contexts, and the roster over every command for the engagements. -/
theorem deskInvIsKept : Obligations.DeskInvIsKept :=
  ⟨fun _ _ => deskInv_step, fun _ _ => engagementInv_step⟩

end Sys2Proof.Machine
end

section
/-! PROOFS. What a request leaves after its reply: the state of its body with the links changed. Every functional statement
about a request goes through these. -/

namespace Sys2Proof.Machine

/-- The request answered `a` on its link; `u` is what its body left, and `t` the state at the end of the command. -/
structure Served (k : Kind) (h : Header) (a : Answer) (s u t : State) : Prop where
  replied : Replied k h a s t
  same : Kept [.links] u t
  lines : LinesKept s t
  announced : ∀ told, Told told (takeFrame h.link s) u → Announced told s t

theorem told_takeFrame {told : Link → List Notice} {l : Link} {s u : State} (h : Told told (takeFrame l s) u) : Told told s u := by
  intro m ready room
  have at_m : (takeFrame l s).links.get m = s.links.get m ∨
      (takeFrame l s).links.get m = { s.links.get m with received := afterFrame (s.links.get m).received } := by
    rw [takeFrame, modLink_get]
    split
    · subst m; exact .inr rfl
    · exact .inl rfl
  obtain ⟨up, due, snapshot⟩ := ready
  have before := h m
  rcases at_m with same | same <;> rw [same] at before <;> exact before ⟨up, due, snapshot⟩ room

theorem told_reply (h : Header) (k : Kind) (a : Answer) (s : State) : Told (fun _ => []) s (reply h k a s) := by
  intro m ready _
  rw [reply, modLink_get]
  split
  · subst m; exact ⟨⟨ready.up, ready.due, ready.snapshot⟩, rfl, by simp⟩
  · exact ⟨ready, rfl, by simp⟩

theorem announced_settled_reply {told : Link → List Notice} {h : Header} {k : Kind} {a : Answer} {l : Link} {s u : State}
    (ht : Told told (takeFrame l s) u) : Announced told s (settle (reply h k a u)) :=
  (((told_takeFrame ht).trans (told_reply h k a u)).congr fun _ => by simp).announced

/-- The next state of a request whose body, and the entry of a refusal, left `u`. -/
theorem served {ps : List Part} {k : Kind} {h : Header} {a : Answer} {s u : State} (q : Quiet ps (takeFrame h.link s) u)
    (answers : answerFrames k h.tag a ≠ []) : Served k h a s u (settle (reply h k a u)) where
  replied := by
    have sent (l : Link) : outgoing u l = outgoing s l := by rw [q.outgoing, takeFrame_outgoing]
    have held (l : Link) : (u.links.get l).snapshot = (s.links.get l).snapshot := by rw [q.snapshot, takeFrame_snapshot]
    refine ⟨?_, fun l hl => ?_⟩
    · rw [settle_outgoing] <;> rw [reply_outgoing, if_pos rfl, sent]
      simp [answers]
    · have starts := settle_sends (reply h k a u) l
      simpa only [OnlyNoticeStarts, reply_outgoing, if_neg hl, sent, reply_snapshot, held] using starts
  same := (kept_reply u h k a).trans (kept_settle _)
  lines := (((takeFrame_lines h.link s).trans q.lines).trans (reply_lines h k a u)).trans (settle_lines _)
  announced _ := announced_settled_reply

/-- A request that passes the LIU and is answered DONE, by one reply or one for each position. -/
theorem serve_next {ps : List Part} {k : Kind} {h : Header} {i : Option Nat} {body : State → State × Answer} {s u : State}
    {a : Answer} (hp : Passes k h s) (hb : body (takeFrame h.link s) = (u, a)) (q : Quiet ps (takeFrame h.link s) u)
    (unrefused : ∀ c v, a ≠ .refused c v) (some' : a ≠ .each []) :
    ∃ t, serve k h i body s = .next t ∧ Served k h a s u t := by
  obtain ⟨h1, h2, h3⟩ := hp
  have passes : firstRefusal (liuChecks k h (takeFrame h.link s)) = none := by simp [liuChecks, h1, h2, h3]
  have unentered : journalRefusal h k i a u = u := by
    cases a with
    | refused c v => exact absurd rfl (unrefused c v)
    | _ => unfold journalRefusal; split <;> simp_all
  refine ⟨settle (reply h k a u), ?_, served q (answerFrames_ne_nil k h.tag a some')⟩
  simp only [serve, judged, passes, hb, unentered]

theorem serve_next_done {ps : List Part} {k : Kind} {h : Header} {i : Option Nat} {body : State → State × Answer} {s u : State}
    {es : List (List Byte)} {g : Bool} (hp : Passes k h s) (hb : body (takeFrame h.link s) = (u, .done es g))
    (q : Quiet ps (takeFrame h.link s) u) : ∃ t, serve k h i body s = .next t ∧ Served k h (.done es g) s u t :=
  serve_next hp hb q nofun nofun

/-- A request that passes the LIU and is refused by its body, with the entry that R85 calls for. -/
theorem serve_next_refused {ps : List Part} {k : Kind} {h : Header} {i : Option Nat} {body : State → State × Answer} {s u : State}
    {c : Cause} {v : Nat} (hp : Passes k h s) (hb : body (takeFrame h.link s) = (u, .refused c v))
    (q : Quiet ps (takeFrame h.link s) u) : ∃ t, serve k h i body s = .next t ∧
      Served k h (.refused c v) s (journalRefusal h k i (.refused c v) u) t :=
  ⟨_, serve_refused hp hb, served ((q.mono (qs := .journal :: ps) (by simp +contextual)).trans
    ((quiet_journalRefusal u h k i _).mono (by simp))) (answerFrames_ne_nil _ _ _ nofun)⟩

namespace Served
variable {k : Kind} {h : Header} {a : Answer} {s u t : State} (d : Served k h a s u t)
include d

theorem agrees (p : Part) (hp : p ≠ .links) : Agrees u t p := d.same.agrees p (by simpa using hp)

/-- The parts that the body changed, and the links. -/
theorem kept {ps : List Part} (w : Kept ps (takeFrame h.link s) u) (hl : Part.links ∈ ps) : Kept ps s t :=
  (((kept_takeFrame s h.link).mono (by simpa using hl)).trans w).trans (d.same.mono (by simpa using hl))

/-- The entries that the body wrote. -/
theorem journaled {ls : List Line} (w : Journaled ls (takeFrame h.link s) u) : Journaled ls s t := by
  obtain ⟨journal, next⟩ := d.agrees .journal nofun
  obtain ⟨j, n⟩ := writeLines_congr ls (s := s) (t := takeFrame h.link s) rfl rfl rfl
  exact ⟨(journal.trans w.1).trans j, (next.trans w.2).trans n⟩

end Served

/-- A request that passes the LIU, whose body works and answers DONE: what holds of every state that it may leave. -/
theorem request_done {ps : List Part} {k : Kind} {h : Header} {i : Option Nat} {body : State → State × Answer} {s u : State}
    {es : List (List Byte)} {g : Bool} {P : State → Prop} {out : Host.Outcome State Fault Refusal}
    (ho : out = serve k h i body s) (hp : Passes k h s) (hb : body (takeFrame h.link s) = (u, .done es g))
    (q : Quiet ps (takeFrame h.link s) u) (hP : ∀ t, Served k h (.done es g) s u t → P t) : ∃ t, out = .next t ∧ P t := by
  obtain ⟨t, ht, done⟩ := serve_next_done hp hb q
  exact ⟨t, ho.trans ht, hP t done⟩

theorem request_each {ps : List Part} {k : Kind} {h : Header} {i : Option Nat} {body : State → State × Answer} {s u : State}
    {es : List (List Byte × Bool)} {P : State → Prop} {out : Host.Outcome State Fault Refusal}
    (ho : out = serve k h i body s) (hp : Passes k h s) (hb : body (takeFrame h.link s) = (u, .each es))
    (q : Quiet ps (takeFrame h.link s) u) (some' : es ≠ []) (hP : ∀ t, Served k h (.each es) s u t → P t) :
    ∃ t, out = .next t ∧ P t := by
  obtain ⟨t, ht, done⟩ := serve_next hp hb q (fun _ _ => nofun) (by simpa using some')
  exact ⟨t, ho.trans ht, hP t done⟩

theorem request_refused {ps : List Part} {k : Kind} {h : Header} {i : Option Nat} {body : State → State × Answer} {s u : State}
    {c : Cause} {v : Nat} {P : State → Prop} {out : Host.Outcome State Fault Refusal}
    (ho : out = serve k h i body s) (hp : Passes k h s) (hb : body (takeFrame h.link s) = (u, .refused c v))
    (q : Quiet ps (takeFrame h.link s) u)
    (hP : ∀ t, Served k h (.refused c v) s (journalRefusal h k i (.refused c v) u) t → P t) : ∃ t, out = .next t ∧ P t := by
  obtain ⟨t, ht, done⟩ := serve_next_refused hp hb q
  exact ⟨t, ho.trans ht, hP t done⟩

/-- A request that only reads. -/
theorem request_read {k : Kind} {h : Header} {i : Option Nat} {body : State → State × Answer} {s : State}
    {es : List (List Byte)} {g : Bool} {P : State → Prop} {out : Host.Outcome State Fault Refusal}
    (ho : out = serve k h i body s) (hp : Passes k h s) (hb : body (takeFrame h.link s) = (takeFrame h.link s, .done es g))
    (hP : ∀ t, Kept [.links] s t → LinesKept s t → Replied k h (.done es g) s t → P t) : ∃ t, out = .next t ∧ P t :=
  request_done ho hp hb (.refl [.links] _) fun t done => hP t (done.kept (.refl ..) (by simp)) done.lines done.replied

/-- The body of a request on a console link. -/
theorem atConsole_console {h : Header} {p : Pos} (hl : h.link = .console p) (body : Pos → State → State × Answer) (s : State) :
    atConsole h body s = body p s := by simp [atConsole, hl]

theorem judged_of_none {cs : List Check} {s : State} (h : firstRefusal cs = none) (act : State → State × Answer) :
    judged cs s act = act s := by simp [judged, h]

theorem judged_of_some {cs : List Check} {s : State} {c : Cause} {v : Nat} (h : firstRefusal cs = some (c, v))
    (act : State → State × Answer) : judged cs s act = (s, .refused c v) := by simp [judged, h]

/-! ### The clock -/

/-- Settles O26. -/
theorem timeSetWritesTheClock : Obligations.TimeSetWritesTheClock := by
  intro h time s hp
  have quiet : Quiet [.clock, .links, .journal] (takeFrame h.link s)
      (append .timeSet none none none s.timeSet.toNat { takeFrame h.link s with millTime := time, timeSet := true }) :=
    ((quiet_clock _ time).mono (by simp)).trans ((quiet_append ..).mono (by simp))
  refine request_done (k := .timeSet) rfl hp rfl quiet fun t done => ?_
  obtain ⟨clock, set⟩ := done.agrees .clock nofun
  obtain ⟨journal, next⟩ := done.agrees .journal nofun
  exact ⟨clock, set, done.replied, ⟨journal, next⟩, done.lines, done.kept quiet.kept (by simp)⟩

/-! ### Reads -/

/-- The supervisor's checks read no link. -/
theorem firstRefusal_supervisorChecks {s : State} {o : Nat} (acts : Supervises s o) : firstRefusal (supervisorChecks s o) = none := by
  obtain ⟨held, grant⟩ := acts
  simp [supervisorChecks, definedCheck, holderCheck, held, grant, isSome_operator?_of_engaged held]

theorem firstRefusal_supervisorUnlessPlant {h : Header} {s : State} (from' : FromGatewayOrSupervisor h s) :
    firstRefusal (supervisorUnlessPlant h s) = none := by
  unfold supervisorUnlessPlant
  split
  · rfl
  · rename_i p hl
    rcases from' with plant | acts
    · rw [hl] at plant; cases plant
    · exact firstRefusal_supervisorChecks acts

theorem statusFields_takeFrame (l : Link) (s : State) : statusFields (takeFrame l s) = statusFields s := by
  have up (m : Link) : ((takeFrame l s).links.get m).up = (s.links.get m).up := (takeFrame_lines l s m).2.1
  have plant : (takeFrame l s).links.plant.up = s.links.plant.up := up .plant
  have same (p : Pos) : statusPosition (takeFrame l s) p = statusPosition s p := by simp [statusPosition, up]
  simp [statusFields, plant, funext same]

/-- Settles O27: every body reads the state that the taken frame leaves, which differs from it in a port's bytes alone. -/
theorem readsAnswerFromTheStateAndChangeNothing : Obligations.ReadsAnswerFromTheStateAndChangeNothing := by
  intro h s
  refine ⟨fun hp => ?_, fun i hp defined => ?_, fun p selector position start count hp hs hpos h1 h2 => ?_,
    fun start count hp from' h1 h2 => ?_, fun p hp => ?_, fun hp => ?_, fun p hp => ?_, fun p start count hp h1 h2 => ?_,
    fun o hp from' h1 h2 => ?_⟩
  · refine request_read rfl hp rfl fun t kept lines replied => ⟨kept, lines, ?_⟩
    rwa [statusFields_takeFrame] at replied
  · have checked : firstRefusal [definedIndexCheck s i] = none := by simp [definedIndexCheck, defined]
    exact request_read rfl hp (judged_of_none checked _) fun t kept lines replied => ⟨kept, lines, replied⟩
  · have checked : firstRefusal (listChecks selector position count) = none := by
      have selected : (selectorOf? selector).isSome := by interval_cases selector <;> rfl
      have placed : selectorOf? selector = some .escalation ∨ (Pos.ofNum? position).isSome := by
        rcases hpos with rfl | rfl
        · exact .inl rfl
        · exact .inr (by cases p <;> rfl)
      simpa [listChecks, selected, h1, h2] using placed
    exact request_read rfl hp (judged_of_none checked _) fun t kept lines replied => ⟨kept, lines, _, rfl, replied⟩
  · have checked : firstRefusal (⟨decide (1 ≤ count) && decide (count ≤ 64), .malformed, count⟩ ::
        supervisorUnlessPlant h s) = none := by simp [h1, h2, firstRefusal_supervisorUnlessPlant from']
    exact request_read rfl hp (judged_of_none checked _) fun t kept lines replied => ⟨kept, lines, replied⟩
  · have checked : firstRefusal [positionCheck p.num] = none := by cases p <;> rfl
    refine request_read rfl hp (judged_of_none checked _) fun t kept lines replied => ⟨kept, lines, ?_⟩
    rwa [show posOf p.num = p by cases p <;> rfl] at replied
  · exact request_read rfl hp rfl fun t kept lines replied => ⟨kept, lines, replied⟩
  · have checked : firstRefusal [positionCheck p.num] = none := by cases p <;> rfl
    refine request_read rfl hp (judged_of_none checked _) fun t kept lines replied => ⟨kept, lines, ?_⟩
    rwa [show (Pos.ofNum? p.num).getD .p0 = p by cases p <;> rfl] at replied
  · have checked : firstRefusal [positionCheck p.num, ⟨decide (1 ≤ count) && decide (count ≤ 32), .malformed, count⟩] = none := by
      cases p <;> simp [positionCheck, h1, h2] <;> rfl
    refine request_read rfl hp (judged_of_none checked _) fun t kept lines replied => ⟨kept, lines, ?_⟩
    rwa [show posOf p.num = p by cases p <;> rfl] at replied
  · have checked : firstRefusal (operatorIdCheck o :: supervisorUnlessPlant h s) = none := by
      simp [operatorIdCheck, h1, h2, firstRefusal_supervisorUnlessPlant from']
    exact request_read rfl hp (judged_of_none checked _) fun t kept lines replied => ⟨kept, lines, replied⟩

/-- Settles O28: differences of sequences wrap, and the journal is far shorter than half their range. -/
theorem aStartIsRetainedAheadOrBehind : Obligations.AStartIsRetainedAheadOrBehind := by
  intro s start ⟨room, consecutive⟩
  have oldest (h : 0 < s.journal.length) : oldestSequence s = s.nextSeq - BitVec.ofNat 32 s.journal.length := by
    have := consecutive 0 h
    rw [oldestSequence, List.head?_eq_getElem?, List.getElem?_eq_getElem h]
    simpa using this
  refine ⟨fun n hn at_n => ?_, fun ahead => ?_, fun behind far => ?_⟩
  · have distance : (start - oldestSequence s).toNat = n := by
      rw [oldest (by omega), at_n]
      bv_omega
    simp only [placeStart, distance, hn, if_true]
  · have outside : ¬(start - oldestSequence s).toNat < s.journal.length := by
      by_cases h : 0 < s.journal.length
      · rw [oldest h]; bv_omega
      · omega
    simp only [placeStart, outside, ahead, if_true, if_false]
  · have outside : ¬(start - oldestSequence s).toNat < s.journal.length := by
      by_cases h : 0 < s.journal.length
      · rw [oldest h]; bv_omega
      · omega
    simp only [placeStart, outside, Nat.not_lt.2 behind, if_false]

/-- R59: what the clearing of LIMIT at some positions leaves of the loads. -/
theorem foldl_clearLimit (ps : List Pos) (s : State) (p : Pos) : (ps.foldl clearLimit s).loads.get p =
    if p ∈ ps then { s.loads.get p with limit := false } else s.loads.get p := by
  induction ps generalizing s with
  | nil => rfl
  | cons q ps ih =>
    rw [List.foldl_cons, ih, clearLimit, modLoad_get]
    by_cases hq : p = q <;> by_cases hp : p ∈ ps <;> simp [hq, hp] <;> subst hq <;> simp

/-- Settles O29. -/
theorem loadQueryReadsAndClearsLimit : Obligations.LoadQueryReadsAndClearsLimit := by
  intro h selector s hp from' range
  have selected : selectedPositions selector = Pos.all.filter fun p => selector == 255 || selector == p.num := by
    rcases range with low | rfl
    · interval_cases selector <;> rfl
    · rfl
  have nonempty : selectedPositions selector ≠ [] := by
    rcases range with low | rfl
    · interval_cases selector <;> simp [selectedPositions, Pos.ofNum?]
    · simp [selectedPositions, Pos.all]
  have checked : firstRefusal (⟨!(selectedPositions selector).isEmpty, .malformed, selector⟩ :: supervisorUnlessPlant h s) = none := by
    simp [firstRefusal_supervisorUnlessPlant from', nonempty]
  have quiet := quiet_foldl (ps := [.links, .loads]) (f := clearLimit) (takeFrame h.link s)
    (fun s p => (quiet_modLoad s p _).mono (by simp)) (selectedPositions selector)
  refine request_each rfl hp (judged_of_none checked _) quiet (by simpa using nonempty) fun t done =>
    ⟨?_, fun p => ?_, done.lines, done.kept quiet.kept (by simp)⟩
  · rw [← selected]
    exact done.replied
  · have loads : t.loads = _ := done.agrees .loads nofun
    rw [loads, foldl_clearLimit, selected]
    simp [Pos.mem_all]

end Sys2Proof.Machine
end

section
/-! PROOFS. Frames: the refusals of the LIU, the words of a command, and the bytes on the wire (R163, R164, R176). -/

namespace Sys2Proof.Machine

/-! ### The LIU's refusals -/

/-- R164: a request that the LIU refuses changes the links alone, and no entry is written for it. -/
theorem serve_turned_away {k : Kind} {h : Header} {i : Option Nat} {body : State → State × Answer} {s : State} {c : Cause} {v : Nat}
    (refused : firstRefusal (liuChecks k h s) = some (c, v)) (silent : accessCauseCode? c = none) :
    ∃ t, serve k h i body s = .next t ∧ Replied k h (.refused c v) s t ∧ Kept [.links] s t := by
  have unentered : journalRefusal h k i (.refused c v) (takeFrame h.link s) = takeFrame h.link s := by
    unfold journalRefusal
    split
    · rename_i hl hr
      cases hr
      simp [accessRefused, silent]
    · rfl
  have done := served (k := k) (h := h) (a := .refused c v) (Quiet.refl [.links] (takeFrame h.link s)) (answerFrames_ne_nil _ _ _ nofun)
  have stopped : judged (liuChecks k h (takeFrame h.link s)) (takeFrame h.link s) body = (takeFrame h.link s, .refused c v) :=
    judged_of_some refused body
  refine ⟨_, ?_, done.replied, done.kept (.refl ..) (by simp)⟩
  simp only [serve, stopped, unentered]

theorem request_turned_away {c : Instr} {k : Kind} {h : Header} {fields : List Byte} {s : State} {cause : Cause} {v : Nat}
    (hr : requestFields c = some (k, h, fields)) (refused : firstRefusal (liuChecks k h s) = some (cause, v))
    (silent : accessCauseCode? cause = none) :
    ∃ t, exec c s = .next t ∧ Replied k h (.refused cause v) s t ∧ Kept [.links] s t := by
  obtain ⟨ps, i, body, runs, -⟩ := request_runs s hr
  rw [runs]
  exact serve_turned_away refused silent

/-- R164: in every other run state each kind is taken. -/
theorem unconfigured_of_not_allowed {k : Kind} {l : Link} {r : RunState} (h : runStateAllowed k l r = false) : r = .unconfigured := by
  simp only [runStateAllowed, Bool.or_eq_false_iff, bne_eq_false_iff_eq] at h
  exact h.1

/-- Settles O15: the tables by their rows, the refusals by the first check that fails. -/
theorem theLiuRefusesInOrder : Obligations.TheLiuRefusesInOrder := by
  refine ⟨fun k => ?_, fun k p => ?_, fun k l => ?_, fun k => ?_, fun k l => ⟨rfl, rfl⟩,
    fun c k h fields s hr => ⟨fun short => ?_, fun long wrong => ?_, fun long right early => ?_⟩⟩
  · cases k <;> simp [runStateAllowed, takenUnconfigured]
  · simp [runStateAllowed]
  · cases l with
    | plant => cases k <;> simp [linkRule, linkAllowed]
    | console p => cases k <;> simp [linkRule, linkAllowed]
  · cases k <;> rfl
  · exact request_turned_away hr (by simp [liuChecks, firstRefusal, Nat.not_le.2 short]) rfl
  · exact request_turned_away hr (by simp [liuChecks, firstRefusal, long, wrong]) rfl
  · refine request_turned_away hr ?_ rfl
    have resting := unconfigured_of_not_allowed early
    simp [liuChecks, firstRefusal, long, right, resting ▸ early, resting, runStateCode]

/-! ### Bytes on the wire -/

theorem toNat_byte {n : Nat} (h : n < 256) : (BitVec.ofNat 8 n).toNat = n := by
  rw [BitVec.toNat_ofNat]
  exact Nat.mod_eq_of_lt h

/-- R176: two bytes, high first, are the number they were written from. -/
theorem toNat_half {n : Nat} (h : n < 65536) : (BitVec.ofNat 8 (n / 256)).toNat * 256 + (BitVec.ofNat 8 n).toNat = n := by
  simp only [BitVec.toNat_ofNat]
  omega

theorem toNat_quad {n : Nat} (h : n < 4294967296) :
    ((BitVec.ofNat 8 (n / 16777216)).toNat * 256 + (BitVec.ofNat 8 (n / 65536)).toNat) * 65536 +
      ((BitVec.ofNat 8 (n / 256)).toNat * 256 + (BitVec.ofNat 8 n).toNat) = n := by
  simp only [BitVec.toNat_ofNat]
  omega

theorem field8_zero (b : Byte) (bs : List Byte) : field8 (b :: bs) 0 = b.toNat := rfl

theorem field8_succ (b : Byte) (bs : List Byte) (n : Nat) : field8 (b :: bs) (n + 1) = field8 bs n := rfl

theorem field16_be16 {n : Nat} (h : n < 65536) (bs : List Byte) : field16 (be16 n ++ bs) 0 = n := toNat_half h

/-- Table 10-3: the flags read from the byte that was written of them. -/
theorem frameOf_flagsByte (f : Frame) : frameOf f.kind f.tag (flagsByte f) f.body = f := by
  obtain ⟨kind, tag, last, reply, limited, gap, body⟩ := f
  have bits : ∀ a b c d : Bool, let w := BitVec.ofNat 8 (a.toNat + 2 * b.toNat + 4 * c.toNat + 8 * d.toNat)
      w.getLsbD 0 = a ∧ w.getLsbD 1 = b ∧ w.getLsbD 2 = c ∧ w.getLsbD 3 = d := by decide
  obtain ⟨h0, h1, h2, h3⟩ := bits last reply limited gap
  simp only [frameOf, flagsByte, h0, h1, h2, h3]

/-- R163: a frame and what follows it. -/
theorem assemble_wireBytes (f : Frame) (rest : List Byte) (h : f.body.length ≤ 240) :
    assemble (wireBytes f ++ rest) = .good f rest := by
  have len : (BitVec.ofNat 8 f.body.length).toNat = f.body.length := toNat_byte (by omega)
  have check : field16 (be16 (crc (checkedBytes f)).toNat ++ rest) 0 = (crc (checkedBytes f)).toNat :=
    field16_be16 (crc (checkedBytes f)).isLt rest
  have shape : wireBytes f ++ rest = sync :: BitVec.ofNat 8 f.body.length :: f.kind :: f.tag :: flagsByte f ::
      (f.body ++ (be16 (crc (checkedBytes f)).toNat ++ rest)) := by simp [wireBytes, checkedBytes, be8]
  have bytes : BitVec.ofNat 8 f.body.length :: f.kind :: f.tag :: flagsByte f :: f.body = checkedBytes f := rfl
  have two : (be16 (crc (checkedBytes f)).toNat ++ rest).length = rest.length + 2 := by simp [be16]
  rw [shape, assemble, len, if_neg (by simp [maxBody]; omega)]
  simp only [List.length_append, List.take_left, List.drop_left]
  rw [if_neg (by simp [be16]; omega), bytes, if_pos check, frameOf_flagsByte]
  rfl

/-- Settles O17. -/
theorem aWholeFrameIsReceived : Obligations.AWholeFrameIsReceived :=
  ⟨assemble_wireBytes, by decide +kernel, by decide⟩

/-! ### Bad and unknown frames -/

theorem modLink_lines {l : Link} {f : LinkState → LinkState} (s : State) (hf : ∀ k, (f k).flow = k.flow ∧ (f k).up = k.up ∧
    (f k).rate = k.rate ∧ (f k).storedRate = k.storedRate) : LinesKept s (modLink l f s) := fun m => by
  rw [modLink_get]
  split
  · subst m; exact hf _
  · exact ⟨rfl, rfl, rfl, rfl⟩

/-- R163: FRAME_DISCARDED changes what one port holds. -/
theorem frameDiscarded_spec (l : Link) (bytes : List Byte) (s : State) : ∃ t, exec (.frameDiscarded l bytes) s = .next t ∧
    (t.links.get l).received = discardFrame (seekSync ((s.links.get l).received ++ bytes)) ∧
    (∀ m, m ≠ l → (t.links.get m).received = (s.links.get m).received) ∧ NoReply s t ∧ LinesKept s t ∧ Kept [.links] s t := by
  generalize hu : modLink l (fun k => { k with received := discardFrame (seekSync (k.received ++ bytes)) }) s = u
  have next : exec (.frameDiscarded l bytes) s = .next (settle u) := hu ▸ rfl
  have lines : LinesKept s u := hu ▸ modLink_lines s fun _ => ⟨rfl, rfl, rfl, rfl⟩
  have kept : Kept [.links] s u := hu ▸ kept_modLink ..
  refine ⟨settle u, next, ?_, fun m hm => ?_, (runs_execFrameDiscarded l bytes).noReply next, lines.trans (settle_lines u),
    kept.trans (kept_settle u)⟩
  · rw [(settle_sameLine u l).received, ← hu, modLink_get_self]
  · rw [(settle_sameLine u m).received, ← hu, modLink_get, if_neg hm]

/-- R164 step 1: the body of the refusal. -/
theorem unknownKindReply_eq (kind tag : Byte) :
    unknownKindReply kind tag = ⟨kind, tag, true, true, false, false, [1, 1, 0, kind, 0, kind]⟩ := by
  have high : BitVec.ofNat 8 (kind.toNat / 256) = 0 := by
    rw [Nat.div_eq_of_lt kind.isLt]
    rfl
  have low : BitVec.ofNat 8 kind.toNat = kind := by simp
  simp only [unknownKindReply, refusalBody, be8, be16, high, low]
  rfl

/-- R164 step 1: one reply joins the frames of the link. -/
theorem unknownKindFrame_spec (l : Link) (kind tag : Byte) (s : State) : ∃ t, exec (.unknownKindFrame l kind tag) s = .next t ∧
    outgoing t l = outgoing s l ++ [⟨kind, tag, true, true, false, false, [1, 1, 0, kind, 0, kind]⟩] ∧
    (∀ m, m ≠ l → OnlyNoticeStarts s t m) ∧ LinesKept s t ∧ Kept [.links] s t := by
  generalize hu : modLink l (fun k => { k with replies := k.replies ++ [unknownKindReply kind tag] }) (takeFrame l s) = u
  have next : exec (.unknownKindFrame l kind tag) s = .next (settle u) := hu ▸ rfl
  have added (m : Link) : outgoing u m = outgoing s m ++ if m = l then [unknownKindReply kind tag] else [] := by
    rw [← hu, ← takeFrame_outgoing l m s, outgoing, modLink_get]
    split
    · subst m; simp [outgoing]
    · simp [outgoing]
  have held (m : Link) : (u.links.get m).snapshot = (s.links.get m).snapshot := by
    rw [← hu, ← takeFrame_snapshot l m s, modLink_get]
    split <;> simp_all
  have lines : LinesKept s u := hu ▸ (takeFrame_lines l s).trans (modLink_lines _ fun _ => ⟨rfl, rfl, rfl, rfl⟩)
  have kept : Kept [.links] s u := hu ▸ (kept_takeFrame s l).trans (kept_modLink ..)
  refine ⟨settle u, next, ?_, fun m hm => ?_, lines.trans (settle_lines u), kept.trans (kept_settle u)⟩
  · rw [settle_outgoing] <;> rw [added, if_pos rfl, unknownKindReply_eq]
    simp
  · have starts := settle_sends u m
    simpa only [OnlyNoticeStarts, added, held, if_neg hm, List.append_nil] using starts

/-- Settles O18. -/
theorem badAndUnknownFramesAreTurnedAway : Obligations.BadAndUnknownFramesAreTurnedAway := by
  refine ⟨fun l kind tag s => ?_, fun l bytes s bad => ?_, fun l bytes s waits => ?_⟩
  · exact unknownKindFrame_spec l kind tag s
  · obtain ⟨t, ht, here, others, quiet, lines, kept⟩ := frameDiscarded_spec l bytes s
    refine ⟨t, ht, here.trans ?_, others, quiet, lines, kept⟩
    rcases bad with bad | bad <;> simp only [discardFrame, bad]
  · obtain ⟨t, ht, here, -, quiet, -, kept⟩ := frameDiscarded_spec l bytes s
    refine ⟨t, ht, here.trans ?_, quiet, kept⟩
    simp only [discardFrame, waits]

/-! ### The words of a command -/

theorem field16_succ (b : Byte) (bs : List Byte) (n : Nat) : field16 (b :: bs) (n + 1) = field16 bs n := rfl

theorem field32_succ (b : Byte) (bs : List Byte) (n : Nat) : field32 (b :: bs) (n + 1) = field32 bs n := rfl

theorem fieldWord_succ (b : Byte) (bs : List Byte) (n : Nat) : fieldWord (b :: bs) (n + 1) = fieldWord bs n := rfl

theorem field16_zero (a b : Byte) (bs : List Byte) : field16 (a :: b :: bs) 0 = a.toNat * 256 + b.toNat := rfl

theorem field8_be8 {n : Nat} (h : n < 256) (bs : List Byte) : field8 (be8 n ++ bs) 0 = n := toNat_byte h

theorem field32_be32 {n : Nat} (h : n < 4294967296) (bs : List Byte) : field32 (be32 n ++ bs) 0 = n := toNat_quad h

theorem fieldWord_beWord (w : Word) (bs : List Byte) : fieldWord (beWord w ++ bs) 0 = w := by
  rw [fieldWord, beWord, field32_be32 w.isLt]
  simp

/-- Fields after a field of one byte, of two and of four. -/
theorem field8_skip1 (m n : Nat) (bs : List Byte) : field8 (be8 m ++ bs) (n + 1) = field8 bs n := rfl
theorem field8_skip2 (m n : Nat) (bs : List Byte) : field8 (be16 m ++ bs) (n + 2) = field8 bs n := rfl
theorem field8_skip4 (w : Word) (n : Nat) (bs : List Byte) : field8 (beWord w ++ bs) (n + 4) = field8 bs n := rfl
theorem field16_skip1 (m n : Nat) (bs : List Byte) : field16 (be8 m ++ bs) (n + 1) = field16 bs n := rfl
theorem field16_skip2 (m n : Nat) (bs : List Byte) : field16 (be16 m ++ bs) (n + 2) = field16 bs n := rfl
theorem field32_skip1 (m n : Nat) (bs : List Byte) : field32 (be8 m ++ bs) (n + 1) = field32 bs n := rfl
theorem field32_skip2 (m n : Nat) (bs : List Byte) : field32 (be16 m ++ bs) (n + 2) = field32 bs n := rfl
theorem fieldWord_skip1 (m n : Nat) (bs : List Byte) : fieldWord (be8 m ++ bs) (n + 1) = fieldWord bs n := rfl

/-- R176: a run of one-byte fields. -/
theorem fields8_flatMap {ns : List Nat} {n : Nat} (bytes : ∀ m ∈ ns, m < 256) (h : ns.length ≤ n) :
    fields8 n (ns.flatMap be8) = ns := by
  induction ns generalizing n with
  | nil => cases n <;> rfl
  | cons m ns ih =>
    cases n with
    | zero => simp at h
    | succ n =>
      simp only [List.flatMap_cons, be8, List.singleton_append, fields8, toNat_byte (bytes m (by simp))]
      exact congrArg _ (ih (fun k hk => bytes k (by simp [hk])) (by simpa using h))

/-- R176: a run of two-byte fields. -/
theorem fields16_flatMap {ns : List Nat} {n : Nat} (halves : ∀ m ∈ ns, m < 65536) (h : ns.length ≤ n) :
    fields16 n (ns.flatMap be16) = ns := by
  induction ns generalizing n with
  | nil => cases n <;> rfl
  | cons m ns ih =>
    cases n with
    | zero => simp at h
    | succ n =>
      simp only [List.flatMap_cons, be16, List.cons_append, List.nil_append, fields16, toNat_half (halves m (by simp))]
      exact congrArg _ (ih (fun k hk => halves k (by simp [hk])) (by simpa using h))

theorem length_flatMap_be16 (ns : List Nat) : (ns.flatMap be16).length = 2 * ns.length := by
  induction ns with
  | nil => rfl
  | cons n ns ih => simp [be16, ih]; omega

/-- R176: one-byte fields read one by one. -/
theorem field8_flatMap {ns : List Nat} (bytes : ∀ m ∈ ns, m < 256) (n : Nat) (h : n < ns.length) :
    field8 (ns.flatMap be8) n = ns[n] := by
  induction ns generalizing n with
  | nil => simp at h
  | cons m ns ih =>
    cases n with
    | zero => exact field8_be8 (bytes m (by simp)) _
    | succ n => exact ih (fun k hk => bytes k (by simp [hk])) n (by simpa using h)

theorem range8_fields {ns : List Nat} (bytes : ∀ m ∈ ns, m < 256) (h : ns.length = 8) :
    (List.range 8).map (fun n => field8 (ns.flatMap be8) n) = ns := by
  refine List.ext_getElem (by simp [h]) fun n h1 h2 => ?_
  simp only [List.getElem_map, List.getElem_range]
  exact field8_flatMap bytes n h2

theorem field8_last {n : Nat} (h : n < 256) : field8 (be8 n) 0 = n := toNat_byte h
theorem field16_last {n : Nat} (h : n < 65536) : field16 (be16 n) 0 = n := toNat_half h
theorem field32_last {n : Nat} (h : n < 4294967296) : field32 (be32 n) 0 = n := toNat_quad h
theorem fieldWord_last (w : Word) : fieldWord (beWord w) 0 = w := by simpa using fieldWord_beWord w []
theorem drop_skip1 (m n : Nat) (bs : List Byte) : (be8 m ++ bs).drop (n + 1) = bs.drop n := rfl

/-- R176: the fields of a well-formed request are read back from its body. -/
theorem decodeRequest_fields {c : Instr} {k : Kind} {h : Header} {fields : List Byte} (hw : c.wf = true)
    (hr : requestFields c = some (k, h, fields)) (hl : h.len = 1 + fields.length) :
    decodeRequest k h (be8 h.op ++ fields) = c := by
  cases c <;> cases hr <;>
    simp only [Instr.wf, AlarmFields.wf, PositionFields.wf, isByte, isHalf, Bool.and_eq_true, decide_eq_true_eq, bne_iff_ne, ne_eq,
      beq_iff_eq, List.all_eq_true] at hw
  case commission hold rates =>
    obtain ⟨⟨⟨-, hold'⟩, eight⟩, bytes⟩ := hw
    simp only [decodeRequest, field16_skip1, field16_be16 hold', Nat.add_comm 3, field8_skip1, field8_skip2]
    rw [range8_fields bytes eight]
  case ackList count indices =>
    obtain ⟨⟨⟨-, count'⟩, halves⟩, length⟩ := hw
    simp only [List.length_append, length_flatMap_be16, be8, List.length_singleton] at hl
    simp only [decodeRequest, field8_skip1, field8_be8 count', drop_skip1, List.drop_zero]
    rw [fields16_flatMap halves (by omega)]
  case noteAdd code len text =>
    obtain ⟨⟨⟨-, code'⟩, len'⟩, length⟩ := hw
    simp only [List.length_append, be8, List.length_singleton] at hl
    simp only [decodeRequest, List.append_assoc, field8_skip1, field8_be8 code', field8_be8 len', drop_skip1, List.drop_zero]
    rw [List.take_of_length_le (by omega)]
  case itemConfirm count numbers =>
    obtain ⟨⟨⟨-, count'⟩, bytes⟩, length⟩ := hw
    simp only [List.length_append, Laws.BodyLength.length_flatMap_be8, be8, List.length_singleton] at hl
    simp only [decodeRequest, field8_skip1, field8_be8 count', drop_skip1, List.drop_zero]
    rw [fields8_flatMap bytes (by omega)]
  all_goals
    simp [decodeRequest, List.append_assoc, field8_skip1, field8_skip2, field8_skip4, field16_skip1, field16_skip2, field32_skip1,
      field32_skip2, fieldWord_skip1, field8_be8, field16_be16, field32_be32, fieldWord_beWord, field8_last, field16_last, field32_last,
      fieldWord_last, hw]

/-- Table 10-8: a request kind is the one its KIND names. -/
theorem kindOf?_kindCode (k : Kind) : kindOf? (BitVec.ofNat 8 (kindCode k)).toNat = some k := by cases k <;> rfl

theorem header_wf_of_request {c : Instr} {k : Kind} {h : Header} {fields : List Byte} (hw : c.wf = true)
    (hr : requestFields c = some (k, h, fields)) : h.wf = true := by
  cases c <;> cases hr <;> simp only [Instr.wf, Bool.and_eq_true] at hw <;> simp [hw]

theorem encodeFrame_request {c : Instr} {k : Kind} {h : Header} {fields : List Byte} (hr : requestFields c = some (k, h, fields)) :
    encodeFrame c = some (h.link, receivedFrame (BitVec.ofNat 8 (kindCode k)) h.tag (be8 h.op ++ fields)) := by
  cases c <;> cases hr <;> rfl

/-- Settles O16: a request by its kind and its fields, a FLOW record by its value. -/
theorem decodeOfEncodeIsTheCommand : Obligations.DecodeOfEncodeIsTheCommand := by
  intro c l f hw he hl
  cases hr : requestFields c with
  | some r =>
    obtain ⟨k, h, fields⟩ := r
    rw [encodeFrame_request hr] at he
    cases he
    have len : h.len = (be8 h.op ++ fields).length := hl k h fields hr
    have op : field8 (be8 h.op ++ fields) 0 = h.op := field8_be8 (by
      have := header_wf_of_request hw hr
      simp only [Header.wf, isByte, Bool.and_eq_true, decide_eq_true_eq] at this
      exact this.2) fields
    have header : ({ link := h.link, tag := h.tag, len := (be8 h.op ++ fields).length, op := field8 (be8 h.op ++ fields) 0 } : Header) = h := by
      rw [op, ← len]
    simp only [decodeFrame, receivedFrame, kindOf?_kindCode, header]
    exact decodeRequest_fields hw hr (by rw [len]; simp [be8]; omega)
  | none =>
    cases c <;> simp only [encodeFrame, hr, Option.map_none, reduceCtorEq] at he
    case flowGo m => cases he; rfl
    case flowHold m v =>
      cases he
      cases v with
      | none => rfl
      | some b =>
        have nonzero : b ≠ 0 := by simpa [Instr.wf] using hw
        have first : ([b] : List Byte).head? ≠ some 0 := by simpa using nonzero
        show decodeFlow l [b] = _
        rw [decodeFlow, if_neg first]
        rfl

end Sys2Proof.Machine
end

section
/-! PROOFS. Flow, the relay and commissioning: what each leaves at a link that is sending, and at a link that is free. -/

namespace Sys2Proof.Machine

/-! ### A link at the end of a command -/

/-- R168, R171: at the end of a command a link has had the chance to start a frame, and has come to rest. -/
theorem settle_link (s : State) (l : Link) : ∃ u, Kept [.links] s u ∧ u.links.get l = s.links.get l ∧
    (settle s).links.get l = ((startNext l u).links.get l).rest (holdTimeOf s l) := by
  obtain ⟨u, kept, same, ended⟩ := settle_get s l
  refine ⟨u, kept, same, ?_⟩
  have after : Kept [.links] s (startNext l u) := kept.trans (kept_startNext ..)
  have hold : holdTimeOf (startNext l u) l = holdTimeOf s l := by
    obtain ⟨-, -, -, -, plant⟩ := after.agrees .device (by simp)
    have positions : (startNext l u).positions = s.positions := after.agrees .positions (by simp)
    cases l <;> simp [holdTimeOf, positions, plant]
  rw [ended, settleLink, modLink_get_self, hold]

theorem settle_link_busy {s : State} {l : Link} (h : (s.links.get l).sending ≠ none) :
    (settle s).links.get l = (s.links.get l).rest (holdTimeOf s l) := by
  obtain ⟨u, -, same, ended⟩ := settle_link s l
  rw [ended, startNext_busy (by rw [same]; exact Option.ne_none_iff_isSome.1 h), same]

theorem LinkState.judgeHold_judgeHold (k : LinkState) (n : Nat) : (k.judgeHold n).judgeHold n = k.judgeHold n := by
  have runs : (k.judgeHold n).holdRuns = k.holdRuns := k.judgeHold_holdRuns n
  rw [LinkState.judgeHold, runs]
  cases hr : k.holdRuns <;> simp [LinkState.judgeHold, hr]

/-- R170: a link comes to rest with its SNAPSHOT as it stood, but for one that cannot go on. -/
theorem LinkState.rest_going {k : LinkState} (n : Nat) (h : k.snapshot = [] ∨ k.mayNotify = true) :
    k.rest n = k.judgeHold n := by
  have going : (!k.snapshot.isEmpty && !k.mayNotify) = false := by
    rcases h with h | h <;> simp [h]
  have kept : (k.judgeHold n).dropStalled = k.judgeHold n := if_neg (Bool.not_eq_true _ ▸ going)
  rw [LinkState.rest, kept, LinkState.judgeHold_judgeHold]

/-- R170: a SNAPSHOT that cannot go on is abandoned. -/
theorem LinkState.rest_stalled {k : LinkState} (n : Nat) (h : k.snapshot ≠ []) (stopped : k.mayNotify = false) :
    (k.rest n).snapshot = [] ∧ (k.rest n).snapshotDue = true ∧
      (k.rest n).queue = k.queue.filter fun q => !(q.notice.isList && q.since) := by
  have stalled : (!k.snapshot.isEmpty && !k.mayNotify) = true := by simp [h, stopped]
  have dropped : (k.judgeHold n).dropStalled = (k.judgeHold n).abandon := if_pos stalled
  rw [LinkState.rest, dropped]
  exact ⟨rfl, rfl, rfl⟩

theorem LinkState.dropStalled_allowance (k : LinkState) : k.dropStalled.allowance = k.allowance := by
  unfold LinkState.dropStalled
  split <;> rfl

theorem LinkState.rest_allowance (k : LinkState) (n : Nat) : (k.rest n).allowance = k.allowance :=
  LinkState.dropStalled_allowance (k.judgeHold n)

theorem LinkState.rest_stopped {k : LinkState} (n : Nat) (h : k.up = false ∨ k.flow = .go) : (k.rest n).holdTimer = none := by
  have line := k.rest_sameLine n
  have runs := k.rest_holdTimer n
  have stopped : (k.rest n).holdRuns = false := by
    rcases h with h | h <;> simp [LinkState.holdRuns, line.up, line.flow, h]
  simpa [stopped] using runs

/-! ### FLOW records -/

theorem modLink_others {l m : Link} {f : LinkState → LinkState} {s : State} (hm : m ≠ l) :
    (modLink l f s).links.get m = s.links.get m := by rw [modLink_get, if_neg hm]

theorem settle_flow_up {s u : State} {m : Link} (h : u.links.get m = s.links.get m) :
    ((settle u).links.get m).flow = (s.links.get m).flow ∧ ((settle u).links.get m).up = (s.links.get m).up := by
  have line := settle_sameLine u m
  exact ⟨line.flow.trans (congrArg _ h), line.up.trans (congrArg _ h)⟩

/-- R171, R173: a GO record, in the part before the end of the command. -/
theorem flowGo_next (l : Link) (s : State) : ∃ u, exec (.flowGo l) s = .next (settle u) ∧
    (∀ m, m ≠ l → u.links.get m = s.links.get m) ∧
    (u.links.get l).flow = .go ∧ (u.links.get l).up = true ∧ (u.links.get l).sending = (s.links.get l).sending ∧
    ((s.links.get l).up = true → (u.links.get l).snapshotDue = (s.links.get l).snapshotDue ∧ Kept [.links] s u) ∧
    ((s.links.get l).up = false → (l ≠ .plant → (u.links.get l).snapshotDue = true) ∧
      Journaled [⟨.linkUp, linkPosition l, none, none, l.num⟩] s u ∧ Kept [.links, .journal] s u) := by
  have taken : (takeFrame l s).links.get l = { s.links.get l with received := afterFrame (s.links.get l).received } :=
    modLink_get_self ..
  have kept := kept_takeFrame s l
  have others {m : Link} (hm : m ≠ l) : (takeFrame l s).links.get m = s.links.get m := modLink_others hm
  have next : exec (.flowGo l) s = .next (settle (if (s.links.get l).up then modLink l LinkState.takeGo (takeFrame l s)
      else bringUp l (takeFrame l s))) := by
    have same : ((takeFrame l s).links.get l).up = (s.links.get l).up := by rw [taken]
    rw [← same]
    rfl
  refine ⟨_, next, ?_⟩
  cases up : (s.links.get l).up
  · refine ⟨fun m hm => ?_, ?_, ?_, ?_, nofun, fun _ => ⟨fun console => ?_, ?_, ?_⟩⟩
    · rw [if_neg Bool.false_ne_true, bringUp, append_links, modLink_others hm, others hm]
    all_goals simp only [Bool.false_eq_true, if_false, bringUp, append_links, modLink_get_self, taken, LinkState.takeGo]
    · simp [console]
    · exact journaled_append ..
    · exact ((kept.trans (kept_modLink ..)).mono (by simp)).trans ((quiet_append ..).kept.mono (by simp))
  · refine ⟨fun m hm => ?_, ?_, ?_, ?_, fun _ => ⟨?_, ?_⟩, nofun⟩
    · exact (modLink_others hm).trans (others hm)
    all_goals simp only [if_true, modLink_get_self, taken, LinkState.takeGo, up]
    exact kept.trans (kept_modLink ..)

/-- R171: a HOLD record, or another value, in the part before the end of the command. -/
theorem flowHold_next (l : Link) (value : Option Byte) (s : State) : ∃ u, exec (.flowHold l value) s = .next (settle u) ∧
    (∀ m, m ≠ l → u.links.get m = s.links.get m) ∧ Kept [.links] s u ∧
    u.links.get l = { (if value = some 1 then (s.links.get l).takeHold else s.links.get l) with
      received := afterFrame (s.links.get l).received } := by
  have taken : (takeFrame l s).links.get l = { s.links.get l with received := afterFrame (s.links.get l).received } :=
    modLink_get_self ..
  have kept := kept_takeFrame s l
  refine ⟨if value = some 1 then modLink l LinkState.takeHold (takeFrame l s) else takeFrame l s, rfl, fun m hm => ?_, ?_, ?_⟩
  · split
    · exact (modLink_others hm).trans (modLink_others hm)
    · exact modLink_others hm
  · split
    · exact kept.trans (kept_modLink ..)
    · exact kept
  · split
    · rw [modLink_get_self, taken]
      unfold LinkState.takeHold
      split <;> rfl
    · exact taken

/-- Settles O21: the link is sending, so that it only comes to rest. -/
theorem flowRecordsHoldAndFreeTheLink : Obligations.FlowRecordsHoldAndFreeTheLink := by
  refine ⟨fun l s busy => ?_, fun l s go busy => ?_, fun l value s other busy => ?_⟩
  · obtain ⟨u, next, others, flow, up, sending, stayed, came⟩ := flowGo_next l s
    have line := settle_sameLine u l
    have rested := settle_link_busy (s := u) (l := l) (by rwa [sending])
    have going : (u.links.get l).mayNotify = true := by simp [LinkState.mayNotify, flow, up]
    rw [LinkState.rest_going _ (.inr going)] at rested
    have due : ((settle u).links.get l).snapshotDue = (u.links.get l).snapshotDue := by rw [rested]; rfl
    refine ⟨settle u, next, line.flow.trans flow, line.up.trans up, ?_, fun m hm => settle_flow_up (others m hm),
      (runs_execFlowGo l).noReply next, fun h => ?_, fun h => ?_⟩
    · rw [rested]; simp [LinkState.judgeHold, LinkState.holdRuns, flow]
    · obtain ⟨same, kept⟩ := stayed h
      exact ⟨due.trans same, kept.trans (kept_settle u)⟩
    · obtain ⟨console, entry, kept⟩ := came h
      refine ⟨fun hl => due.trans (console hl), ?_, kept.trans ((kept_settle u).mono (by simp))⟩
      exact entry.before (.of_kept (kept_settle u) (by simp)) (kept.agrees .clock (by simp)).1
  · obtain ⟨u, next, others, kept, here⟩ := flowHold_next l (some 1) s
    have line := settle_sameLine u l
    have taken : u.links.get l = { s.links.get l with
        flow := .hold, allowance := true, received := afterFrame (s.links.get l).received } := by
      rw [here, if_pos rfl, LinkState.takeHold, if_pos go]
    refine ⟨settle u, next, ?_, ?_, ?_, fun m hm => settle_flow_up (others m hm), (runs_execFlowHold l _).noReply next,
      kept.trans (kept_settle u)⟩
    · rw [line.flow, taken]
    · rw [settle_link_busy (by rw [taken]; exact busy), LinkState.rest_allowance, taken]
    · rw [line.up, taken]
  · obtain ⟨u, next, others, kept, here⟩ := flowHold_next l value s
    have same : u.links.get l = { s.links.get l with received := afterFrame (s.links.get l).received } := by
      rw [here]
      split
      · rename_i hold
        have held := other.resolve_left (not_not.2 hold)
        rw [LinkState.takeHold, if_neg (by simp [held])]
      · rfl
    refine ⟨settle u, next, ?_, ?_, (runs_execFlowHold l _).noReply next, kept.trans (kept_settle u)⟩
    · rw [settle_link_busy (by rw [same]; exact busy), LinkState.rest_allowance, same]
    · refine LinesKept.trans (fun m => ?_) (settle_lines u)
      by_cases hm : m = l
      · subst hm; rw [same]; exact ⟨rfl, rfl, rfl, rfl⟩
      · rw [others m hm]; exact ⟨rfl, rfl, rfl, rfl⟩

/-! ### The relay -/

theorem Link.all_sorted : Link.all.Pairwise fun a b => a.num < b.num := by decide

/-- R175: the lowest DOWN link. -/
theorem find?_down {s : State} {l : Link} (down : (s.links.get l).up = false)
    (lower : ∀ m, m.num < l.num → (s.links.get m).up = true) : (Link.all.find? fun m => !(s.links.get m).up) = some l := by
  obtain ⟨m, hm⟩ := Option.isSome_iff_exists.1
    (List.find?_isSome (p := fun m => !(s.links.get m).up).2 ⟨l, Link.mem_all l, by simp [down]⟩)
  obtain ⟨fell, as, bs, split, before⟩ := List.find?_eq_some_iff_append.1 hm
  have place : l ∈ as ∨ l = m ∨ l ∈ bs := by simpa [split] using Link.mem_all l
  have sorted := Link.all_sorted
  rw [split, List.pairwise_append, List.pairwise_cons] at sorted
  rcases place with early | rfl | late
  · have := before l early
    simp [down] at this
  · exact hm
  · have := lower m (sorted.2.1.1 l late)
    simp [this] at fell

theorem linksUpCheck_takeFrame (l : Link) (s : State) : linksUpCheck (takeFrame l s) = linksUpCheck s := by
  have up (m : Link) : ((takeFrame l s).links.get m).up = (s.links.get m).up := (takeFrame_lines l s m).2.1
  simp only [linksUpCheck, up]

theorem firstRefusal_append {cs ds : List Check} (h : firstRefusal cs = none) : firstRefusal (cs ++ ds) = firstRefusal ds := by
  induction cs with
  | nil => rfl
  | cons c cs ih =>
    rw [firstRefusal_cons_eq_none] at h
    rw [List.cons_append, firstRefusal, if_pos h.1, ih h.2]

/-- Settles O23. -/
theorem relayResetDeEnergises : Obligations.RelayResetDeEnergises := by
  have upChecked {h : Header} {s : State} (from' : FromGatewayOrSupervisor h s) (up : ∀ l, (s.links.get l).up = true) :
      firstRefusal (supervisorUnlessPlant h (takeFrame h.link s) ++ [linksUpCheck (takeFrame h.link s)]) = none := by
    rw [firstRefusal_append (firstRefusal_supervisorUnlessPlant (s := takeFrame h.link s) from'), linksUpCheck_takeFrame]
    simp [linksUpCheck, up]
  refine ⟨fun h s hp from' up energised => ?_, fun h s hp from' up rest => ?_, fun h s l hp from' down lower => ?_⟩
  · have relay : Quiet [.links, .journal, .device] (takeFrame h.link s) { takeFrame h.link s with relay := false } :=
      (quiet_relay _ false).mono (by simp)
    have quiet : Quiet [.links, .journal, .device] (takeFrame h.link s) (append .relayReset none (actingSupervisor h) none h.link.num
        { takeFrame h.link s with relay := false }) := relay.trans ((quiet_append ..).mono (by simp))
    have worked : (takeFrame h.link s).relay = true := energised
    refine request_done rfl hp ((judged_of_none (upChecked from' up) _).trans (if_pos worked)) quiet fun t done => ?_
    obtain ⟨run, kind, count, relay, hold⟩ := done.agrees .device nofun
    exact ⟨relay, done.replied, done.journaled (journaled_append ..), run, hold, count, kind, done.lines,
      done.kept quiet.kept (by simp)⟩
  · have resting : ¬(takeFrame h.link s).relay = true := by simpa using rest
    exact request_done rfl hp ((judged_of_none (upChecked from' up) _).trans (if_neg resting)) (.refl [.links] _) fun t done =>
      ⟨done.replied, done.lines, done.kept (.refl ..) (by simp)⟩
  · have refused : firstRefusal (supervisorUnlessPlant h (takeFrame h.link s) ++ [linksUpCheck (takeFrame h.link s)]) =
        some (.badState, l.num) := by
      rw [firstRefusal_append (firstRefusal_supervisorUnlessPlant (s := takeFrame h.link s) from'), linksUpCheck_takeFrame]
      simp [linksUpCheck, find?_down down lower, firstRefusal]
    refine request_refused rfl hp (judged_of_some refused _) (.refl [.links] _) fun t done => ⟨done.replied, ?_⟩
    have unentered : journalRefusal h .relayReset none (.refused .badState l.num) (takeFrame h.link s) = takeFrame h.link s := by
      unfold journalRefusal
      split
      · rename_i hl hr; cases hr; rfl
      · rfl
    rw [unentered] at done
    exact done.kept (.refl ..) (by simp)

/-! ### Commissioning -/

/-- R165: one answer on the requesting link, where the body puts no frame on a link. -/
theorem replied_of_still {ps : List Part} {k : Kind} {h : Header} {a : Answer} {s u : State} (q : Still ps (takeFrame h.link s) u)
    (answers : answerFrames k h.tag a ≠ []) : Replied k h a s (settle (reply h k a u)) := by
  have sent (l : Link) : outgoing u l = outgoing s l := by rw [q.outgoing, takeFrame_outgoing]
  have held (l : Link) : ∀ f ∈ (u.links.get l).snapshot, f ∈ (s.links.get l).snapshot := fun f hf =>
    takeFrame_snapshot h.link l s ▸ q.snapshot l f hf
  refine ⟨?_, fun l hl => ?_⟩
  · rw [settle_outgoing] <;> rw [reply_outgoing, if_pos rfl, sent]
    simp [answers]
  · have starts := settle_sends (reply h k a u) l
    simp only [OnlyNoticeStarts, reply_outgoing, if_neg hl, sent, reply_snapshot] at starts
    exact starts.imp_right fun ⟨free, f, hf, one⟩ => ⟨free, f, hf.imp_right (held l f), one⟩

/-- A request whose body also writes what links keep: what holds of every state that it may leave. -/
theorem request_still {ps : List Part} {k : Kind} {h : Header} {i : Option Nat} {body : State → State × Answer} {s u : State}
    {es : List (List Byte)} {g : Bool} {P : State → Prop} {out : Host.Outcome State Fault Refusal}
    (ho : out = serve k h i body s) (hp : Passes k h s) (hb : body (takeFrame h.link s) = (u, .done es g))
    (q : Still ps (takeFrame h.link s) u)
    (hP : Replied k h (.done es g) s (settle (reply h k (.done es g) u)) → P (settle (reply h k (.done es g) u))) :
    ∃ t, out = .next t ∧ P t := by
  exact ⟨_, ho.trans (serve_done hp hb), hP (replied_of_still q (answerFrames_ne_nil _ _ _ nofun))⟩

/-- Settles O24. -/
theorem commissionAndResyncEndOpenThePart : Obligations.CommissionAndResyncEndOpenThePart := by
  refine ⟨fun h hold rates s hp state range => ?_, fun h s hp state => ?_⟩
  · have checked : firstRefusal [⟨rates.all (decide <| · ≤ 3), .malformed, (rates.find? (decide <| 3 < ·)).getD 0⟩,
        ⟨(takeFrame h.link s).runState == .unconfigured, .badState, runStateCode (takeFrame h.link s).runState⟩] = none := by
      simpa [state] using range
    have held : Still [.links, .device] (takeFrame h.link s)
        { takeFrame h.link s with plantHold := clamp 2 60 hold, runState := .resync } :=
      (Still.of (kept_commissioned ..) (by simp)).mono (by simp)
    have still := held.trans ((still_storeRates _ rates).mono (by simp))
    refine request_still rfl hp (judged_of_none checked _) still fun replied => ?_
    have stored (l : Link) : let k := (storeRates rates { takeFrame h.link s with
          plantHold := clamp 2 60 hold, runState := .resync }).links.get l
        k.storedRate = rates.getD l.num 0 ∧ k.rate = (s.links.get l).rate ∧ k.up = (s.links.get l).up ∧ k.flow = (s.links.get l).flow := by
      obtain ⟨flow, up, rate, -⟩ := takeFrame_lines h.link s l
      simp only [storeRates, PerLink.get_map]
      exact ⟨trivial, rate, up, flow⟩
    have device : Agrees { takeFrame h.link s with plantHold := clamp 2 60 hold, runState := .resync }
        (storeRates rates { takeFrame h.link s with plantHold := clamp 2 60 hold, runState := .resync }) .device :=
      (still_storeRates _ rates).kept.agrees .device (by simp)
    generalize storeRates rates { takeFrame h.link s with plantHold := clamp 2 60 hold, runState := .resync } = u at *
    generalize ht : settle (reply h _ _ u) = t at replied
    have ended : Kept [.links] u t := ht ▸ (kept_reply ..).trans (kept_settle _)
    have lines : LinesKept u t := ht ▸ LinesKept.trans (reply_lines h _ _ u) (settle_lines _)
    obtain ⟨run, kind, count, relay, plant⟩ := ended.agrees .device (by simp)
    obtain ⟨run', kind', count', relay', plant'⟩ := device
    have plantHold : t.plantHold = clamp 2 60 hold := plant.trans plant'
    refine ⟨run.trans run', plantHold, ?_, fun l => ?_, relay.trans relay', count.trans count', kind.trans kind', ?_⟩
    · rw [plantHold]
      simpa [doneWith, clampMark, eq_comm] using replied
    · obtain ⟨flow, up, rate, storedRate⟩ := lines l
      obtain ⟨storedRate', rate', up', flow'⟩ := stored l
      exact ⟨storedRate.trans storedRate', rate.trans rate', up.trans up', flow.trans flow'⟩
    · exact (((kept_takeFrame ..).mono (by simp)).trans still.kept).trans (ended.mono (by simp))
  · have checked : firstRefusal [⟨(takeFrame h.link s).runState == .resync, .badState, runStateCode (takeFrame h.link s).runState⟩] =
        none := by simp [state]
    have quiet : Quiet [.links, .device, .alarms] (takeFrame h.link s) { takeFrame h.link s with
        alarms := (takeFrame h.link s).alarms.map fun e => (e.1, { e.2 with dyn := e.2.dyn.endResync }), runState := .running } :=
      .of ⟨fun p hp => by cases p <;> simp_all [Agrees]⟩ rfl
    refine request_done rfl hp (judged_of_none checked _) quiet fun t done => ?_
    obtain ⟨run, kind, count, relay, plant⟩ := done.agrees .device nofun
    have alarms : t.alarms = s.alarms.map fun e => (e.1, { e.2 with dyn := e.2.dyn.endResync }) := done.agrees .alarms nofun
    refine ⟨run, fun i => ?_, done.replied, relay, count, kind, plant, done.lines, done.kept quiet.kept (by simp)⟩
    have mapped := Table.get?_map s.alarms (fun a => { a with dyn := a.dyn.endResync }) i
    rw [alarm?, alarms]
    refine mapped.trans (Option.map_congr fun a _ => ?_)
    unfold AlarmDyn.endResync
    split <;> rfl

end Sys2Proof.Machine
end

section
/-! PROOFS. FAULT notices along their chains, and the frames that a free link starts (R168, R170, R172, R174, R175). -/

namespace Sys2Proof.Machine

/-! ### FAULT notices -/

/-- R174, R175: FAULT notices have been routed: `told` joined the queues that had room for them, and the sources `xs` found no
UP link, so that the relay is energised for the first of them. -/
structure Routed (told : Link → List Notice) (xs : List Link) (s t : State) : Prop where
  kept : Kept [.links, .journal, .device] s t
  device : t.runState = s.runState ∧ t.startKind = s.startKind ∧ t.restarts = s.restarts ∧ t.plantHold = s.plantHold
  lines : LinesKept s t
  down : ∀ m, (s.links.get m).up = false → t.links.get m = s.links.get m
  queued : ∀ m, (s.links.get m).up = true → (s.links.get m).snapshot = [] → (s.links.get m).queue.length + (told m).length ≤ 32 →
    (t.links.get m).queue = (s.links.get m).queue ++ (told m).map (fun n => ⟨n, false⟩) ∧ (t.links.get m).snapshot = [] ∧
      (t.links.get m).sending = (s.links.get m).sending
  relay : t.relay = (s.relay || !xs.isEmpty)
  entry : Journaled (if s.relay then [] else xs.head?.toList.map fun x => ⟨.relayEnergised, none, none, none, x.num⟩) s t

namespace Routed
variable {told more : Link → List Notice} {xs ys : List Link} {s t u : State}

theorem refl (s : State) : Routed (fun _ => []) [] s s :=
  ⟨.refl .., ⟨rfl, rfl, rfl, rfl⟩, fun _ => ⟨rfl, rfl, rfl, rfl⟩, fun _ _ => rfl, fun m _ h _ => by simp [h], by simp,
    by cases s.relay <;> exact .refl s⟩

theorem trans (h : Routed told xs s t) (k : Routed more ys t u) : Routed (fun m => told m ++ more m) (xs ++ ys) s u where
  kept := h.kept.trans k.kept
  device := by
    obtain ⟨h1, h2, h3, h4⟩ := h.device
    obtain ⟨k1, k2, k3, k4⟩ := k.device
    exact ⟨k1.trans h1, k2.trans h2, k3.trans h3, k4.trans h4⟩
  lines := h.lines.trans k.lines
  down m hm := (k.down m ((h.lines m).2.1.trans hm)).trans (h.down m hm)
  queued m up snapshot room := by
    simp only [List.length_append] at room
    obtain ⟨queue, quiet, sending⟩ := h.queued m up snapshot (by omega)
    obtain ⟨queue', quiet', sending'⟩ := k.queued m ((h.lines m).2.1.trans up) quiet (by simp [queue]; omega)
    exact ⟨by simp [queue', queue], quiet', sending'.trans sending⟩
  relay := by
    rw [k.relay, h.relay]
    cases xs <;> cases ys <;> simp
  entry := by
    have joined := h.entry.trans k.entry (h.kept.agrees .clock (by simp)).1
    rw [h.relay] at joined
    cases hr : s.relay <;> cases xs <;> simp_all

theorem congr {told' : Link → List Notice} (h : Routed told xs s t) (e : ∀ m, told' m = told m) : Routed told' xs s t := funext e ▸ h

end Routed

theorem routed_notify (m : Link) (x : Link) (s : State) (up : (s.links.get m).up = true) :
    Routed (fun k => if k = m then [.fault x] else []) [] s (notify m (.fault x) s) := by
  have quiet := quiet_notify s m (.fault x)
  refine ⟨quiet.kept.mono (by simp), ⟨rfl, rfl, rfl, rfl⟩, quiet.lines, fun k hk => ?_, fun k hk snapshot room => ?_, by simp [notify],
    by cases s.relay <;> exact .of_kept quiet.kept (by simp)⟩
  · refine modLink_others ?_
    rintro rfl
    rw [up] at hk; cases hk
  · by_cases hm : k = m
    · subst hm
      simp only [if_true, List.length_singleton] at room
      have joined : (s.links.get k).join (k != .plant) (.fault x) =
          { s.links.get k with queue := (s.links.get k).queue ++ [⟨.fault x, false⟩] } := by
        simp [LinkState.join, hk, snapshot, Notice.isList, Config.queueCapacity, show (s.links.get k).queue.length < 32 by omega]
      rw [notify, modLink_get_self, joined]
      exact ⟨by simp, snapshot, rfl⟩
    · rw [notify, modLink_others hm]
      exact ⟨by simp [hm], snapshot, rfl⟩

/-- R174: one notice along a chain. -/
theorem routed_routeFault (x : Link) (chain : List Link) (s : State) :
    Routed (fun m => if chain.find? (fun l => (s.links.get l).up) = some m then [.fault x] else [])
      (if chain.any (fun l => (s.links.get l).up) then [] else [x]) s (routeFault x chain s) := by
  cases found : chain.find? fun l => (s.links.get l).up with
  | some m =>
    have up : (s.links.get m).up = true := by simpa using List.find?_some found
    have any : chain.any (fun l => (s.links.get l).up) = true := List.any_eq_true.2 ⟨m, List.mem_of_find?_eq_some found, up⟩
    rw [if_pos any, routeFault, found]
    exact (routed_notify m x s up).congr fun k => by simp [eq_comm]
  | none =>
    have any : ¬chain.any (fun l => (s.links.get l).up) = true := by
      simpa [List.find?_eq_none] using found
    rw [if_neg any, routeFault, found]
    refine Routed.congr (told := fun _ => []) ?_ fun k => by simp
    simp only
    split
    · rename_i energised
      exact ⟨.refl .., ⟨rfl, rfl, rfl, rfl⟩, fun _ => ⟨rfl, rfl, rfl, rfl⟩, fun _ _ => rfl, fun m _ h _ => by simp [h],
        by simp [energised], by simpa [energised] using Journaled.refl s⟩
    · rename_i rest
      have kept : Kept [.links, .journal, .device] s (append .relayEnergised none none none x.num { s with relay := true }) :=
        ((quiet_relay s true).kept.mono (by simp)).trans ((quiet_append ..).kept.mono (by simp))
      refine ⟨kept, ⟨rfl, rfl, rfl, rfl⟩, fun _ => ⟨rfl, rfl, rfl, rfl⟩, fun _ _ => rfl, fun m _ h _ => by simp [h], by simp, ?_⟩
      have entry : Journaled [⟨.relayEnergised, none, none, none, x.num⟩] s
        (append .relayEnergised none none none x.num { s with relay := true }) := ⟨rfl, rfl⟩
      simp only [rest]
      exact entry

/-- R172 step 3: only a notice of P1 to P6 waiting at P0 has a link left on its chain. -/
theorem chainAfter_eq (l x : Link) : chainAfter l x = if l = .console .p0 ∧ x ≠ .plant ∧ x ≠ .console .p0 then [.plant] else [] := by
  cases l with
  | plant => cases x with
    | plant => rfl
    | console q => cases q <;> rfl
  | console p => cases x with
    | plant => cases p <;> rfl
    | console q => cases p <;> cases q <;> rfl

/-- R172 step 3: the notice of a source that waited at a link passes on to the plant link. -/
def passesOn (l : Link) (plantUp : Bool) (x : Link) : Bool :=
  decide (l = .console .p0 ∧ x ≠ .plant ∧ x ≠ .console .p0 ∧ plantUp = true)

/-- The sources of the FAULT notices that wait in a queue. -/
def waitingFaults (qs : List Queued) : List Link := qs.filterMap fun q => match q.notice with | .fault x => some x | _ => none

theorem routed_passFault (l : Link) (s : State) (x : Link) : let p := passesOn l (s.links.get .plant).up x
    Routed (fun m => if m = .plant ∧ p = true then [.fault x] else []) (if p then [] else [x]) s
      (routeFault x (chainAfter l x) s) := by
  have routed := routed_routeFault x (chainAfter l x) s
  rw [chainAfter_eq] at routed ⊢
  by_cases after : l = .console .p0 ∧ x ≠ .plant ∧ x ≠ .console .p0
  · rw [if_pos after] at routed ⊢
    cases up : (s.links.get .plant).up <;> simp only [List.find?_cons, List.any_cons, up] at routed <;>
      simpa [passesOn, after, eq_comm] using routed
  · rw [if_neg after] at routed ⊢
    have stays : passesOn l (s.links.get .plant).up x = false := by
      simp only [passesOn, decide_eq_false_iff_not]
      exact fun h => after ⟨h.1, h.2.1, h.2.2.1⟩
    simpa [stays] using routed

/-- R172 step 3: the notices that waited, in order. -/
theorem routed_foldl_passFault (l : Link) (qs : List Queued) (s : State) : let p := passesOn l (s.links.get .plant).up
    Routed (fun m => if m = .plant then ((waitingFaults qs).filter p).map .fault else []) ((waitingFaults qs).filter fun x => !p x) s
      (qs.foldl (passFault l) s) := by
  induction qs generalizing s with
  | nil => exact (Routed.refl s).congr fun m => by simp [waitingFaults]
  | cons q qs ih =>
    cases hq : q.notice with
    | fault x =>
      have step := routed_passFault l s x
      have rest := ih (routeFault x (chainAfter l x) s)
      have same : ((routeFault x (chainAfter l x) s).links.get .plant).up = (s.links.get .plant).up := (step.lines .plant).2.1
      rw [same] at rest
      have passed : passFault l s q = routeFault x (chainAfter l x) s := by simp [passFault, hq]
      rw [List.foldl_cons, passed]
      have waiting : waitingFaults (q :: qs) = x :: waitingFaults qs := by simp [waitingFaults, hq]
      have joined := step.trans rest
      simp only [waiting]
      cases hp : passesOn l (s.links.get .plant).up x
      · simp only [hp, Bool.false_eq_true, and_false, if_false, List.nil_append] at joined
        simpa [hp] using joined
      · simp only [hp, and_true, if_true, List.nil_append] at joined
        simpa [hp] using joined.congr fun m => by split <;> simp
    | _ =>
      have passed : passFault l s q = s := by simp [passFault, hq]
      have waiting : waitingFaults (q :: qs) = waitingFaults qs := by simp [waitingFaults, hq]
      rw [List.foldl_cons, passed, waiting]
      exact ih s

/-- R168, R171: a DOWN link with nothing to send but replies comes to rest with its queue, SNAPSHOT and due mark as they stood. -/
theorem settle_link_down {s : State} {l : Link} (down : (s.links.get l).up = false) (snapshot : (s.links.get l).snapshot = []) :
    ((settle s).links.get l).queue = (s.links.get l).queue ∧ ((settle s).links.get l).snapshot = [] ∧
      ((settle s).links.get l).snapshotDue = (s.links.get l).snapshotDue ∧ ((settle s).links.get l).holdTimer = none := by
  obtain ⟨u, -, same, ended⟩ := settle_link s l
  have started : ((startNext l u).links.get l).queue = (s.links.get l).queue ∧ ((startNext l u).links.get l).snapshot = [] ∧
      ((startNext l u).links.get l).snapshotDue = (s.links.get l).snapshotDue ∧ ((startNext l u).links.get l).up = false := by
    have stopped : (u.links.get l).mayNotify = false := by simp [LinkState.mayNotify, same, down]
    rcases startNext_cases l u with busy | ⟨free, ⟨f, rest, hr⟩ | ⟨hr, -⟩⟩
    · rw [startNext_busy busy, same]; exact ⟨rfl, snapshot, rfl, down⟩
    · rw [startNext_reply free hr, modLink_get_self, same]; exact ⟨rfl, snapshot, rfl, down⟩
    · rw [startNext_stopped free hr stopped, same]; exact ⟨rfl, snapshot, rfl, down⟩
  obtain ⟨queue, quiet, due, up⟩ := started
  have stopped := LinkState.rest_stopped (k := (startNext l u).links.get l) (holdTimeOf s l) (.inl up)
  rw [ended]
  rw [LinkState.rest_going _ (.inl quiet)] at stopped ⊢
  exact ⟨queue, quiet, due, stopped⟩

theorem faultChain_ne {l m : Link} (h : m ∈ faultChain l) : m ≠ l := by
  cases l with
  | plant => simp only [faultChain, List.mem_singleton] at h; subst h; nofun
  | console p => cases p <;> simp [faultChain] at h <;> first | (subst h; nofun) | (rcases h with rfl | rfl <;> nofun)

/-- R172: what a link going DOWN leaves before the end of the command. -/
theorem takeDown_spec (l : Link) (s : State) :
    let p := passesOn l (s.links.get .plant).up
    let up := fun x => (s.links.get x).up
    let toRelay := (waitingFaults (s.links.get l).queue).filter (fun x => !p x) ++ if (faultChain l).any up then [] else [l]
    let told := fun m => (if m = .plant then ((waitingFaults (s.links.get l).queue).filter p).map Notice.fault else []) ++
      if (faultChain l).find? up = some m then [.fault l] else []
    ∃ v, Routed told toRelay v (takeDown l s) ∧ Journaled [⟨.linkDown, linkPosition l, none, none, l.num⟩] s v ∧
      Kept [.links, .journal] s v ∧ (∀ m, m ≠ l → v.links.get m = s.links.get m) ∧
      v.links.get l = ({ s.links.get l with up := false, holdTimer := none } : LinkState).goDown (l != .plant) := by
  intro p up toRelay told
  rw [takeDown_eq]
  generalize hv : append .linkDown (linkPosition l) none none l.num
    (modLink l (fun k => ({ k with up := false, holdTimer := none } : LinkState).goDown (l != .plant)) s) = v
  have here : v.links.get l = ({ s.links.get l with up := false, holdTimer := none } : LinkState).goDown (l != .plant) := by
    rw [← hv, append_links, modLink_get_self]
  have others (m : Link) (hm : m ≠ l) : v.links.get m = s.links.get m := by rw [← hv, append_links, modLink_others hm]
  have passes : passesOn l (v.links.get .plant).up = p := by
    funext x
    by_cases hl : l = .plant
    · simp [p, passesOn, hl]
    · rw [others .plant (Ne.symm hl)]
  have first := routed_foldl_passFault l (s.links.get l).queue v
  rw [passes] at first
  generalize (s.links.get l).queue.foldl (passFault l) v = w at first
  have chain (x : Link) (hx : x ∈ faultChain l) : (w.links.get x).up = up x :=
    ((first.lines x).2.1).trans (congrArg LinkState.up (others x (faultChain_ne hx)))
  have found : ((faultChain l).find? fun x => (w.links.get x).up) = (faultChain l).find? up := by
    have byChain (c : List Link) (hc : ∀ x ∈ c, (w.links.get x).up = up x) : (c.find? fun x => (w.links.get x).up) = c.find? up := by
      induction c with
      | nil => rfl
      | cons x c ih => simp only [List.find?_cons, hc x (by simp), ih fun y hy => hc y (by simp [hy])]
    exact byChain _ chain
  have any : ((faultChain l).any fun x => (w.links.get x).up) = (faultChain l).any up := by
    rw [Bool.eq_iff_iff, List.any_eq_true, List.any_eq_true]
    exact exists_congr fun x => and_congr_right fun hx => by rw [chain x hx]
  have last := routed_routeFault l (faultChain l) w
  rw [found, any] at last
  refine ⟨v, first.trans last, hv ▸ ⟨rfl, rfl⟩, ?_, others, here⟩
  exact hv ▸ ((kept_modLink ..).mono (by simp)).trans ((quiet_append ..).kept.mono (by simp))

/-- Settles O22. -/
theorem aHeldLinkGoesDown : Obligations.AHeldLinkGoesDown := by
  refine ⟨rfl, rfl, fun p hp => ?_, fun l s due => ?_⟩
  · cases p with
    | p0 => exact absurd rfl hp
    | _ => rfl
  have next : exec (.holdTimerExpiry l) s = .next (settle (takeDown l s)) := by
    have isDue : isDue (s.links.get l).holdTimer = true := by rw [due]; rfl
    exact congrArg (fun u => Host.Outcome.next (settle u)) (if_pos isDue)
  refine ⟨_, next, ?_⟩
  obtain ⟨v, routed, entry, kept, others, here⟩ := takeDown_spec l s
  intro waiting passed toRelay
  have relayed : toRelay = (waitingFaults (s.links.get l).queue).filter (fun x => !passesOn l (s.links.get .plant).up x) ++
      if (faultChain l).any (fun x => (s.links.get x).up) then [] else [l] := by
    refine congrArg (· ++ _) (List.filter_congr fun x hx => ?_)
    have : passed.contains x = passesOn l (s.links.get .plant).up x := by
      rw [Bool.eq_iff_iff, List.contains_iff_mem, List.mem_filter]
      exact ⟨fun h => h.2, fun h => ⟨hx, h⟩⟩
    rw [this]
  rw [← relayed] at routed
  generalize takeDown l s = u at next routed
  have device := kept.agrees .device (by simp)
  have down : (v.links.get l).up = false := by rw [here]; rfl
  have hereU : u.links.get l = ({ s.links.get l with up := false, holdTimer := none } : LinkState).goDown (l != .plant) :=
    (routed.down l down).trans here
  have line := settle_sameLine u l
  obtain ⟨queue, snapshot, snapshotDue, timer⟩ := settle_link_down (s := u) (l := l) (by rw [hereU]; rfl) (by rw [hereU]; rfl)
  obtain ⟨run, kind, count, relay, plant⟩ := (kept_settle u).agrees .device (by simp)
  obtain ⟨run', kind', count', plant'⟩ := routed.device
  have clock : v.millTime = s.millTime := (kept.agrees .clock (by simp)).1
  have clock' : u.millTime = v.millTime := (routed.kept.agrees .clock (by simp)).1
  refine ⟨?_, ?_, ?_, timer, snapshot, fun console => ?_, fun m hm => ?_, ?_, ?_, fun m found hm sending quiet room => ?_,
    (run.trans run').trans device.1, (kind.trans kind').trans device.2.1, (count.trans count').trans device.2.2.1,
    (plant.trans plant').trans device.2.2.2.2, (runs_execHoldTimerExpiry l).noReply next, ?_⟩
  · rw [line.up, hereU]; rfl
  · rw [line.flow, hereU]; rfl
  · rw [queue, hereU]; rfl
  · rw [snapshotDue, hereU]; simp [LinkState.goDown, console]
  · obtain ⟨flow, up, -⟩ := routed.lines m
    have settled := settle_sameLine u m
    rw [settled.flow, settled.up, flow, up, others m hm]
    exact ⟨rfl, rfl⟩
  · have resting : v.relay = s.relay := device.2.2.2.1
    have written := routed.entry
    rw [resting] at written
    exact (entry.trans written clock).before (.of_kept (kept_settle u) (by simp)) (clock'.trans clock)
  · rw [relay, routed.relay, device.2.2.2.1]
  · have upM : (s.links.get m).up = true := by simpa using List.find?_some found
    have short : passed.length ≤ (s.links.get l).queue.length :=
      (List.length_filter_le ..).trans (List.length_filterMap_le ..)
    have told : ((if m = .plant then ((waitingFaults (s.links.get l).queue).filter (passesOn l (s.links.get .plant).up)).map
        Notice.fault else []) ++ if (faultChain l).find? (fun x => (s.links.get x).up) = some m then [.fault l] else []) =
        passed.map Notice.fault ++ [.fault l] := by
      rw [found, if_pos rfl]
      split
      · rfl
      · rename_i console
        have none : passed = [] := by
          refine List.filter_eq_nil_iff.2 fun x _ => ?_
          rw [decide_eq_true_eq]
          rintro ⟨rfl, -, -, -⟩
          have : m ∈ [Link.plant] := List.mem_of_find?_eq_some found
          exact console (by simpa using this)
        rw [none]; rfl
    have queued := routed.queued m
    rw [others m hm, told] at queued
    obtain ⟨queue', quiet', sending'⟩ := queued upM quiet (by simp; omega)
    rw [settle_link_busy (by rw [sending']; exact sending), LinkState.rest_going _ (.inl quiet')]
    simp [LinkState.judgeHold, queue']
  · exact ((kept.mono (by simp)).trans routed.kept).trans ((kept_settle u).mono (by simp))

end Sys2Proof.Machine
end

section
/-! PROOFS. One second, and the frames that a link starts (R168, R170, R171, R178, R179). -/

namespace Sys2Proof.Machine

/-! ### One second -/

theorem LinkState.judgeHold_running {k : LinkState} {n : Nat} (t : Nat) (runs : k.holdRuns = true) (timer : k.holdTimer = some n) :
    (k.judgeHold t).holdTimer = some n := by simp [LinkState.judgeHold, runs, timer]

/-- R171: a hold timer that runs goes on where its three conditions stand. -/
theorem LinkState.rest_running {k : LinkState} {n : Nat} (t : Nat) (runs : k.holdRuns = true) (timer : k.holdTimer = some n) :
    (k.rest t).holdTimer = some n := by
  have first := k.judgeHold_running t runs timer
  have again : (k.judgeHold t).dropStalled.holdRuns = true ∧ (k.judgeHold t).dropStalled.holdTimer = some n := by
    unfold LinkState.dropStalled
    split
    · simp only [LinkState.holdRuns, Bool.and_eq_true] at runs
      exact ⟨by simp [LinkState.abandon, LinkState.holdRuns, LinkState.isWaiting, LinkState.judgeHold, runs.1.1, runs.1.2], first⟩
    · exact ⟨(k.judgeHold_holdRuns t).trans runs, first⟩
  exact LinkState.judgeHold_running t again.1 again.2

/-- R168: a link that is sending, or has a reply to send, or may not send a notice frame, starts no notice frame. -/
theorem startNext_no_notice {l : Link} {s : State} (h : (s.links.get l).sending ≠ none ∨ (s.links.get l).replies ≠ [] ∨
    (s.links.get l).mayNotify = false) : ∃ f rs, (startNext l s).links.get l = { s.links.get l with sending := f, replies := rs } := by
  rcases startNext_cases l s with busy | ⟨free, ⟨f, rest, hr⟩ | ⟨hr, more⟩⟩
  · exact ⟨_, _, by rw [startNext_busy busy]⟩
  · exact ⟨some f, rest, by rw [startNext_reply free hr, modLink_get_self]⟩
  · have stopped : (s.links.get l).mayNotify = false := by simpa [free, hr] using h
    exact ⟨_, _, by rw [startNext_stopped free hr stopped]⟩

theorem tick_link (l : Link) (s : State) :
    (tick s).links.get l = { s.links.get l with holdTimer := countDown (s.links.get l).holdTimer } := PerLink.get_map ..

/-- R171: what becomes of the hold timer of a link that starts no notice frame. -/
theorem tick_holdTimer {l : Link} {n : Nat} {s : State} (timer : (s.links.get l).holdTimer = some n)
    (up : (s.links.get l).up = true) (hold : (s.links.get l).flow = .hold)
    (waits : (s.links.get l).queue ≠ [] ∨ (s.links.get l).snapshotDue = true)
    (idle : (s.links.get l).sending ≠ none ∨ (s.links.get l).replies ≠ [] ∨ (s.links.get l).allowance = false) :
    ((settle (tick s)).links.get l).holdTimer = some (n - 1) := by
  obtain ⟨u, -, same, ended⟩ := settle_link (tick s) l
  rw [tick_link, timer] at same
  obtain ⟨f, rs, started⟩ := startNext_no_notice (l := l) (s := u) (by
    rw [same]
    exact idle.imp_right fun h => h.imp_right fun none => by simp [LinkState.mayNotify, hold, none])
  rw [ended, started, same]
  refine LinkState.rest_running _ ?_ rfl
  simpa [LinkState.holdRuns, LinkState.isWaiting, up, hold] using waits

/-- Settles O4: the durations count down in the tick, and the end of the command changes the links alone. -/
theorem oneSecondStepCountsTheClockAndTheDurations : Obligations.OneSecondStepCountsTheClockAndTheDurations := by
  intro s
  have next : exec .oneSecondStep s = .next (settle (tick s)) := rfl
  have kept := kept_settle (tick s)
  obtain ⟨clock, set⟩ := kept.agrees .clock (by simp)
  have lists : (settle (tick s)).lists = (tick s).lists := kept.agrees .lists (by simp)
  have loads : (settle (tick s)).loads = (tick s).loads := kept.agrees .loads (by simp)
  have positions : (settle (tick s)).positions = (tick s).positions := kept.agrees .positions (by simp)
  have ticked : Kept [.clock, .lists, .loads, .positions, .bypasses, .links] s (tick s) :=
    ⟨fun p hp => by cases p <;> simp_all [Agrees, tick]⟩
  refine ⟨_, next, clock, set, fun p => ?_, kept.agrees .bypasses (by simp), fun l n timer up hold waits idle =>
    tick_holdTimer timer up hold waits idle, fun l stopped => ?_, ?_, runs_execOneSecondStep.noReply next,
    ticked.trans (kept.mono (by simp))⟩
  · rw [lists, loads, positions]
    have list : (tick s).lists.get p = (s.lists.get p).tick := PerPos.get_map ..
    have load : (tick s).loads.get p = { s.loads.get p with decay := (s.loads.get p).decay - 1 } := PerPos.get_map ..
    have desk : (tick s).positions.get p = (s.positions.get p).tick := PerPos.get_map ..
    rw [list, load, desk]
    exact ⟨rfl, rfl, rfl, rfl, rfl, rfl⟩
  · obtain ⟨u, -, same, ended⟩ := settle_link (tick s) l
    have line := startNext_sameLine l u
    rw [ended]
    refine LinkState.rest_stopped _ ?_
    rw [line.up, line.flow, same, tick_link]
    exact stopped
  · refine LinesKept.trans (fun l => ?_) (settle_lines (tick s))
    rw [tick_link]
    exact ⟨rfl, rfl, rfl, rfl⟩

/-! ### The frame that starts next -/

theorem LinkState.rest_queue_length_le (k : LinkState) (n : Nat) : (k.rest n).queue.length ≤ k.queue.length := by
  have dropped : (k.judgeHold n).dropStalled.queue.length ≤ k.queue.length := by
    unfold LinkState.dropStalled
    split
    · exact List.length_filter_le ..
    · exact Nat.le_refl _
  exact dropped

theorem LinkState.sendNotice_mayNotify {k : LinkState} {f : Frame} (h : k.flow = .hold) :
    (k.sendNotice f).mayNotify = false := by
  simp [LinkState.sendNotice, LinkState.mayNotify, h]

theorem LinkState.sendNotice_mayNotify_go {k : LinkState} {f : Frame} (h : k.flow = .go) (up : k.up = true) :
    (k.sendNotice f).mayNotify = true := by simp [LinkState.sendNotice, LinkState.mayNotify, h, up]

theorem LinkState.sendNotice_allowance {k : LinkState} {f : Frame} (h : k.flow = .hold) :
    (k.sendNotice f).allowance = false := by
  simp [LinkState.sendNotice, h]

theorem LinkState.up_of_mayNotify {k : LinkState} (h : k.mayNotify = true) : k.up = true := by
  simp only [LinkState.mayNotify, Bool.and_eq_true] at h
  exact h.1

/-- R170: how many groups of at most 16 there are, and which entries each holds. -/
theorem groups16_spec {α : Type} (m : Nat) (l : List α) (h : l.length ≤ m) : (groups16 m l).length = (l.length + 15) / 16 ∧
    ∀ n (hn : n < (groups16 m l).length), (groups16 m l)[n] = (l.drop (16 * n)).take 16 := by
  induction m generalizing l with
  | zero =>
    have : l = [] := List.length_eq_zero_iff.1 (by omega)
    subst this
    exact ⟨by simp [groups16], nofun⟩
  | succ m ih =>
    cases l with
    | nil => exact ⟨by simp [groups16], nofun⟩
    | cons x l =>
      obtain ⟨length, groups⟩ := ih ((x :: l).drop 16) (by simp at h ⊢; omega)
      have shape : groups16 (m + 1) (x :: l) = (x :: l).take 16 :: groups16 m ((x :: l).drop 16) := rfl
      refine ⟨by rw [shape, List.length_cons, length, List.length_drop]; simp; omega, fun n hn => ?_⟩
      cases n with
      | zero => rfl
      | succ n =>
        simp only [shape, List.getElem_cons_succ]
        rw [groups n, List.drop_drop, Nat.mul_succ, Nat.add_comm]

/-- R170: the frames of a SNAPSHOT. -/
theorem snapshotFrames_spec (s : State) (p : Pos) : let ann := (s.lists.get p).ann
    (snapshotFrames s p).1 = snapshotFrame ann.isEmpty (snapshotSummary s p) ∧
    (snapshotFrames s p).2.length = (ann.length + 15) / 16 ∧
    ∀ n (hn : n < (snapshotFrames s p).2.length), (snapshotFrames s p).2[n] =
      snapshotFrame (decide (n + 1 = (snapshotFrames s p).2.length)) (((ann.drop (16 * n)).take 16).flatMap (snapshotEntry s p)) := by
  intro ann
  obtain ⟨length, groups⟩ := groups16_spec (ann.map (snapshotEntry s p)).length (ann.map (snapshotEntry s p)) (Nat.le_refl _)
  have bodies : (snapshotFrames s p).2.length = (ann.length + 15) / 16 := by
    simp only [snapshotFrames, List.length_mapIdx, List.length_map]
    simpa using length
  refine ⟨?_, bodies, fun n hn => ?_⟩
  · have empty : ((groups16 (ann.map (snapshotEntry s p)).length (ann.map (snapshotEntry s p))).map List.flatten).isEmpty = ann.isEmpty := by
      rw [Bool.eq_iff_iff, List.isEmpty_iff_length_eq_zero, List.isEmpty_iff_length_eq_zero, List.length_map, length, List.length_map]
      omega
    exact congrArg (snapshotFrame · (snapshotSummary s p)) empty
  · have inside : n < (groups16 (ann.map (snapshotEntry s p)).length (ann.map (snapshotEntry s p))).length := by
      rw [length, List.length_map, ← bodies]; exact hn
    have count : (n + 1 == ((groups16 (ann.map (snapshotEntry s p)).length (ann.map (snapshotEntry s p))).map List.flatten).length) =
        decide (n + 1 = (snapshotFrames s p).2.length) := by
      rw [bodies, List.length_map, length, List.length_map]
      rfl
    simp only [snapshotFrames, List.getElem_mapIdx, List.getElem_map]
    rw [groups n inside, ← List.map_drop, ← List.map_take]
    exact congrArg₂ snapshotFrame count rfl

/-- A state whose parts outside the links stand differs in the links alone. -/
theorem Kept.links_eq {s u : State} (h : Kept [.links] s u) : u = { s with links := u.links } := by
  obtain ⟨c1, c2⟩ := h.agrees .clock (by simp)
  obtain ⟨d1, d2, d3, d4, d5⟩ := h.agrees .device (by simp)
  obtain ⟨j1, j2⟩ := h.agrees .journal (by simp)
  have e1 := h.agrees .alarms (by simp)
  have e2 := h.agrees .mask (by simp)
  have e3 := h.agrees .lists (by simp)
  have e4 := h.agrees .escalation (by simp)
  have e5 := h.agrees .loads (by simp)
  have e6 := h.agrees .operators (by simp)
  have e7 := h.agrees .grants (by simp)
  have e8 := h.agrees .positions (by simp)
  have e9 := h.agrees .areas (by simp)
  have e10 := h.agrees .bypasses (by simp)
  have e11 := h.agrees .free (by simp)
  have e12 := h.agrees .pending (by simp)
  cases s; cases u
  simp_all [Agrees]

theorem snapshotFrames_congr {s u : State} (h : Kept [.links] s u) (p : Pos) : snapshotFrames u p = snapshotFrames s p := by
  rw [h.links_eq]
  rfl

/-- R168, R179: the frame that a link has finished sending. -/
theorem finishFrame_spec {l : Link} {s : State} {sent : Frame} (sending : (s.links.get l).sending = some sent)
    (plain : isCommissionReply l sent = false) : finishFrame l s = modLink l (fun k => { k with sending := none }) s := by
  simp [finishFrame, sending, plain]

/-- R168: what a link that has finished its frame has become at the end of the command. -/
theorem frameSent_link {l : Link} {s : State} {sent : Frame} (sending : (s.links.get l).sending = some sent)
    (plain : isCommissionReply l sent = false) : ∃ u n, Kept [.links] s u ∧ u.links.get l = { s.links.get l with sending := none } ∧
      ∃ t, exec (.frameSent l) s = .next t ∧ LinesKept s t ∧ Kept [.links] s t ∧ t.links.get l = ((startNext l u).links.get l).rest n := by
  generalize hv : modLink l (fun k => { k with sending := none }) s = v
  have next : exec (.frameSent l) s = .next (settle v) := by
    rw [← hv, ← finishFrame_spec sending plain]
    rfl
  have kept : Kept [.links] s v := hv ▸ kept_modLink ..
  have lines : LinesKept s v := hv ▸ modLink_lines s fun _ => ⟨rfl, rfl, rfl, rfl⟩
  obtain ⟨u, same, here, ended⟩ := settle_link v l
  refine ⟨u, _, kept.trans same, ?_, settle v, next, lines.trans (settle_lines v), kept.trans (kept_settle v), ended⟩
  rw [here, ← hv, modLink_get_self]

/-- R170: what a link that has started a SNAPSHOT comes to rest as. -/
theorem LinkState.rest_beginSnapshot (k : LinkState) (first : Frame) (rest : List Frame) (n : Nat) (up : k.up = true) :
    let t := ((k.beginSnapshot rest).sendNotice first).rest n
    t.sending = some first ∧ t.queue.map (·.notice) = k.queue.map (·.notice) ∧ (k.flow = .hold → t.allowance = false) ∧
      (k.flow = .hold → rest ≠ [] → t.snapshot = [] ∧ t.snapshotDue = true) ∧
      (k.flow = .go ∨ rest = [] → t.snapshotDue = false ∧ t.snapshot = rest) := by
  have going (h : k.flow = .go ∨ rest = []) : ((k.beginSnapshot rest).sendNotice first).rest n =
      ((k.beginSnapshot rest).sendNotice first).judgeHold n :=
    LinkState.rest_going _ (h.symm.imp id fun go => LinkState.sendNotice_mayNotify_go go up)
  have stalled (hold : k.flow = .hold) (more : rest ≠ []) :=
    LinkState.rest_stalled (k := (k.beginSnapshot rest).sendNotice first) n more (LinkState.sendNotice_mayNotify hold)
  refine ⟨(LinkState.rest_sends _ n).1, ?_, fun hold => ?_, fun hold more => ?_, fun h => ?_⟩
  · have joined : ((k.beginSnapshot rest).sendNotice first).queue = k.queue.map fun q => { q with since := false } := rfl
    by_cases h : k.flow = .go ∨ rest = []
    · rw [going h]
      exact (congrArg _ joined).trans (List.map_map ..)
    · have hold : k.flow = .hold := by cases hf : k.flow <;> simp_all
      obtain ⟨-, -, queue⟩ := stalled hold fun none => h (.inr none)
      rw [queue, joined, List.filter_eq_self.2 (by simp), List.map_map]
      rfl
  · rw [LinkState.rest_allowance]
    exact LinkState.sendNotice_allowance hold
  · obtain ⟨snapshot, due, -⟩ := stalled hold more
    exact ⟨snapshot, due⟩
  · rw [going h]
    exact ⟨rfl, rfl⟩

/-- Settles O20. -/
theorem theNextFrameStarts : Obligations.TheNextFrameStarts := by
  refine ⟨fun s f sending kind reply last done => ?_, fun l s sent sending plain => ?_⟩
  · have commission : isCommissionReply .plant f = true := by
      simp [isCommissionReply, kind, reply, last, done]
      rfl
    have finished : finishFrame .plant s = changeRates (modLink .plant (fun k => { k with sending := none }) s) := by
      have at_plant : (s.links.get .plant).sending = some f := sending
      simp [finishFrame, at_plant, commission]
    have next : exec (.frameSent .plant) s = .next (settle (finishFrame .plant s)) := rfl
    generalize finishFrame .plant s = v at next finished
    have here (l : Link) : (v.links.get l).rate = (s.links.get l).storedRate ∧ (v.links.get l).storedRate = (s.links.get l).storedRate ∧
        (v.links.get l).flow = (s.links.get l).flow ∧ (v.links.get l).up = (s.links.get l).up := by
      rw [finished, changeRates, PerLink.get_map, modLink_get]
      split
      · subst l; exact ⟨rfl, rfl, rfl, rfl⟩
      · exact ⟨rfl, rfl, rfl, rfl⟩
    refine ⟨_, next, ?_, fun l => ?_⟩
    · have changed (u : State) : Kept [.links] u (changeRates u) := ⟨fun p hp => by cases p <;> simp_all [Agrees, changeRates]⟩
      exact (finished ▸ (kept_modLink ..).trans (changed _)).trans (kept_settle v)
    · have line := settle_sameLine v l
      obtain ⟨rate, stored, flow, up⟩ := here l
      exact ⟨line.rate.trans rate, line.storedRate.trans stored, line.flow.trans flow, line.up.trans up⟩
  · obtain ⟨u, n, same, here, t, next, lines, kept, ended⟩ := frameSent_link sending plain
    have free : (u.links.get l).sending = none := by rw [here]
    have notify : (u.links.get l).mayNotify = (s.links.get l).mayNotify := by rw [here]; rfl
    refine ⟨t, next, lines, kept, fun f rest hr => ?_, fun hr stopped => ?_, fun f rest hr going hs => ?_,
      fun p hl hr going hs due => ?_, fun q rest hr going hs due hq => ?_, fun hr hs due hq => ?_⟩
    · rw [startNext_reply free (by rw [here]; exact hr), modLink_get_self, here] at ended
      obtain ⟨sends, replies⟩ := LinkState.rest_sends { s.links.get l with sending := some f, replies := rest } n
      rw [ended]
      exact ⟨sends, replies, LinkState.rest_queue_length_le ..⟩
    · rw [startNext_stopped free (by rw [here]; exact hr) (notify.trans stopped), here] at ended
      rw [ended]
      exact (LinkState.rest_sends _ n).1
    · rw [startNext_snapshot free (by rw [here]; exact hr) (notify.trans going) (by rw [here]; exact hs), modLink_get_self, here] at ended
      rw [ended]
      refine ⟨(LinkState.rest_sends _ n).1, fun hold => ?_, fun goes => ?_, fun hold more => ?_⟩
      · rw [LinkState.rest_allowance]; exact LinkState.sendNotice_allowance hold
      · rw [LinkState.rest_going]
        · exact ⟨rfl, rfl, rfl⟩
        · exact goes.symm.imp id fun go => LinkState.sendNotice_mayNotify_go go (LinkState.up_of_mayNotify going)
      · exact LinkState.rest_stalled n more (LinkState.sendNotice_mayNotify hold)
    · subst hl
      rw [startNext_due free (by rw [here]; exact hr) (notify.trans going) (by rw [here]; exact hs) (by rw [here]; exact due),
        modLink_get_self, here, snapshotFrames_congr same] at ended
      obtain ⟨summary, count, frames⟩ := snapshotFrames_spec s p
      obtain ⟨sends, queue, allowance, stalled, going'⟩ := LinkState.rest_beginSnapshot
        { s.links.get (.console p) with sending := none } (snapshotFrames s p).1 (snapshotFrames s p).2 n
        (LinkState.up_of_mayNotify going)
      rw [← ended] at sends queue allowance stalled going'
      have bodies : (snapshotFrames s p).2 = [] ↔ (s.lists.get p).ann = [] := by
        rw [← List.length_eq_zero_iff, ← List.length_eq_zero_iff, count]
        omega
      refine ⟨by rw [sends, summary], queue, allowance, fun hold more => stalled hold (mt bodies.1 more), fun goes => ?_⟩
      obtain ⟨cleared, snapshot⟩ := going' (goes.imp_right bodies.2)
      rw [snapshot]
      exact ⟨cleared, count, frames⟩
    · rw [startNext_notice free (by rw [here]; exact hr) (notify.trans going) (by rw [here]; exact hs)
        (.inr (by rw [here]; exact due)) (by rw [here]; exact hq), modLink_get_self, here] at ended
      rw [ended]
      refine ⟨(LinkState.rest_sends _ n).1, ?_, fun hold => ?_⟩
      · rw [LinkState.rest_going _ (.inl (by exact hs))]; rfl
      · rw [LinkState.rest_allowance]; exact LinkState.sendNotice_allowance hold
    · rw [startNext_idle free (by rw [here]; exact hr) (by rw [here]; exact hs) (.inr (by rw [here]; exact due))
        (by rw [here]; exact hq), here] at ended
      rw [ended]
      exact (LinkState.rest_sends _ n).1

end Sys2Proof.Machine
end

section
/-! PROOFS. Operator records, grants and access checks (chapter 4). -/

namespace Sys2Proof.Machine

/-! ### Operator records -/

theorem operator?_congr {s t : State} (h : t.operators = s.operators) (o : Nat) : operator? t o = operator? s o := by
  simp only [operator?, h]

theorem operator?_range {s : State} {o : Nat} (h : (operator? s o).isSome = true) : 1 ≤ o ∧ o ≤ 64 := by
  unfold operator? at h
  split at h
  · simpa using ‹(decide (1 ≤ o) && decide (o ≤ 64)) = true›
  · cases h

theorem firstRefusal_operatorChecks {s : State} {o present level : Nat} (range : 1 ≤ o ∧ o ≤ 64) (hl : level ≤ 3)
    (hp : present ≤ 1) (free : engagementOf s o = none) : firstRefusal (operatorChecks s o present level) = none := by
  simp [operatorChecks, operatorIdCheck, range, hl, hp, free]

/-- R65: the record that a DEFINE_OPERATOR writes for an operator who is not engaged. -/
theorem presentRecord_free {s : State} {o : Nat} (badge : Word) (level : Nat) (free : engagementOf s o = none) :
    presentRecord badge level (operator? s o) = ⟨badge, level, false, 0, none⟩ :=
  congrArg (Operator.mk badge level false 0) free

/-- Settles O47. -/
theorem operatorRecordsAreWrittenRemovedAndUnlocked : Obligations.OperatorRecordsAreWrittenRemovedAndUnlocked := by
  refine ⟨fun h o level badge s hp h1 h2 hl free => ?_, fun h o level badge s hp known hl free wf => ?_,
    fun h o level badge s hp h1 h2 hl unknown => ?_, fun h o r s hp acts known => ?_⟩
  · have checked := firstRefusal_operatorChecks (s := takeFrame h.link s) (present := 1) ⟨h1, h2⟩ hl (Nat.le_refl _) free
    have quiet : Quiet [.operators, .links] (takeFrame h.link s) (defineOperator o 1 badge level (takeFrame h.link s)) :=
      (quiet_operators ..).mono (by simp)
    refine request_done rfl hp (judged_of_none checked _) quiet fun t done => ?_
    have operators : t.operators = s.operators.insert o (presentRecord badge level (operator? s o)) := done.agrees .operators nofun
    refine ⟨?_, done.replied, fun q hq => ?_, done.lines, done.kept quiet.kept (by simp)⟩
    · simp [operator?, operators, h1, h2, ← presentRecord_free badge level free]
    · rw [operators, Table.get?_insert_ne _ _ hq]
  · obtain ⟨h1, h2⟩ := operator?_range known
    have checked := firstRefusal_operatorChecks (s := takeFrame h.link s) (present := 0) ⟨h1, h2⟩ hl (Nat.zero_le _) free
    generalize hv : ({ takeFrame h.link s with operators := (takeFrame h.link s).operators.erase o } : State) = v
    have erased : Quiet [.operators] (takeFrame h.link s) v := hv ▸ quiet_operators ..
    have removed : defineOperator o 0 badge level (takeFrame h.link s) = endGrants (fun g => g.operator == o) v := by
      rw [← hv]; exact if_pos known
    have quiet : Quiet [.operators, .grants, .journal, .links] (takeFrame h.link s) (endGrants (fun g => g.operator == o) v) :=
      (erased.mono (by simp)).trans ((quiet_endGrants ..).mono (by simp))
    refine request_done rfl hp ((judged_of_none checked _).trans (congrArg (·, _) removed)) quiet fun t done => ?_
    have operators : t.operators = s.operators.erase o := by
      have left : t.operators = (endGrants (fun g => g.operator == o) v).operators := done.agrees .operators nofun
      rw [left, endGrants_operators, ← hv]
      rfl
    have grants : t.grants = (endGrants (fun g => g.operator == o) v).grants := done.agrees .grants nofun
    have same : v.grants = s.grants := hv ▸ rfl
    have ended := endGrants_ended (fun g => g.operator == o) v (by rw [same]; exact wf)
    have lines : endedLines (fun g => g.operator == o) v = endedLines (fun g => g.operator == o) s := by
      simp only [endedLines, same]
    refine ⟨?_, fun n g => ?_, done.journaled ?_, done.replied, fun q hq => ?_, done.lines, done.kept quiet.kept (by simp)⟩
    · simp [operator?, operators]
    · rw [grants, ended, same]
    · rw [← lines]
      exact Journaled.after (.of_kept erased.kept (by simp)) (journaled_endGrants ..) (hv ▸ rfl)
    · rw [operators, Table.get?_erase_ne _ hq]
  · have free : engagementOf s o = none := by rw [engagementOf, unknown]; rfl
    have checked := firstRefusal_operatorChecks (s := takeFrame h.link s) (present := 0) ⟨h1, h2⟩ hl (Nat.zero_le _) free
    have absent : operator? (takeFrame h.link s) o = none := unknown
    have unchanged : defineOperator o 0 badge level (takeFrame h.link s) = takeFrame h.link s := by
      simp [defineOperator, absent]
    exact request_read rfl hp ((judged_of_none checked _).trans (congrArg (·, _) unchanged)) fun t kept lines replied =>
      ⟨replied, lines, kept⟩
  · have defined : operator? (takeFrame h.link s) o = some r := known
    have checked : firstRefusal (supervisorChecks (takeFrame h.link s) h.op ++ [definedCheck (takeFrame h.link s) o]) = none := by
      rw [firstRefusal_append (firstRefusal_supervisorChecks (s := takeFrame h.link s) acts)]
      simp [definedCheck, defined]
    have quiet : Quiet [.operators, .links] (takeFrame h.link s) (unlock o (takeFrame h.link s)) := (quiet_modOperator ..).mono (by simp)
    refine request_done rfl hp (judged_of_none checked _) quiet fun t done => ?_
    have operators : t.operators = (unlock o s).operators := done.agrees .operators nofun
    have replied := done.replied
    rw [show isLocked (takeFrame h.link s) o = r.locked by
      rw [isLocked, defined]; rfl] at replied
    refine ⟨?_, ?_, fun q hq => ?_, done.lines, done.kept quiet.kept (by simp)⟩
    · rw [operator?_congr operators, unlock, operator?_modOperator, if_pos rfl, known]; rfl
    · cases locked : r.locked <;> rw [locked] at replied <;> exact replied
    · rw [operators]; exact Table.get?_modify_ne _ _ hq

/-! ### Grants -/

theorem grantKindOf_code (k : GrantKind) : grantKindOf? (grantKindCode k) = some k := by cases k <;> rfl

theorem scopeOf_code {scope : Option Nat} (h : ∀ a, scope = some a → a < 16) : scopeOf? (scopeCode scope) = some scope := by
  cases scope with
  | none => rfl
  | some a => simp [scopeOf?, scopeCode, h a rfl]

theorem bindingOf_code (b : Option Pos) : bindingOf? (bindingCode b) = some b := by
  cases b with
  | none => rfl
  | some p => cases p <;> rfl

/-- R69, R99: the lowest-numbered empty slot. -/
theorem freeSlot?_eq {α : Type} {slots n : Nat} {t : Table α} (hn : n < slots) (empty : t.get? n = none)
    (lower : ∀ m, m < n → t.get? m ≠ none) : freeSlot? slots t = some n := by
  rw [freeSlot?, List.find?_range_eq_some]
  exact ⟨by simp [empty], List.mem_range.2 hn, fun m hm => by simpa [Option.isSome_iff_ne_none] using lower m hm⟩

theorem sameGrant?_eq_none {s : State} {g : Grant} (h : ∀ e ∈ s.grants, e.2 ≠ g) : sameGrant? s g = none := by
  simpa [sameGrant?] using h

theorem firstRefusal_newGrantChecks {s : State} {g : Grant} {n : Nat} (fresh : ∀ e ∈ s.grants, e.2 ≠ g)
    (slot : freeSlot? Config.grantSlots s.grants = some n) : firstRefusal (newGrantChecks s g) = none := by
  simp [newGrantChecks, sameGrant?_eq_none fresh, slot]

/-- R69, R76: what the issue of a grant leaves. -/
theorem issued {s t : State} {n : Nat} {g : Grant} (grants : t.grants = s.grants.insert n g) :
    t.grants.get? n = some g ∧ OtherSlotsKept n s t :=
  ⟨by rw [grants, Table.get?_insert_self], fun m hm => by rw [grants, Table.get?_insert_ne _ _ hm]⟩

/-- Settles O48. -/
theorem aGrantTakesTheLowestEmptySlot : Obligations.AGrantTakesTheLowestEmptySlot := by
  refine ⟨fun h g n s hp known permanent scope fresh hn empty lower => ?_,
    fun h g q role n s hp acts engaged plain temporary bound scope fresh hn empty lower => ?_⟩
  · have slot : freeSlot? Config.grantSlots s.grants = some n := freeSlot?_eq hn empty lower
    have descriptor : permanentGrant g.operator (grantKindCode g.kind) (scopeCode g.scope) (bindingCode g.binding) = g := by
      simp [permanentGrant, grantKindOf, grantKindOf_code, scopeOf_code scope, bindingOf_code, ← permanent]
    have checked : firstRefusal (defineGrantChecks (takeFrame h.link s) g.operator (grantKindCode g.kind) (scopeCode g.scope)
        (bindingCode g.binding) ++ newGrantChecks (takeFrame h.link s) g) = none := by
      have range := operator?_range known
      have defined : (operator? (takeFrame h.link s) g.operator).isSome = true := known
      rw [firstRefusal_append]
      · exact firstRefusal_newGrantChecks (s := takeFrame h.link s) fresh slot
      · simp [defineGrantChecks, operatorIdCheck, range, kindScopeChecks, grantKindOf_code, scopeOf_code scope, bindingOf_code,
          definedCheck, defined]
    have quiet : Quiet [.grants, .journal, .links] (takeFrame h.link s) (issueGrant n g (takeFrame h.link s)) :=
      (quiet_issueGrant ..).mono (by simp)
    refine request_done (es := [be8 n]) (g := false) rfl hp ?_ quiet fun t done => ?_
    · simp only [descriptor]
      exact (judged_of_none checked _).trans (by simp [newGrant, slot, doneWith])
    · obtain ⟨present, others⟩ := issued (s := s) (t := t) (n := n) (g := g) (done.agrees .grants nofun)
      exact ⟨present, others, done.journaled (journaled_grantEntry ..), done.replied, done.lines, done.kept quiet.kept (by simp)⟩
  · have slot : freeSlot? Config.grantSlots s.grants = some n := freeSlot?_eq hn empty lower
    have at_q : engagementOf (takeFrame h.link s) g.operator = some (q, role) := engaged
    have descriptor : temporaryGrant (takeFrame h.link s) g.operator (grantKindCode g.kind) (scopeCode g.scope) = g := by
      simp [temporaryGrant, grantKindOf, grantKindOf_code, scopeOf_code scope, at_q, ← bound, ← temporary]
    have checked : firstRefusal (supervisorChecks (takeFrame h.link s) h.op ++ kindScopeChecks (grantKindCode g.kind) (scopeCode g.scope)
        ++ targetChecks (takeFrame h.link s) g.operator (grantKindCode g.kind) ++ newGrantChecks (takeFrame h.link s) g) = none := by
      have known : (operator? (takeFrame h.link s) g.operator).isSome = true := isSome_operator?_of_engaged engaged
      rw [firstRefusal_append]
      · exact firstRefusal_newGrantChecks (s := takeFrame h.link s) fresh slot
      · rw [List.append_assoc, firstRefusal_append (firstRefusal_supervisorChecks (s := takeFrame h.link s) acts)]
        simp [kindScopeChecks, targetChecks, grantKindOf_code, scopeOf_code scope, definedCheck, known, at_q, plain]
    have quiet : Quiet [.grants, .journal, .links] (takeFrame h.link s) (issueGrant n g (takeFrame h.link s)) :=
      (quiet_issueGrant ..).mono (by simp)
    refine request_done (es := [be8 n ++ be8 q.num]) (g := false) rfl hp ?_ quiet fun t done => ?_
    · simp only [descriptor]
      exact (judged_of_none checked _).trans (by simp [newGrant, slot, bound, bindingCode, doneWith])
    · obtain ⟨present, others⟩ := issued (s := s) (t := t) (n := n) (g := g) (done.agrees .grants nofun)
      exact ⟨present, others, done.journaled (journaled_grantEntry ..), done.replied, done.lines, done.kept quiet.kept (by simp)⟩

/-- R72: the operator of a grant covers its position without it. -/
theorem inUse?_eq_none {s : State} {n : Nat} {g : Grant} (free : g.kind = .operate → ∀ a, a < 16 →
    (s.positions.get (areaOwner s a)).state ≠ .vacant → (s.positions.get (areaOwner s a)).holder = some g.operator →
    holdsFor (s.grants.erase n) g.operator .operate a (areaOwner s a) = true) : inUse? s n g = none := by
  unfold inUse?
  split
  · rename_i operate
    split
    · rename_i p hp
      have held := List.find?_some hp
      simp only [Bool.and_eq_true, bne_iff_ne, beq_iff_eq] at held operate
      rw [uncovered?, List.find?_eq_none]
      intro a ha
      obtain ⟨low, rfl⟩ : a < 16 ∧ areaOwner s a = p := by simpa [ownedAreas] using ha
      simp [free operate a low held.1 held.2]
    · rfl
  · rfl

theorem find?_unique {α : Type} {l : List α} {f : α → Bool} {x : α} (hx : x ∈ l) (fx : f x = true)
    (only : ∀ y ∈ l, f y = true → y = x) : l.find? f = some x := by
  obtain ⟨y, hy⟩ := Option.isSome_iff_exists.1 (List.find?_isSome (p := f).2 ⟨x, hx, fx⟩)
  rw [hy, only y (List.mem_of_find?_eq_some hy) (List.find?_some hy)]

/-- R72: the lowest area that its operator would leave uncovered. -/
theorem inUse?_eq_some {s : State} {n a : Nat} {p : Pos} {g : Grant} (operate : g.kind = .operate)
    (staffed : (s.positions.get p).state ≠ .vacant) (holder : (s.positions.get p).holder = some g.operator)
    (only : ∀ q, q ≠ p → (s.positions.get q).holder ≠ some g.operator) (ha : a < 16) (owned : areaOwner s a = p)
    (bare : holdsFor (s.grants.erase n) g.operator .operate a p = false)
    (lower : ∀ b, b < a → areaOwner s b = p → holdsFor (s.grants.erase n) g.operator .operate b p = true) :
    inUse? s n g = some a := by
  have desk : (Pos.all.find? fun q => (s.positions.get q).state != .vacant && (s.positions.get q).holder == some g.operator) =
      some p := find?_unique (Pos.mem_all p) (by simp [staffed, holder]) fun q _ hq => by
    by_contra other
    simp [only q other] at hq
  have lowest : uncovered? s (s.grants.erase n) g.operator p = some a := by
    rw [uncovered?, ownedAreas, List.find?_filter, List.find?_range_eq_some]
    refine ⟨by simp [owned, bare], List.mem_range.2 ha, fun b hb => ?_⟩
    by_cases at_p : areaOwner s b = p
    · simp [lower b hb at_p]
    · simp [at_p]
  simp only [inUse?, operate, beq_self_eq_true, if_true, desk, lowest]

theorem grantIn_eq {s : State} {n : Nat} {g : Grant} (h : s.grants.get? n = some g) : grantIn s n = g := by
  rw [grantIn, h]; rfl

theorem firstRefusal_slotChecks {s : State} {n : Nat} {g : Grant} (hn : n < 256) (h : s.grants.get? n = some g) :
    firstRefusal (slotChecks s n) = none := by simp [slotChecks, Config.grantSlots, hn, h]

theorem inUseCheck_free {s : State} {n : Nat} {g : Grant} (h : s.grants.get? n = some g) (free : inUse? s n g = none) :
    firstRefusal [inUseCheck s n] = none := by simp [inUseCheck, grantIn_eq h, free]

theorem inUseCheck_used {s : State} {n a : Nat} {g : Grant} (h : s.grants.get? n = some g) (used : inUse? s n g = some a) :
    firstRefusal [inUseCheck s n] = some (.grantInUse, a) := by simp [firstRefusal, inUseCheck, grantIn_eq h, used]

/-- R69, R76: what the end of a grant leaves. -/
theorem grant_ended {s t : State} {n : Nat} (grants : t.grants = s.grants.erase n) :
    t.grants.get? n = none ∧ OtherSlotsKept n s t :=
  ⟨by rw [grants, Table.get?_erase_self], fun m hm => by rw [grants, Table.get?_erase_ne _ hm]⟩

/-- R85: a refusal whose cause calls for no entry. -/
theorem journalRefusal_silent {h : Header} {k : Kind} {i : Option Nat} {c : Cause} {v : Nat} (silent : accessCauseCode? c = none)
    (s : State) : journalRefusal h k i (.refused c v) s = s := by
  unfold journalRefusal
  split
  · simp_all [accessRefused]
  · rfl

/-- A request that its body refuses without an entry. -/
theorem request_refused_silent {k : Kind} {h : Header} {i : Option Nat} {body : State → State × Answer} {s : State}
    {c : Cause} {v : Nat} {P : State → Prop} {out : Host.Outcome State Fault Refusal} (ho : out = serve k h i body s)
    (hp : Passes k h s) (hb : body (takeFrame h.link s) = (takeFrame h.link s, .refused c v)) (silent : accessCauseCode? c = none)
    (hP : ∀ t, Kept [.links] s t → LinesKept s t → Replied k h (.refused c v) s t → P t) : ∃ t, out = .next t ∧ P t :=
  request_refused ho hp hb (.refl [.links] _) fun t done => by
    rw [journalRefusal_silent silent] at done
    exact hP t (done.kept (.refl ..) (by simp)) done.lines done.replied

/-- Settles O49. -/
theorem aGrantEndsUnlessItIsInUse : Obligations.AGrantEndsUnlessItIsInUse := by
  refine ⟨fun h n g s hp hn present free => ?_, fun h n g s hp acts hn present temporary free => ?_,
    fun h n a p g s hp hn present operate staffed holder only ha owned bare lower => ?_,
    fun h n a p g s hp acts hn present temporary operate staffed holder only ha owned bare lower => ?_⟩
  · have found : (takeFrame h.link s).grants.get? n = some g := present
    have checked : firstRefusal (slotChecks (takeFrame h.link s) n ++ [inUseCheck (takeFrame h.link s) n]) = none := by
      rw [firstRefusal_append (firstRefusal_slotChecks hn found)]
      exact inUseCheck_free found (inUse?_eq_none (s := takeFrame h.link s) free)
    have quiet : Quiet [.grants, .journal, .links] (takeFrame h.link s) (endGrant n g (takeFrame h.link s)) :=
      (quiet_endGrant ..).mono (by simp)
    refine request_done (es := [be16 n ++ grantFields g]) (g := false) rfl hp ?_ quiet fun t done => ?_
    · exact (judged_of_none checked _).trans (by rw [grantIn_eq found]; rfl)
    · obtain ⟨gone, others⟩ := grant_ended (s := s) (t := t) (n := n) (done.agrees .grants nofun)
      exact ⟨gone, others, done.journaled (journaled_endGrant ..), done.replied, done.lines, done.kept quiet.kept (by simp)⟩
  · have found : (takeFrame h.link s).grants.get? n = some g := present
    have checked : firstRefusal (supervisorChecks (takeFrame h.link s) h.op ++ slotChecks (takeFrame h.link s) n ++
        [⟨(grantIn (takeFrame h.link s) n).temporary, .badState, n⟩, inUseCheck (takeFrame h.link s) n]) = none := by
      rw [List.append_assoc, firstRefusal_append (firstRefusal_supervisorChecks (s := takeFrame h.link s) acts),
        firstRefusal_append (firstRefusal_slotChecks hn found), firstRefusal_cons_eq_none, grantIn_eq found]
      exact ⟨temporary, inUseCheck_free found (inUse?_eq_none (s := takeFrame h.link s) free)⟩
    have quiet : Quiet [.grants, .journal, .links] (takeFrame h.link s) (endGrant n g (takeFrame h.link s)) :=
      (quiet_endGrant ..).mono (by simp)
    refine request_done (es := []) (g := false) rfl hp ?_ quiet fun t done => ?_
    · exact (judged_of_none checked _).trans (by rw [grantIn_eq found])
    · obtain ⟨gone, others⟩ := grant_ended (s := s) (t := t) (n := n) (done.agrees .grants nofun)
      exact ⟨gone, others, done.journaled (journaled_endGrant ..), done.replied, done.lines, done.kept quiet.kept (by simp)⟩
  · have found : (takeFrame h.link s).grants.get? n = some g := present
    have refused : firstRefusal (slotChecks (takeFrame h.link s) n ++ [inUseCheck (takeFrame h.link s) n]) = some (.grantInUse, a) := by
      rw [firstRefusal_append (firstRefusal_slotChecks hn found)]
      exact inUseCheck_used found (inUse?_eq_some (s := takeFrame h.link s) operate staffed holder only ha owned bare lower)
    exact request_refused_silent rfl hp (judged_of_some refused _) rfl fun t kept lines replied => ⟨replied, lines, kept⟩
  · have found : (takeFrame h.link s).grants.get? n = some g := present
    have refused : firstRefusal (supervisorChecks (takeFrame h.link s) h.op ++ slotChecks (takeFrame h.link s) n ++
        [⟨(grantIn (takeFrame h.link s) n).temporary, .badState, n⟩, inUseCheck (takeFrame h.link s) n]) = some (.grantInUse, a) := by
      rw [List.append_assoc, firstRefusal_append (firstRefusal_supervisorChecks (s := takeFrame h.link s) acts),
        firstRefusal_append (firstRefusal_slotChecks hn found), firstRefusal, grantIn_eq found, if_pos temporary]
      exact inUseCheck_used found (inUse?_eq_some (s := takeFrame h.link s) operate staffed holder only ha owned bare lower)
    exact request_refused_silent rfl hp (judged_of_some refused _) rfl fun t kept lines replied => ⟨replied, lines, kept⟩

/-! ### Access checks -/

/-- R85: the entry of a refusal at a console that names an alarm. -/
theorem journalRefusal_alarm {h : Header} {p : Pos} (hl : h.link = .console p) {c : Cause} {code : Nat}
    (coded : accessCauseCode? c = some code) (other : c ≠ .badge) (k : Kind) (i v : Nat) (s : State) :
    journalRefusal h k (some i) (.refused c v) s =
      append .accessRefused (some p) (some h.op) (some i) (code * 256 + kindCode k) s := by
  simp [journalRefusal, hl, accessRefused, coded, other]

/-- A request that its body refuses with an ACCESS_REFUSED entry for the alarm that it names. -/
theorem request_refused_logged {k : Kind} {h : Header} {p : Pos} {i : Nat} {body : State → State × Answer} {s : State}
    {c : Cause} {v code : Nat} {P : State → Prop} {out : Host.Outcome State Fault Refusal} (ho : out = serve k h (some i) body s)
    (hp : Passes k h s) (hl : h.link = .console p) (hb : body (takeFrame h.link s) = (takeFrame h.link s, .refused c v))
    (coded : accessCauseCode? c = some code) (other : c ≠ .badge)
    (hP : ∀ t, Replied k h (.refused c v) s t →
      Journaled [⟨.accessRefused, some p, some h.op, some i, code * 256 + kindCode k⟩] s t → Kept [.journal, .links] s t → P t) :
    ∃ t, out = .next t ∧ P t :=
  request_refused ho hp hb (.refl [.links] _) fun t done => by
    rw [journalRefusal_alarm hl coded other] at done
    exact hP t done.replied (done.journaled (journaled_append ..)) (done.kept ((quiet_append ..).kept.mono (by simp)) (by simp))

/-- R77: a badge request whose badge check refuses. -/
theorem badgeRequest_refused {before : List Check} {o : Nat} {badge : Word} {after : State → List Check}
    {act : State → State × Answer} {s u : State} {c : Cause} {v : Nat}
    (checked : firstRefusal (before ++ [definedCheck s o]) = none) (refused : badgeCheck o badge s = (u, some (c, v))) :
    badgeRequest before o badge after act s = (u, .refused c v) := by
  rw [badgeRequest, judged_of_none checked, refused]

theorem alarmAt_eq {s : State} {i : Nat} {a : Alarm} (h : alarm? s i = some a) : alarmAt s i = a := by rw [alarmAt, h]; rfl

theorem ownerOf_eq {s : State} {i : Nat} {a : Alarm} (h : alarm? s i = some a) : ownerOf s i = areaOwner s a.defn.area := by
  rw [ownerOf, alarmAt_eq h]

/-- R77: the first failing check of an ACK. -/
theorem ack_refuses {h : Header} {p : Pos} {i : Nat} {a : Alarm} {s : State} (ack : i ≤ 2047) (present : alarm? s i = some a) :
    let cs := alarmActionChecks s h.op i .operate (ackLevelOf s i) p
    (operator? s h.op = none → firstRefusal cs = some (.unknownOperator, h.op)) ∧
    ((operator? s h.op).isSome = true → ¬Holds s h.op p → firstRefusal cs = some (.notHolder, h.op)) ∧
    (Holds s h.op p → ownerOf s i ≠ p → ¬(p = .p0 ∧ holdsFor s.grants h.op .supervise a.defn.area .p0 = true) →
      firstRefusal cs = some (.areaNotOwned, a.defn.area)) ∧
    (Holds s h.op p → ownerOf s i = p ∨ (p = .p0 ∧ holdsFor s.grants h.op .supervise a.defn.area .p0 = true) →
      (holdsFor s.grants h.op .operate a.defn.area p = false → firstRefusal cs = some (.noGrant, a.defn.area)) ∧
      (holdsFor s.grants h.op .operate a.defn.area p = true → a.defn.ackLevel < levelOf s h.op →
        firstRefusal cs = some (.level, i))) := by
  intro cs
  have index : firstRefusal (indexChecks s i) = none := by simp [indexChecks, Config.maxAlarmIndex, ack, isDefined, present]
  have start : firstRefusal cs = firstRefusal ([definedCheck s h.op, holderCheck s h.op p] ++
      alarmChecks s h.op i .operate (ackLevelOf s i) p) := by
    show firstRefusal (indexChecks s i ++ _ ++ _) = _
    rw [List.append_assoc, firstRefusal_append index]
  have later (held : Holds s h.op p) : firstRefusal cs = firstRefusal (alarmChecks s h.op i .operate (ackLevelOf s i) p) := by
    rw [start, firstRefusal_append (by simp [definedCheck, holderCheck, isSome_operator?_of_engaged held, held])]
  have at_i := alarmAt_eq present
  refine ⟨fun unknown => ?_, fun known other => ?_, fun held other plain => ?_, fun held owned => ⟨fun bare => ?_, fun grant low => ?_⟩⟩
  · simp [start, firstRefusal, definedCheck, unknown]
  · simp [start, firstRefusal, definedCheck, holderCheck, known, other]
  · rw [later held]
    rw [ownerOf_eq present] at other
    simp only [alarmChecks, firstRefusal, areaCheck, at_i]
    rw [if_neg (by simp [other]; simpa using plain)]
  · rw [later held]
    rw [ownerOf_eq present] at owned
    simp only [alarmChecks, firstRefusal, areaCheck, grantCheck, at_i, bare]
    rw [if_pos (by simpa using owned)]
    rfl
  · rw [later held]
    rw [ownerOf_eq present] at owned
    simp only [alarmChecks, firstRefusal, areaCheck, grantCheck, levelCheck, at_i, grant, ackLevelOf, if_true]
    rw [if_pos (by simpa using owned), if_neg (by simpa using low)]

/-- R67: a badge check that refuses. -/
theorem badgeCheck_refuses {s : State} {o : Nat} {r : Operator} {badge : Word} (known : operator? s o = some r) :
    (r.locked = true → badgeCheck o badge s = (s, some (.locked, o))) ∧
    (r.locked = false → r.badge ≠ badge → r.failures < 2 →
      badgeCheck o badge s = (modOperator o (fun r => { r with failures := r.failures + 1 }) s, some (.badge, r.failures + 1))) ∧
    (r.locked = false → r.badge ≠ badge → 2 ≤ r.failures →
      badgeCheck o badge s = (modOperator o (fun r => { r with locked := true, failures := 0 }) s, some (.badge, 3))) := by
  refine ⟨fun locked => ?_, fun locked wrong few => ?_, fun locked wrong many => ?_⟩
  · simp [badgeCheck, known, locked]
  · simp [badgeCheck, known, locked, wrong, few]
  · simp [badgeCheck, known, locked, wrong, Nat.not_lt.2 many]

theorem modOperator_others {o : Nat} {f : Operator → Operator} {s t : State} (operators : t.operators = (modOperator o f s).operators) :
    OtherOperatorsKept o s t := fun q hq => by rw [operators]; exact Table.get?_modify_ne _ _ hq

theorem operator?_modified {o : Nat} {f : Operator → Operator} {s t : State} {r : Operator}
    (operators : t.operators = (modOperator o f s).operators) (known : operator? s o = some r) : operator? t o = some (f r) := by
  rw [operator?_congr operators, operator?_modOperator, if_pos rfl, known]; rfl

/-- Settles O50. -/
theorem accessChecksRefuseInOrder : Obligations.AccessChecksRefuseInOrder := by
  refine ⟨fun h p i a s hp hl index present => ?_, fun h p badge r s hp hl vacant known wrong => ?_⟩
  · have present' : alarm? (takeFrame h.link s) i = some a := present
    obtain ⟨unknown, notHolder, notOwned, owned⟩ := ack_refuses (h := h) (p := p) index present'
    have judge {c : Cause} {v : Nat} (refused : firstRefusal (alarmActionChecks (takeFrame h.link s) h.op i .operate
        (ackLevelOf (takeFrame h.link s) i) p) = some (c, v)) : atConsole h (fun p s => judged (alarmActionChecks s h.op i .operate
          (ackLevelOf s i) p) s (ackAnswer h.op p i)) (takeFrame h.link s) = (takeFrame h.link s, .refused c v) :=
      (atConsole_console hl _ _).trans (judged_of_some refused _)
    refine ⟨fun none => ?_, fun some' other => ?_, fun held other plain => ?_, fun held own bare => ?_, fun held own grant low => ?_⟩
    · exact request_refused_silent rfl hp (judge (unknown none)) rfl fun t kept _ replied => ⟨replied, kept⟩
    · exact request_refused_silent rfl hp (judge (notHolder some' other)) rfl fun t kept _ replied => ⟨replied, kept⟩
    · exact request_refused_silent rfl hp (judge (notOwned held other plain)) rfl fun t kept _ replied => ⟨replied, kept⟩
    · exact request_refused_logged rfl hp hl (judge ((owned held own).1 bare)) rfl nofun fun t replied journaled kept =>
        ⟨replied, journaled, kept⟩
    · exact request_refused_logged rfl hp hl (judge ((owned held own).2 grant low)) rfl nofun fun t replied journaled kept =>
        ⟨replied, journaled, kept⟩
  · have known' : operator? (takeFrame h.link s) h.op = some r := known
    obtain ⟨isLocked, wrongly, thirdly⟩ := badgeCheck_refuses (badge := badge) known'
    have checked : firstRefusal ([stateCheck (takeFrame h.link s) p .vacant] ++ [definedCheck (takeFrame h.link s) h.op]) = none := by
      simp [stateCheck, vacant, definedCheck, known']
    have judge {u : State} {c : Cause} {v : Nat} (refused : badgeCheck h.op badge (takeFrame h.link s) = (u, some (c, v))) :
        atConsole h (fun p s => badgeRequest [stateCheck s p .vacant] h.op badge (fun s => takeDeskChecks s h.op p)
          (fun s => let t := signOn h.op p s; (t, doneWith (signOnFields t p))) s) (takeFrame h.link s) = (u, .refused c v) :=
      (atConsole_console hl _ _).trans (badgeRequest_refused checked refused)
    have logged {c : Cause} {v code : Nat} (u : State) (coded : accessCauseCode? c = some code) (named : c ≠ .noGrant) :
        journalRefusal h .signOn none (.refused c v) u = append .accessRefused (some p) (some h.op) none
          (code * 256 + 41 + if c = .badge ∧ v = 3 then 32768 else 0) u := by
      simp [journalRefusal, hl, accessRefused, coded, named, show kindCode .signOn = 41 from rfl]
    cases locked : r.locked
    · have badged : r.badge ≠ badge := wrong.resolve_left (by simp [locked])
      have quiet (f : Operator → Operator) : Quiet [.operators, .journal, .links] (takeFrame h.link s) (modOperator h.op f (takeFrame h.link s)) :=
        (quiet_modOperator ..).mono (by simp)
      rcases Nat.lt_or_ge r.failures 2 with few | many
      · refine request_refused rfl hp (judge (wrongly locked badged few)) (quiet _) fun t done => ?_
        rw [logged _ rfl (by decide)] at done
        have operators := done.agrees .operators nofun
        refine ⟨modOperator_others operators, done.lines,
          done.kept ((quiet _).kept.trans ((quiet_append ..).kept.mono (by simp))) (by simp), nofun, fun _ _ =>
          ⟨done.replied, by rw [← locked]; exact operator?_modified operators known', ?_⟩, fun _ many => absurd few (Nat.not_lt.2 many)⟩
        have entry := done.journaled (Journaled.after (.of_kept (quiet_modOperator ..).kept (by simp)) (journaled_append ..) rfl)
        rw [if_neg (by omega)] at entry
        exact entry
      · refine request_refused rfl hp (judge (thirdly locked badged many)) (quiet _) fun t done => ?_
        rw [logged _ rfl (by decide)] at done
        have operators := done.agrees .operators nofun
        exact ⟨modOperator_others operators, done.lines,
          done.kept ((quiet _).kept.trans ((quiet_append ..).kept.mono (by simp))) (by simp), nofun,
          fun _ few => absurd few (Nat.not_lt.2 many), fun _ _ => ⟨done.replied, operator?_modified operators known',
          done.journaled (Journaled.after (.of_kept (quiet_modOperator ..).kept (by simp)) (journaled_append ..) rfl)⟩⟩
    · refine request_refused rfl hp (judge (isLocked locked)) (.refl [.links] _) fun t done => ?_
      rw [logged _ rfl (by decide)] at done
      have operators : t.operators = s.operators := done.agrees .operators nofun
      exact ⟨fun q _ => by rw [operators], done.lines, done.kept ((quiet_append ..).kept.mono (by simp)) (by simp),
        fun _ => ⟨done.replied, operators, done.journaled (journaled_append ..)⟩, nofun, nofun⟩

end Sys2Proof.Machine
end

section
/-! PROOFS. Work at the desks: signing on and off, bypasses and notes (chapter 5). -/

namespace Sys2Proof.Machine

/-! ### Events inside the part -/

/-- An event left `u`, and `t` is the state at the end of the command. -/
structure Expired (s u t : State) : Prop where
  noReply : NoReply s t
  same : Kept [.links] u t
  lines : LinesKept s t
  announced : ∀ told, Told told s u → Announced told s t

namespace Expired
variable {s u t : State} (d : Expired s u t)
include d

theorem agrees (p : Part) (hp : p ≠ .links) : Agrees u t p := d.same.agrees p (by simpa using hp)

theorem kept {ps : List Part} (w : Kept ps s u) (hl : Part.links ∈ ps) :
    Kept ps s t := w.trans (d.same.mono (by simpa using hl))

theorem journaled {ls : List Line} (w : Journaled ls s u) : Journaled ls s t := by
  obtain ⟨journal, next⟩ := d.agrees .journal nofun
  exact ⟨journal.trans w.1, next.trans w.2⟩

end Expired

/-- What holds of every state that an event's work may leave. -/
theorem event_done {ps : List Part} {act : State → State} {s u : State} {P : State → Prop}
    {out : Host.Outcome State Fault Refusal} (ho : out = event act s) (ha : act s = u) (q : Quiet ps s u)
    (hP : ∀ t, Expired s u t → P t) : ∃ t, out = .next t ∧ P t := by
  subst ha
  obtain ⟨t, ht, noReply, lines⟩ := event_spec act s q
  have next : settle (act s) = t := Host.Outcome.next.inj ht
  subst next
  exact ⟨_, ho.trans ht, hP _ ⟨noReply, kept_settle _, lines, fun _ => Told.announced⟩⟩

/-! ### Badge requests -/

/-- R67: the failures of an operator whose badge check passed. -/
def badged (o : Nat) (s : State) : State := modOperator o (fun r => { r with failures := 0 }) s

theorem badgeCheck_passes {s : State} {o : Nat} {r : Operator} {badge : Word} (known : operator? s o = some r)
    (passes : BadgePasses s o badge) : badgeCheck o badge s = (badged o s, none) := by
  obtain ⟨unlocked, same⟩ : r.locked = false ∧ r.badge = badge := by simpa [BadgePasses, known] using passes
  simp [badgeCheck, known, unlocked, same, badged]

/-- R77: a badge request whose badge check passes is judged on the state that it left. -/
theorem badgeRequest_passes {before : List Check} {o : Nat} {badge : Word} {after : State → List Check}
    {act : State → State × Answer} {s : State} {r : Operator} (began : firstRefusal before = none) (known : operator? s o = some r)
    (passes : BadgePasses s o badge) (checked : firstRefusal (after (badged o s)) = none) :
    badgeRequest before o badge after act s = act (badged o s) := by
  have first : firstRefusal (before ++ [definedCheck s o]) = none := by
    rw [firstRefusal_append began]; simp [definedCheck, known]
  rw [badgeRequest, judged_of_none first, badgeCheck_passes known passes]
  exact judged_of_none checked act

theorem engagementOf_badged (o q : Nat) (s : State) : engagementOf (badged o s) q = engagementOf s q :=
  engagementOf_modOperator o q _ s fun _ => rfl

theorem levelOf_badged (o q : Nat) (s : State) : levelOf (badged o s) q = levelOf s q := by
  simp only [levelOf, badged, operator?_modOperator]
  split
  · subst q; cases operator? s o <;> rfl
  · rfl

theorem quiet_badged (o : Nat) (s : State) : Quiet [.operators] s (badged o s) := quiet_modOperator ..

theorem levelOf_eq {s : State} {o : Nat} {r : Operator} (known : operator? s o = some r) : levelOf s o = r.level := by
  rw [levelOf, known]; rfl

theorem firstRefusal_takeDeskChecks {s : State} {o : Nat} {p : Pos} (may : MayTakeDesk s o p) :
    firstRefusal (takeDeskChecks (badged o s) o p) = none := by
  obtain ⟨free, covers, level⟩ := may
  have covered : uncovered? (badged o s) (badged o s).grants o p = none := covers
  simp [takeDeskChecks, freeCheck, coverageCheck, staffingCheck, engagementOf_badged, levelOf_badged, free, covered]
  exact level

/-- R67, R93: the record of an operator whose badge check passed and who is engaged. -/
theorem operator?_engaged {s t : State} {o : Nat} {r : Operator} {e : Option (Pos × Role)} (known : operator? s o = some r)
    (operators : t.operators = (setEngagement o e (badged o s)).operators) :
    operator? t o = some { r with failures := 0, engagement := e } := by
  have checked : operator? (badged o s) o = some { r with failures := 0 } := operator?_modified rfl known
  exact operator?_modified operators checked

theorem others_engaged {s t : State} {o : Nat} {e : Option (Pos × Role)}
    (operators : t.operators = (setEngagement o e (badged o s)).operators) : OtherOperatorsKept o s t := fun q hq => by
  rw [modOperator_others operators q hq, modOperator_others (t := badged o s) rfl q hq]

/-! ### Release -/

theorem release_eq {s : State} {o : Nat} {p : Pos} {role : Role} (engaged : engagementOf s o = some (p, role)) :
    release o s = endGrants (boundTemporary o p) (setEngagement o none s) := by
  simp only [release, engaged]
  rfl

theorem endedLines_congr {s t : State} (f : Grant → Bool) (h : t.grants = s.grants) : endedLines f t = endedLines f s := by
  simp only [endedLines, h]

/-- R66, R75: what the release of an operator engaged at a position leaves. -/
theorem release_spec {s : State} {o : Nat} {p : Pos} {role : Role} (engaged : engagementOf s o = some (p, role))
    (wf : s.grants.wf = true) : OtherOperatorsKept o s (release o s) ∧ GrantsEnded (boundTemporary o p) s (release o s) ∧
      Journaled (endedLines (boundTemporary o p) s) s (release o s) := by
  rw [release_eq engaged]
  refine ⟨fun q hq => ?_, endGrants_ended _ (setEngagement o none s) wf, ?_⟩
  · rw [endGrants_operators]; exact Table.get?_modify_ne _ _ hq
  · exact Journaled.after (.of_kept (quiet_setEngagement ..).kept (by simp)) (journaled_endGrants _ (setEngagement o none s)) rfl

/-! ### SIGN_ON and SIGN_OFF -/

theorem modPos_others {p : Pos} {f : PosContext → PosContext} {s t : State} (positions : t.positions = (modPos p f s).positions) :
    t.positions.get p = f (s.positions.get p) ∧ OtherDesksKept p s t :=
  ⟨by rw [positions, modPos_get_self], fun q hq => by rw [positions, modPos_get, if_neg hq]⟩

/-- Settles O52. -/
theorem signOnAndSignOffTakeAndLeaveTheDesk : Obligations.SignOnAndSignOffTakeAndLeaveTheDesk := by
  refine ⟨fun h p badge r s hp hl vacant passes may known => ?_, fun h p s hp hl held holder staffed unrelieved unowned wf => ?_⟩
  · generalize hv : takeFrame h.link s = v at *
    have known' : operator? v h.op = some r := hv ▸ known
    have body : atConsole h (fun p s => badgeRequest [stateCheck s p .vacant] h.op badge (fun s => takeDeskChecks s h.op p)
        (fun s => let t := signOn h.op p s; (t, doneWith (signOnFields t p))) s) v =
        (signOn h.op p (badged h.op v), doneWith (signOnFields (signOn h.op p (badged h.op v)) p)) := by
      have at_p : (v.positions.get p).state = .vacant := hv ▸ vacant
      have may' : MayTakeDesk v h.op p := hv ▸ may
      rw [atConsole_console hl]
      exact badgeRequest_passes (by simp [stateCheck, at_p]) known' (hv ▸ passes) (firstRefusal_takeDeskChecks may')
    have quiet : Quiet [.positions, .operators, .journal, .links] v (signOn h.op p (badged h.op v)) :=
      ((quiet_badged ..).mono (by simp)).trans ((quiet_signOn ..).mono (by simp))
    subst hv
    refine request_done rfl hp body quiet fun t done => ?_
    obtain ⟨here, others⟩ := modPos_others (s := s) (t := t) (p := p)
      (f := fun c => { c with holder := some h.op, state := .staffed }) (done.agrees .positions nofun)
    have operators : t.operators = (setEngagement h.op (some (p, .holder)) (badged h.op s)).operators := done.agrees .operators nofun
    have level : levelOf (badged h.op s) h.op = r.level := (levelOf_badged ..).trans (levelOf_eq known)
    refine ⟨here, operator?_engaged known operators, ?_, ?_, others, others_engaged operators, done.lines,
      done.kept quiet.kept (by simp)⟩
    · have fields : signOnFields (signOn h.op p (badged h.op (takeFrame h.link s))) p = bePos p ++ be16 (areaSet (ownedAreas s p)) ++
          be16 (s.lists.get p).ann.length ++ be16 (s.positions.get p).notes.length := by
        have desk : (signOn h.op p (badged h.op (takeFrame h.link s))).positions.get p =
            { s.positions.get p with holder := some h.op, state := .staffed } :=
          modPos_get_self p (fun c => { c with holder := some h.op, state := .staffed }) (takeFrame h.link s)
        rw [signOnFields, desk]
        rfl
      exact fields ▸ done.replied
    · rw [← level]
      exact done.journaled (Journaled.after (.of_kept ((quiet_badged ..).kept.mono (qs := [.operators, .positions]) (by simp)
        |>.trans ((quiet_modPos ..).kept.mono (by simp)) |>.trans ((quiet_setEngagement ..).kept.mono (by simp))) (by simp))
        (journaled_append ..) rfl)
  · have checked : firstRefusal (signOffChecks (takeFrame h.link s) h.op p) = none := by
      have none_owned : ownedAreas s p = [] := by simpa [ownedAreas] using unowned
      have owned : ownedAreas (takeFrame h.link s) p = [] := none_owned
      have at_p : engagementOf (takeFrame h.link s) h.op = some (p, .holder) := held
      simp [signOffChecks, definedCheck, holderCheck, stateCheck, noReliefCheck, owned, at_p, isSome_operator?_of_engaged at_p,
        staffed, unrelieved]
    have former : holderOf (takeFrame h.link s) p = h.op := congrArg (Option.getD · 0) holder
    generalize hv : modPos p (fun c => { c with holder := none, state := .vacant }) (takeFrame h.link s) = v
    have engaged : engagementOf v h.op = some (p, .holder) := hv ▸ held
    have moved : Quiet [.positions] (takeFrame h.link s) v := hv ▸ quiet_modPos ..
    have work : signOff p (takeFrame h.link s) = append .signOff (some p) (some h.op) none 0 (release h.op v) := by
      simp only [signOff, former, hv]
    have quiet : Quiet [.positions, .operators, .grants, .journal, .links] (takeFrame h.link s) (signOff p (takeFrame h.link s)) :=
      (quiet_signOff ..).mono (by simp)
    obtain ⟨operators, grants, entries⟩ := release_spec engaged (hv ▸ wf : v.grants.wf = true)
    have same : v.grants = s.grants ∧ v.operators = s.operators ∧ v.millTime = s.millTime := hv ▸ ⟨rfl, rfl, rfl⟩
    obtain ⟨sameGrants, sameOperators, sameTime⟩ := same
    refine request_done rfl hp ((atConsole_console hl _ _).trans (judged_of_none checked _)) quiet fun t done => ?_
    rw [work] at done quiet
    have positions : t.positions = (modPos p (fun c => { c with holder := none, state := .vacant }) s).positions := by
      have left : t.positions = (release h.op v).positions := done.agrees .positions nofun
      rw [left, release_positions, ← hv]
      rfl
    obtain ⟨here, others⟩ := modPos_others positions
    have grantsAt : t.grants = (release h.op v).grants := done.agrees .grants nofun
    have operatorsAt : t.operators = (release h.op v).operators := done.agrees .operators nofun
    refine ⟨here, ?_, fun n g => ?_, done.replied, done.journaled ?_, others, fun q hq => ?_, done.lines, done.kept quiet.kept (by simp)⟩
    · rw [engagementOf_of_operators operatorsAt, engagementOf_release, if_pos rfl]
    · rw [grantsAt, grants, sameGrants]
    · have ended := endedLines_congr (boundTemporary h.op p) sameGrants
      rw [← ended]
      have first : Journaled (endedLines (boundTemporary h.op p) v) (takeFrame h.link s) (release h.op v) :=
        .after (.of_kept moved.kept (by simp)) entries sameTime
      exact first.trans (journaled_append ..) (((quiet_release v h.op).kept.agrees .clock (by simp)).1.trans sameTime)
    · rw [operatorsAt, operators q hq, sameOperators]

/-! ### Bypasses -/

/-- R99, R104: the access to the bypasses of an area. -/
theorem firstRefusal_bypassAccess {s : State} {o a interlock : Nat} {p : Pos} (ha : a ≤ 15) (h1 : 1 ≤ interlock) (h2 : interlock ≤ 999)
    (held : Holds s o p) (owned : areaOwner s a = p ∨ (p = .p0 ∧ holdsFor s.grants o .supervise a .p0 = true))
    (grant : holdsFor s.grants o .bypass a p = true) : firstRefusal (bypassAccess s o a interlock p) = none := by
  simpa [bypassAccess, definedCheck, holderCheck, areaCheck, grantCheck, ha, h1, h2, held, grant,
    isSome_operator?_of_engaged held] using owned

theorem roomForItem_eq {s : State} {p : Pos} (room : HasRoom s p) : roomForItem s p = true := by
  by_cases review : (s.positions.get p).state = .review
  · simp [roomForItem, room review]
  · simp [roomForItem, review]

/-- R129: an item that is not a summary item is appended at a position in REVIEW with a free place. -/
theorem appendItem_spec {p : Pos} {k : ItemKind} {s : State} (subject count : Nat) (room : HasRoom s p) :
    let w : ItemWork := fun items => [appendedItem items k subject count]
    let t := if inReview s p then appendItem p k subject count s else s
    ItemsFollow p w s t ∧ Told (atDesk p (itemNotices p w s)) s t :=
  reported (fun h => by
    have free := room (by simpa [inReview] using h)
    rw [if_pos h]
    exact (appendItem_done ..).at_items (by simp [free])) fun h => if_neg (by simp [h])

theorem resolveItem_spec (p : Pos) (k : ItemKind) (subject : Nat) (s : State) :
    let t := if inReview s p then resolveItem p k subject s else s
    ItemsFollow p (itemResolved k subject) s t ∧ Told (atDesk p (itemNotices p (itemResolved k subject) s)) s t :=
  reported (fun h => by rw [if_pos h]; exact resolveItem_done ..) fun h => if_neg (by simp [h])

/-- A context that changed in its items alone is the one that the items name. -/
theorem PosContext.eq_of_items {c d : PosContext} {items : List Item} (rest : { d with items := [] } = { c with items := [] })
    (h : d.items = items) : d = { c with items := items } := by
  cases c; cases d
  simp_all

theorem itemsFollow_others {p : Pos} {w : ItemWork} {s t : State} (follow : ItemsFollow p w s t) (desks : DesksKept s t) :
    OtherDesksKept p s t := fun q hq => by
  have items := follow q
  rw [if_neg fun h => hq h.1] at items
  exact PosContext.eq_of_items (desks q) items

theorem ItemsFollow.congr {p : Pos} {w : ItemWork} {s t u v : State} (follow : ItemsFollow p w v u) (before : v.positions = s.positions)
    (after : t.positions = u.positions) : ItemsFollow p w s t := fun q => by
  rw [after, ← before]; exact follow q

theorem itemNotices_congr {s v : State} (p : Pos) (w : ItemWork) (h : v.positions = s.positions) :
    itemNotices p w v = itemNotices p w s := by simp only [itemNotices, h]

/-- What is told after work that left the links. -/
theorem Told.from_links {a : Link → List Notice} {s v u : State} (told : Told a v u) (h : v.links = s.links) : Told a s u :=
  ((Told.of_links h).trans told).congr fun _ => rfl

theorem DesksKept.congr {s t u v : State} (desks : DesksKept v u) (before : v.positions = s.positions) (after : t.positions = u.positions) :
    DesksKept s t := fun q => by
  rw [after, ← before]; exact desks q

theorem clamp_eq {low high : Nat} (h : low ≤ high) (n : Nat) : clamp low high n = max low (min high n) := by
  unfold clamp; split <;> (try split) <;> omega

theorem Served.follows {k : Kind} {h : Header} {a : Answer} {s u t : State} {p : Pos} {w : ItemWork} (d : Served k h a s u t)
    (f : ItemsFollow p w (takeFrame h.link s) u) : ItemsFollow p w s t :=
  ItemsFollow.congr f rfl (d.agrees .positions nofun)

theorem Served.desks {k : Kind} {h : Header} {a : Answer} {s u t : State} (d : Served k h a s u t)
    (f : DesksKept (takeFrame h.link s) u) : DesksKept s t := DesksKept.congr f rfl (d.agrees .positions nofun)

/-- R128: the items after one that is appended in REVIEW. -/
theorem itemsFollow_appended {p : Pos} {k : ItemKind} {subject count : Nat} {s t : State}
    (follow : ItemsFollow p (fun items => [appendedItem items k subject count]) s t) :
    (t.positions.get p).items = (s.positions.get p).items ++ (if (s.positions.get p).state = .review then
      [⟨(s.positions.get p).items.length, k, subject, count, false, false, true⟩] else []) := by
  have items := follow p
  by_cases review : (s.positions.get p).state = .review
  · rw [if_pos review]; rw [if_pos ⟨rfl, review⟩] at items; exact items
  · rw [if_neg review, List.append_nil]; rw [if_neg fun h => review h.2] at items; exact items

/-- R100: what the declaration of a bypass leaves. -/
theorem declareBypass_spec {a : Nat} {s : State} (o interlock stored n : Nat) (room : HasRoom s (areaOwner s a)) :
    let u := declareBypass o a interlock stored n s
    let w : ItemWork := fun items => [appendedItem items .bypass n interlock]
    u.bypasses = s.bypasses.insert n ⟨a, interlock, o, s.millTime, stored, stored, false⟩ ∧
      Journaled [⟨.bypassDeclared, some (areaOwner s a), some o, some a, interlock⟩] s u ∧ ItemsFollow (areaOwner s a) w s u ∧
      Told (atDesk (areaOwner s a) (itemNotices (areaOwner s a) w s)) s u := by
  intro u w
  generalize hv : append .bypassDeclared (some (areaOwner s a)) (some o) (some a) interlock
    { s with bypasses := Table.insert s.bypasses n (Bypass.mk a interlock o s.millTime stored stored false) } = v
  have work : u = if inReview v (areaOwner s a) then appendItem (areaOwner s a) .bypass n interlock v else v := by rw [← hv]; rfl
  have appended : Quiet [.positions, .links] v u := work ▸ .when (quiet_appendItem ..)
  have entry : Journaled [⟨.bypassDeclared, some (areaOwner s a), some o, some a, interlock⟩] s v := hv ▸ ⟨rfl, rfl⟩
  have same : v.positions = s.positions ∧ v.links = s.links ∧ v.millTime = s.millTime := hv ▸ ⟨rfl, rfl, rfl⟩
  obtain ⟨positions, links, time⟩ := same
  have bypasses : u.bypasses = v.bypasses := appended.kept.agrees .bypasses (by simp)
  obtain ⟨follow, told⟩ := appendItem_spec (k := .bypass) (s := v) (p := areaOwner s a) n interlock (by rwa [HasRoom, positions])
  rw [← work] at follow told
  rw [itemNotices_congr _ _ positions] at told
  exact ⟨by rw [bypasses, ← hv]; rfl, entry.before (.of_kept appended.kept (by simp)) time, follow.congr positions rfl,
    told.from_links links⟩

/-- R102: what the end of a bypass leaves. -/
theorem endBypass_spec (o n : Nat) (b : Bypass) (s : State) :
    let u := endBypass o n b s
    let p := areaOwner s b.area
    u.bypasses = s.bypasses.erase n ∧
      Journaled [⟨.bypassEnded, some p, some o, some b.area, b.interlock + if b.overdue then 32768 else 0⟩] s u ∧
      ItemsFollow p (itemResolved .bypass n) s u ∧ Told (atDesk p (itemNotices p (itemResolved .bypass n) s)) s u := by
  intro u p
  generalize hv : append .bypassEnded (some p) (some o) (some b.area) (b.interlock + if b.overdue then 32768 else 0)
    { s with bypasses := s.bypasses.erase n } = v
  have work : u = if inReview v p then resolveItem p .bypass n v else v := by rw [← hv]; rfl
  have resolved : Quiet [.positions, .links] v u := work ▸ .when (quiet_resolveItem ..)
  have entry : Journaled [⟨.bypassEnded, some p, some o, some b.area, b.interlock + if b.overdue then 32768 else 0⟩] s v :=
    hv ▸ ⟨rfl, rfl⟩
  have same : v.positions = s.positions ∧ v.links = s.links ∧ v.millTime = s.millTime := hv ▸ ⟨rfl, rfl, rfl⟩
  obtain ⟨positions, links, time⟩ := same
  have bypasses : u.bypasses = v.bypasses := resolved.kept.agrees .bypasses (by simp)
  obtain ⟨follow, told⟩ := resolveItem_spec p .bypass n v
  rw [← work] at follow told
  rw [itemNotices_congr _ _ positions] at told
  exact ⟨by rw [bypasses, ← hv]; rfl, entry.before (.of_kept resolved.kept (by simp)) time, follow.congr positions rfl,
    told.from_links links⟩

/-- R132, R134: the item that is resolved stays in its list. -/
theorem mem_itemResolved {items : List Item} {k : ItemKind} {subject : Nat} {it : Item} (h : unresolved? items k subject = some it) :
    { it with resolved := true } ∈ (itemResolved k subject).result items := by
  simp only [ItemWork.result, itemResolved, h, List.foldl_cons, List.foldl_nil, ItemChange.apply]
  exact List.mem_map.2 ⟨it, List.mem_of_find?_eq_some h, by simp⟩

/-- R101: what the expiry of a due timer leaves. -/
theorem expireBypass_spec (n : Nat) {b : Bypass} (due : b.due = 0) (s : State) :
    let u := expireBypass n b s
    u.bypasses = s.bypasses.insert n { b with overdue := true } ∧
      Journaled [⟨.bypassDue, some (areaOwner s b.area), none, some b.area, b.interlock⟩] s u ∧
      Told (atBoth (areaOwner s b.area) [.bypassDue n b.area b.interlock b.operator b.declared b.duration]) s u := by
  intro u
  generalize hv : append .bypassDue (some (areaOwner s b.area)) none (some b.area) b.interlock
    { s with bypasses := Table.insert s.bypasses n { b with overdue := true, due := 0 } } = v
  have work : u = notifyBoth (areaOwner s b.area) (.bypassDue n b.area b.interlock b.operator b.declared b.duration) v := by
    rw [← hv]; rfl
  have entry : Journaled [⟨.bypassDue, some (areaOwner s b.area), none, some b.area, b.interlock⟩] s v := hv ▸ ⟨rfl, rfl⟩
  have same : v.bypasses = s.bypasses.insert n { b with overdue := true, due := 0 } ∧ v.links = s.links ∧ v.millTime = s.millTime :=
    hv ▸ ⟨rfl, rfl, rfl⟩
  obtain ⟨bypasses, links, time⟩ := same
  have told : Quiet [.links] v u := work ▸ quiet_notifyBoth ..
  have kept : u.bypasses = v.bypasses := told.kept.agrees .bypasses (by simp)
  refine ⟨by rw [kept, bypasses, ← due], entry.before (.of_kept told.kept (by simp)) time, ?_⟩
  rw [work]
  exact Told.from_links (told_notifyBoth _ _ v) links

/-- Settles O54. -/
theorem bypassesAreDeclaredEndedAndFallDue : Obligations.BypassesAreDeclaredEndedAndFallDue := by
  refine ⟨fun h p a interlock duration n s hp hl ha h1 h2 held owned grant fresh hn empty lower room => ?_,
    fun h p a interlock n b s hp hl ha h1 h2 held owned grant found => ?_, fun n b s found due current => ?_⟩
  · have slot : freeSlot? Config.bypassSlots s.bypasses = some n := freeSlot?_eq hn empty lower
    have checked : firstRefusal (bypassAccess (takeFrame h.link s) h.op a interlock p ++
        bypassChecks (takeFrame h.link s) a interlock) = none := by
      rw [firstRefusal_append (firstRefusal_bypassAccess (s := takeFrame h.link s) ha h1 h2 held owned grant)]
      have missing : bypass? (takeFrame h.link s) a interlock = none := by
        rw [bypass?, List.find?_eq_none]
        intro e he
        simpa using fresh e he
      have room' : roomForItem (takeFrame h.link s) (areaOwner (takeFrame h.link s) a) = true :=
        roomForItem_eq (s := takeFrame h.link s) room
      simp [bypassChecks, missing, room', slot]
    obtain ⟨bypasses, entry, follow, told⟩ := declareBypass_spec (s := takeFrame h.link s) h.op interlock (clamp 300 86400 duration) n room
    have quiet : Quiet [.bypasses, .positions, .journal, .links] (takeFrame h.link s) _ :=
      quiet_declareBypass _ h.op a interlock (clamp 300 86400 duration) n
    have body : atConsole h (fun p s => judged (bypassAccess s h.op a interlock p ++ bypassChecks s a interlock) s fun s =>
        let stored := clamp 300 86400 duration
        let slot := (freeSlot? Config.bypassSlots s.bypasses).getD 0
        (declareBypass h.op a interlock stored slot s, doneWith (be8 slot ++ be32 stored ++ clampMark duration stored)))
          (takeFrame h.link s) = (declareBypass h.op a interlock (clamp 300 86400 duration) n (takeFrame h.link s),
            doneWith (be8 n ++ be32 (clamp 300 86400 duration) ++ clampMark duration (clamp 300 86400 duration))) := by
      have slot' : (freeSlot? Config.bypassSlots (takeFrame h.link s).bypasses).getD 0 = n := congrArg (Option.getD · 0) slot
      rw [atConsole_console hl, judged_of_none checked]
      simp only [slot']
    have desks := (desks_declareBypass (takeFrame h.link s) h.op a interlock (clamp 300 86400 duration) n).desks
    generalize declareBypass h.op a interlock (clamp 300 86400 duration) n (takeFrame h.link s) = u at *
    obtain ⟨t, next, done⟩ := serve_next_done hp body quiet
    have bypasses' : t.bypasses = _ := Eq.trans (done.agrees .bypasses nofun) bypasses
    have follows := done.follows follow
    refine ⟨t, _, next, clamp_eq (by decide) duration, ?_, fun m hm => ?_, ?_, done.announced _ told, done.replied,
      done.journaled entry, itemsFollow_others follows (done.desks desks), done.desks desks, done.lines,
      done.kept quiet.kept (by simp)⟩
    · rw [bypasses', Table.get?_insert_self]; rfl
    · rw [bypasses', Table.get?_insert_ne _ _ hm]; rfl
    · exact itemsFollow_appended follows
  · have at_area : b.area = a ∧ b.interlock = interlock := by simpa using List.find?_some found
    obtain ⟨rfl, rfl⟩ := at_area
    have found' : bypass? (takeFrame h.link s) b.area b.interlock = some (n, b) := found
    have checked : firstRefusal (bypassAccess (takeFrame h.link s) h.op b.area b.interlock p ++
        [⟨(bypass? (takeFrame h.link s) b.area b.interlock).isSome, .unknownIndex, b.interlock⟩]) = none := by
      rw [firstRefusal_append (firstRefusal_bypassAccess (s := takeFrame h.link s) ha h1 h2 held owned grant)]
      simp [found']
    obtain ⟨bypasses, entry, follow, told⟩ := endBypass_spec h.op n b (takeFrame h.link s)
    have quiet : Quiet [.bypasses, .positions, .journal, .links] (takeFrame h.link s) _ := quiet_endBypass _ h.op n b
    have desks := (desks_endBypass (takeFrame h.link s) h.op n b).desks
    refine request_done rfl hp ((atConsole_console hl _ _).trans ((judged_of_none checked _).trans (by rw [found']; rfl))) quiet
      fun t done => ?_
    have bypasses' : t.bypasses = _ := Eq.trans (done.agrees .bypasses nofun) bypasses
    have follows := done.follows follow
    refine ⟨?_, fun m hm => ?_, fun calm => ?_, fun it _ review hit => ?_, follows, done.announced _ told, done.replied,
      done.journaled entry, done.desks desks, done.lines, done.kept quiet.kept (by simp)⟩
    · rw [bypasses', Table.get?_erase_self]
    · rw [bypasses', Table.get?_erase_ne _ hm]; rfl
    · refine PerPos.ext_get fun q => PosContext.eq_of_items (done.desks desks q) ?_
      have items := follows q
      rwa [if_neg (by rintro ⟨rfl, review⟩; exact calm review)] at items
    · have items := follows (areaOwner s b.area)
      rw [if_pos ⟨rfl, review⟩] at items
      rw [items]
      exact mem_itemResolved hit
  · have isDue : dueBypass? s n = some b := by simp [dueBypass?, found, due, current]
    have quiet : Quiet [.bypasses, .journal, .links] s (expireBypass n b s) := quiet_expireBypass ..
    obtain ⟨bypasses, entry, told⟩ := expireBypass_spec n due s
    refine event_done (out := execDueExpiry n s) rfl (by simp only [isDue]) quiet fun t done => ?_
    have bypasses' : t.bypasses = _ := Eq.trans (done.agrees .bypasses nofun) bypasses
    refine ⟨?_, fun m hm => ?_, done.journaled entry, done.announced _ told, done.noReply, done.lines, done.kept quiet.kept (by simp)⟩
    · rw [bypasses', Table.get?_insert_self]
    · rw [bypasses', Table.get?_insert_ne _ _ hm]

/-! ### Notes -/

theorem itemNotices_at {s v : State} {p : Pos} {w : ItemWork} (state : (v.positions.get p).state = (s.positions.get p).state)
    (items : (v.positions.get p).items = (s.positions.get p).items) : itemNotices p w v = itemNotices p w s := by
  simp only [itemNotices, state, items]

/-- R104: what the addition of a note leaves. -/
theorem addNote_spec {p : Pos} {s : State} (o : Nat) (n : Note) (room : HasRoom s p) :
    let u := addNote o p n s
    let c := s.positions.get p
    u.positions.get p = { c with
      notes := c.notes ++ [n],
      items := c.items ++ if c.state = .review then [⟨c.items.length, .note, c.notes.length, n.code, false, false, true⟩] else [] } ∧
      OtherDesksKept p s u ∧ Journaled [⟨.noteAdded, some p, some o, none, n.code⟩] s u ∧
      Told (atDesk p (itemNotices p (fun items => [appendedItem items .note c.notes.length n.code]) s)) s u := by
  intro u c
  generalize hv : append .noteAdded (some p) (some o) none n.code (modPos p (fun c => { c with notes := c.notes ++ [n] }) s) = v
  have work : u = if inReview v p then appendItem p .note c.notes.length n.code v else v := by rw [← hv]; rfl
  obtain ⟨here, others⟩ := modPos_others (p := p) (f := fun c => { c with notes := c.notes ++ [n] }) (s := s) (t := v) (hv ▸ rfl)
  have entry : Journaled [⟨.noteAdded, some p, some o, none, n.code⟩] s v := hv ▸ ⟨rfl, rfl⟩
  have same : v.links = s.links ∧ v.millTime = s.millTime := hv ▸ ⟨rfl, rfl⟩
  obtain ⟨links, time⟩ := same
  have appended : Quiet [.positions, .links] v u := work ▸ .when (quiet_appendItem ..)
  have desks : DesksKept v u := by
    rw [work]
    split
    · exact (atPos_appendItem ..).desks
    · exact fun _ => rfl
  obtain ⟨follow, told⟩ := appendItem_spec (k := .note) (s := v) (p := p) c.notes.length n.code (by rw [HasRoom, here]; exact room)
  rw [← work] at follow told
  rw [itemNotices_at (s := s) (v := v) (by rw [here]) (by rw [here])] at told
  refine ⟨?_, fun q hq => (itemsFollow_others follow desks q hq).trans (others q hq), entry.before (.of_kept appended.kept (by simp)) time,
    told.from_links links⟩
  rw [PosContext.eq_of_items (desks p) (itemsFollow_appended follow), here]

/-- Settles O55. -/
theorem aNoteIsRetained : Obligations.ANoteIsRetained := by
  intro h p code text s hp hl short fits printable held few room
  have checked : firstRefusal (textChecks h.len text.length text ++ noteChecks (takeFrame h.link s) h.op p) = none := by
    have texts : firstRefusal (textChecks h.len text.length text) = none := by
      simpa [textChecks, isTextByte, short, fits] using printable
    have room' : roomForItem (takeFrame h.link s) p = true := roomForItem_eq (s := takeFrame h.link s) room
    have at_p : engagementOf (takeFrame h.link s) h.op = some (p, .holder) := held
    rw [firstRefusal_append texts]
    simp [noteChecks, definedCheck, holderCheck, at_p, isSome_operator?_of_engaged at_p, room', few, Config.noteCapacity]
  have quiet : Quiet [.positions, .journal, .links] (takeFrame h.link s) (addNote h.op p ⟨code, text⟩ (takeFrame h.link s)) :=
    quiet_addNote ..
  obtain ⟨here, others, entry, told⟩ := addNote_spec (s := takeFrame h.link s) h.op ⟨code, text⟩ room
  refine request_done rfl hp ((atConsole_console hl _ _).trans (judged_of_none checked _)) quiet fun t done => ?_
  have positions : t.positions = (addNote h.op p ⟨code, text⟩ (takeFrame h.link s)).positions := done.agrees .positions nofun
  exact ⟨by rw [positions]; exact here, done.announced _ told, done.replied, done.journaled entry,
    fun q hq => by rw [positions]; exact others q hq, done.lines, done.kept quiet.kept (by simp)⟩

end Sys2Proof.Machine
end

section
/-! PROOFS. Shift handover (chapter 7). -/

namespace Sys2Proof.Machine

/-- The position contexts after work that changed one of them. -/
theorem Served.desk {k : Kind} {h : Header} {a : Answer} {s u t : State} {p : Pos} {f : PosContext → PosContext}
    (d : Served k h a s u t) (positions : u.positions = (modPos p f (takeFrame h.link s)).positions) :
    t.positions.get p = f (s.positions.get p) ∧ OtherDesksKept p s t :=
  modPos_others (s := s) (t := t) (Eq.trans (d.agrees .positions nofun) positions)

theorem Expired.desk {s u t : State} {p : Pos} {f : PosContext → PosContext} (d : Expired s u t)
    (positions : u.positions = (modPos p f s).positions) : t.positions.get p = f (s.positions.get p) ∧ OtherDesksKept p s t :=
  modPos_others (Eq.trans (d.agrees .positions nofun) positions)

/-! ### The offer -/

/-- R121: the HANDOVER notices of a change. -/
theorem told_handoverNotices {p : Pos} {s : State} {holder incoming : Option Nat} (change : HandoverChange) (items : Nat)
    (reason : Option EndReason) (h1 : (s.positions.get p).holder = holder) (h2 : (s.positions.get p).incoming = incoming) :
    Told (atBoth p [.handover p change holder incoming items reason]) s (handoverNotices p change items reason s) := by
  subst h1 h2
  exact told_notifyBoth _ _ _

/-- An update of a position context and an entry, followed by HANDOVER notices. -/
theorem offer_spec (p : Pos) (incoming : Nat) (s : State) :
    let u := offer p incoming s
    let c := s.positions.get p
    u.positions = (modPos p (fun c => { c with incoming := some incoming, state := .offered, timer := some c.offerTimeout }) s).positions ∧
      Journaled [⟨.handoverOffered, some p, c.holder, none, incoming⟩] s u ∧
      Told (atBoth p [.handover p .offered c.holder (some incoming) 0 none]) s u := by
  intro u c
  generalize hv : append .handoverOffered (some p) c.holder none incoming
    (modPos p (fun c => { c with incoming := some incoming, state := .offered, timer := some c.offerTimeout }) s) = v
  have entry : Journaled [⟨.handoverOffered, some p, c.holder, none, incoming⟩] s v := hv ▸ ⟨rfl, rfl⟩
  have positions : v.positions = (modPos p (fun c => { c with incoming := some incoming, state := .offered, timer := some c.offerTimeout }) s).positions :=
    hv ▸ rfl
  have same : v.links = s.links ∧ v.millTime = s.millTime := hv ▸ ⟨rfl, rfl⟩
  obtain ⟨links, time⟩ := same
  obtain ⟨here, -⟩ := modPos_others positions
  have work : u = handoverNotices p .offered 0 none v := by
    rw [← hv]
    simp only [u, offer, modPos_get_self]
    rfl
  have told : Quiet [.links] v u := work ▸ quiet_handoverNotices ..
  refine ⟨Eq.trans (told.kept.agrees .positions (by simp)) positions, entry.before (.of_kept told.kept (by simp)) time, ?_⟩
  rw [work]
  exact Told.from_links (told_handoverNotices _ _ _ (by rw [here]) (by rw [here])) links

/-! ### The build of the items -/

theorem buildItems_numbered (s : State) (p : Pos) : Numbered (buildItems s p) := fun n hn => by
  simp [buildItems]

theorem buildItems_open (s : State) (p : Pos) : ∀ it ∈ buildItems s p, it.isOpen = true ∧ it.arrived = false := by
  intro it hit
  obtain ⟨n, hn, rfl⟩ := List.mem_mapIdx.1 hit
  exact ⟨rfl, rfl⟩

theorem buildItems_list (s : State) (p : Pos) : (buildItems s p).map (fun it => (it.kind, it.subject, it.count)) =
    ([1, 2, 3, 4].map fun n => (ItemKind.unack n, n, unackCount s p n)).filter (fun x => x.2.2 != 0) ++
      (if latchedCount s p = 0 then [] else [(ItemKind.latched, p.num, latchedCount s p)]) ++
      (if (s.loads.get p).flood then [(ItemKind.flood, p.num, (s.loads.get p).load)] else []) ++
      ((s.bypasses.filter fun e => areaOwner s e.2.area == p).map fun e => (ItemKind.bypass, e.1, e.2.interlock)) ++
      ((s.lists.get p).shelf.map fun e => (ItemKind.shelf, e.alarm, e.effective)) ++
      ((s.positions.get p).notes.zipIdx.map fun x => (ItemKind.note, x.2, x.1.code)) := by
  have fields : (buildItems s p).map (fun it => (it.kind, it.subject, it.count)) = buildList s p := by
    refine List.ext_getElem (by simp [buildItems]) fun n _ _ => ?_
    simp [buildItems]
  have latched : [(ItemKind.latched, p.num, latchedCount s p)].filter (fun x => x.2.2 != 0) =
      if latchedCount s p = 0 then [] else [(ItemKind.latched, p.num, latchedCount s p)] := by
    by_cases none : latchedCount s p = 0 <;> simp [none]
  rw [fields, buildList, List.filter_append, latched, List.mapIdx_eq_zipIdx_map]

/-- R130: the build reads no engagement, and of the contexts the notes alone. -/
theorem buildItems_congr {s t : State} {p : Pos} (h : Kept [.operators, .positions, .links] s t)
    (notes : (t.positions.get p).notes = (s.positions.get p).notes) : buildItems t p = buildItems s p := by
  have alarms : t.alarms = s.alarms := h.agrees .alarms (by simp)
  have lists : t.lists = s.lists := h.agrees .lists (by simp)
  have loads : t.loads = s.loads := h.agrees .loads (by simp)
  have areas : t.areas = s.areas := h.agrees .areas (by simp)
  have bypasses : t.bypasses = s.bypasses := h.agrees .bypasses (by simp)
  have before : entryBefore t = entryBefore s := by
    funext a b
    simp only [entryBefore, rankOf, priorityOf, alarmAt, alarm?, alarms]
  have overflow : overflowSet t p = overflowSet s p := by
    simp only [overflowSet, before, alarms, areaOwner, areas] <;> rfl
  simp only [buildItems, buildList, unackCount, latchedCount, overflow, priorityOf, alarmAt, alarm?, areaOwner, alarms,
    lists, loads, areas, bypasses, notes]

/-- R127: the context of a position whose offer is taken. -/
def takenContext (items : List Item) (c : PosContext) : PosContext :=
  { c with state := .review, items := items, timer := some c.reviewTimeout }

/-- R127: what a taken offer leaves. -/
theorem take_spec (o : Nat) (p : Pos) (s : State) :
    let u := take o p s
    let items := buildItems s p
    let c := s.positions.get p
    u.positions = (modPos p (takenContext items) s).positions ∧
      u.operators = (setEngagement o (some (p, .incoming)) s).operators ∧
      Journaled [⟨.handoverTaken, some p, some o, none, items.length⟩] s u ∧
      Told (atBoth p [.handover p .taken c.holder c.incoming items.length none]) s u := by
  intro u items c
  generalize hr : setEngagement o (some (p, .incoming)) (modPos p (fun c => { c with timer := none, state := .review }) s) = r
  have reviewed : Kept [.operators, .positions, .links] s r := hr ▸ ((quiet_modPos ..).kept.mono (by simp)).trans
    ((quiet_setEngagement ..).kept.mono (by simp))
  have desk : r.positions.get p = { c with timer := none, state := .review } := by
    rw [← hr]
    exact modPos_get_self p (fun c => { c with timer := none, state := .review }) s
  have built : buildItems r p = items := buildItems_congr reviewed (by rw [desk])
  generalize hv : append .handoverTaken (some p) (some o) none items.length
    (modPos p (fun c => { c with items := items, timer := some c.reviewTimeout }) r) = v
  have work : u = handoverNotices p .taken items.length none v := by
    rw [← hv, ← built, ← hr]; rfl
  have positions : v.positions = (modPos p (takenContext items) s).positions := by
    rw [← hv, ← hr]
    have twice := congrArg State.positions (modPos_modPos p (fun c => { c with timer := none, state := .review })
      (fun c => { c with items := items, timer := some c.reviewTimeout }) s)
    exact twice
  have same : v.links = s.links ∧ v.millTime = s.millTime ∧ v.operators = (setEngagement o (some (p, .incoming)) s).operators := by
    rw [← hv, ← hr]; exact ⟨rfl, rfl, rfl⟩
  obtain ⟨links, time, operators⟩ := same
  have entry : Journaled [⟨.handoverTaken, some p, some o, none, items.length⟩] s v := by
    rw [← hv, ← hr]; exact ⟨rfl, rfl⟩
  obtain ⟨here, -⟩ := modPos_others positions
  have told : Quiet [.links] v u := work ▸ quiet_handoverNotices ..
  refine ⟨Eq.trans (told.kept.agrees .positions (by simp)) positions, Eq.trans (told.kept.agrees .operators (by simp)) operators,
    entry.before (.of_kept told.kept (by simp)) time, ?_⟩
  rw [work]
  exact Told.from_links (told_handoverNotices _ _ _ (by rw [here]; rfl) (by rw [here]; rfl)) links

/-- Settles O56. -/
theorem anOfferAndATakeOpenTheReview : Obligations.AnOfferAndATakeOpenTheReview := by
  refine ⟨fun h p incoming s hp hl held staffed unrelieved known free => ?_,
    fun h p badge r s hp hl offered passes known named free level => ?_⟩
  · have checked : firstRefusal (offerChecks (takeFrame h.link s) h.op incoming p) = none := by
      have at_p : engagementOf (takeFrame h.link s) h.op = some (p, .holder) := held
      have known' : (operator? (takeFrame h.link s) incoming).isSome = true := known
      have free' : engagementOf (takeFrame h.link s) incoming = none := free
      simp [offerChecks, definedCheck, holderCheck, stateCheck, noReliefCheck, freeCheck, at_p, isSome_operator?_of_engaged at_p,
        staffed, unrelieved, known', free']
    have quiet : Quiet [.positions, .journal, .links] (takeFrame h.link s) (offer p incoming (takeFrame h.link s)) := quiet_offer ..
    obtain ⟨positions, entry, told⟩ := offer_spec p incoming (takeFrame h.link s)
    refine request_done rfl hp ((atConsole_console hl _ _).trans (judged_of_none checked _)) quiet fun t done => ?_
    obtain ⟨here, others⟩ := done.desk positions
    exact ⟨here, done.replied, done.journaled entry, done.announced _ told, others, done.lines, done.kept quiet.kept (by simp)⟩
  · have known' : operator? (takeFrame h.link s) h.op = some r := known
    have body : atConsole h (fun p s => badgeRequest [stateCheck s p .offered] h.op badge
        (fun s => [namedCheck s h.op p, freeCheck s h.op, staffingCheck s h.op p])
        (fun s => let t := take h.op p s; (t, doneWith (takeFields t p))) s) (takeFrame h.link s) =
        (take h.op p (badged h.op (takeFrame h.link s)), doneWith (takeFields (take h.op p (badged h.op (takeFrame h.link s))) p)) := by
      have free' : engagementOf (takeFrame h.link s) h.op = none := by rw [engagementOf, known']; exact free
      have low : levelOf (takeFrame h.link s) h.op ≤ (s.positions.get p).staffing := by rw [levelOf_eq known']; exact level
      have named' : ((badged h.op (takeFrame h.link s)).positions.get p).incoming = some h.op := named
      rw [atConsole_console hl]
      refine badgeRequest_passes (by simp [stateCheck, offered]) known' passes ?_
      simp [namedCheck, freeCheck, staffingCheck, named', engagementOf_badged, levelOf_badged, free']
      exact low
    have quiet : Quiet [.positions, .operators, .journal, .links] (takeFrame h.link s) (take h.op p (badged h.op (takeFrame h.link s))) :=
      ((quiet_badged ..).mono (by simp)).trans ((quiet_take ..).mono (by simp))
    obtain ⟨positions, operators, entry, told⟩ := take_spec h.op p (badged h.op (takeFrame h.link s))
    obtain ⟨desk, -⟩ := modPos_others positions
    have built : buildItems (badged h.op (takeFrame h.link s)) p = buildItems s p :=
      buildItems_congr (((kept_takeFrame ..).mono (by simp)).trans ((quiet_badged ..).kept.mono (by simp))) rfl
    rw [built] at positions entry told desk
    obtain ⟨t, next, done⟩ := serve_next_done hp body quiet
    obtain ⟨here, others⟩ := done.desk positions
    have operators' : t.operators = (setEngagement h.op (some (p, .incoming)) (badged h.op s)).operators :=
      Eq.trans (done.agrees .operators nofun) operators
    refine ⟨t, buildItems s p, next, here, buildItems_numbered s p, buildItems_open s p, buildItems_list s p,
      operator?_engaged known operators', ?_, done.journaled ?_, done.announced _ ?_, others, others_engaged operators', done.lines,
      done.kept quiet.kept (by simp)⟩
    · have replied := done.replied
      rw [takeFields, desk] at replied
      exact replied
    · exact Journaled.after (.of_kept (quiet_badged ..).kept (by simp)) entry rfl
    · have named' : ((badged h.op (takeFrame h.link s)).positions.get p).incoming = some h.op := named
      rw [named'] at told
      exact told.from_links rfl

/-! ### Confirmation -/

theorem confirmItems_eq (numbers : List Nat) (items : List Item) : confirmItems numbers items =
    items.map fun it => if it.number ∈ numbers ∧ it.isOpen = true then { it with confirmed := true } else it := by
  simp [confirmItems]

theorem isOpen_confirmed (numbers : List Nat) (it : Item) :
    (if numbers.contains it.number && it.isOpen then { it with confirmed := true } else it).isOpen =
      (it.isOpen && !numbers.contains it.number) := by
  split
  · rename_i h
    rw [Bool.and_eq_true] at h
    rw [h.1, h.2]
    rfl
  · rename_i h
    cases named : numbers.contains it.number <;> cases isOpen : it.isOpen <;> simp_all

/-- R139: the items that a confirmation closes are the named ones that were open. -/
theorem countP_confirmItems (numbers : List Nat) (items : List Item) :
    items.countP Item.isOpen - (confirmItems numbers items).countP Item.isOpen =
      items.countP fun it => it.isOpen && numbers.contains it.number := by
  have left : (confirmItems numbers items).countP Item.isOpen = items.countP fun it => it.isOpen && !numbers.contains it.number := by
    rw [confirmItems, List.countP_map]
    exact congrArg (items.countP ·) (funext (isOpen_confirmed numbers))
  have split := List.countP_eq_countP_filter_add items Item.isOpen fun it => numbers.contains it.number
  rw [List.countP_filter, List.countP_filter] at split
  omega

theorem operator?_kept {s t : State} {o q : Nat} (h : OtherOperatorsKept q s t) (other : o ≠ q) :
    operator? t o = operator? s o := by
  simp only [operator?, h o other]

/-! ### Acceptance -/

/-- R141: the context of a position whose handover is accepted. -/
def acceptedContext (o : Nat) (c : PosContext) : PosContext :=
  { c with state := .staffed, holder := some o, incoming := none, notes := [], items := [], timer := none }

/-- R141: what an acceptance leaves. -/
theorem accept_spec {o outgoing : Nat} {p : Pos} {s : State} {r : Operator} (known : operator? s o = some r)
    (engaged : r.engagement = some (p, .incoming)) (holder : (s.positions.get p).holder = some outgoing) (held : Holds s outgoing p)
    (wf : s.grants.wf = true) : let u := accept o p s
    u.positions = (modPos p (acceptedContext o) s).positions ∧ operator? u o = some { r with engagement := some (p, .holder) } ∧
      engagementOf u outgoing = none ∧ (∀ q, q ≠ o → q ≠ outgoing → u.operators.get? q = s.operators.get? q) ∧
      GrantsEnded (boundTemporary outgoing p) s u ∧
      Journaled (endedLines (boundTemporary outgoing p) s ++
        [⟨.handoverAccepted, some p, some o, none, (s.positions.get p).items.length⟩]) s u ∧
      Told (atBoth p [.handover p .accepted (some o) none (s.positions.get p).items.length none]) s u := by
  intro u
  have other : outgoing ≠ o := by
    rintro rfl
    have := held
    rw [Holds, engagementOf, known, Option.bind_some, engaged] at this
    cases this
  generalize hw : setEngagement o (some (p, .holder))
    (modPos p (fun c => { c with timer := none, holder := some o, incoming := none, state := .staffed }) s) = w
  have engagedAt : engagementOf w outgoing = some (p, .holder) := by
    have known' : (operator? (modPos p (fun c => { c with timer := none, holder := some o, incoming := none, state := .staffed }) s) o).isSome =
      true := Option.isSome_iff_exists.2 ⟨r, known⟩
    rw [← hw, engagementOf_setEngagement _ _ _ _ known', if_neg other]
    exact held
  have same : w.grants = s.grants ∧ w.millTime = s.millTime ∧ w.links = s.links := by rw [← hw]; exact ⟨rfl, rfl, rfl⟩
  obtain ⟨grants, time, links⟩ := same
  have began : Journaled [] s w := by rw [← hw]; exact ⟨rfl, rfl⟩
  have recorded : operator? w o = some { r with engagement := some (p, .holder) } :=
    operator?_modified (f := fun r => { r with engagement := some (p, .holder) }) (hw ▸ rfl) known
  have others : OtherOperatorsKept o s w := modOperator_others (f := fun r => { r with engagement := some (p, .holder) }) (hw ▸ rfl)
  obtain ⟨operatorsLeft, grantsLeft, linesLeft⟩ := release_spec engagedAt (by rw [grants]; exact wf)
  have released := quiet_release w outgoing
  have gone : engagementOf (release outgoing w) outgoing = none := by rw [engagementOf_release, if_pos rfl]
  have desks : (release outgoing w).positions = w.positions := release_positions ..
  generalize hx : release outgoing w = x at *
  generalize hv : append .handoverAccepted (some p) (some o) none (s.positions.get p).items.length
    (modPos p (fun c => { c with notes := [], items := [] }) x) = v
  have positions : v.positions = (modPos p (acceptedContext o) s).positions := by
    have twice := congrArg State.positions (modPos_modPos p
      (fun c => { c with timer := none, holder := some o, incoming := none, state := .staffed })
      (fun c => { c with notes := [], items := [] }) s)
    have after : v.positions = x.positions.set p { x.positions.get p with notes := [], items := [] } := hv ▸ rfl
    rw [after, desks, ← hw]
    exact twice
  have work : u = handoverNotices p .accepted (s.positions.get p).items.length none v := by
    have former : holderOf s p = outgoing := congrArg (Option.getD · 0) holder
    rw [← hv, ← hx, ← hw, ← former]
    rfl
  obtain ⟨here, -⟩ := modPos_others positions
  have told : Quiet [.links] v u := work ▸ quiet_handoverNotices ..
  have sameV : v.operators = x.operators ∧ v.grants = x.grants ∧ v.links = x.links := hv ▸ ⟨rfl, rfl, rfl⟩
  obtain ⟨operatorsV, grantsV, linksV⟩ := sameV
  have operatorsU : u.operators = x.operators := Eq.trans (told.kept.agrees .operators (by simp)) operatorsV
  have grantsU : u.grants = x.grants := Eq.trans (told.kept.agrees .grants (by simp)) grantsV
  refine ⟨Eq.trans (told.kept.agrees .positions (by simp)) positions, ?_, ?_, fun q hq hq' => ?_, fun n g => ?_, ?_, ?_⟩
  · rw [operator?_congr operatorsU, operator?_kept operatorsLeft (Ne.symm other), recorded]
  · rw [engagementOf_of_operators operatorsU, gone]
  · rw [operatorsU, operatorsLeft q hq', others q hq]
  · rw [grantsU, grantsLeft, grants]
  · rw [endedLines_congr _ grants] at linesLeft
    have ended : Journaled (endedLines (boundTemporary outgoing p) s) s x := began.after linesLeft time
    have sameTime : x.millTime = s.millTime := (released.kept.agrees .clock (by simp)).1.trans time
    have entry : Journaled [⟨.handoverAccepted, some p, some o, none, (s.positions.get p).items.length⟩] x v := hv ▸ ⟨rfl, rfl⟩
    have timeV : v.millTime = x.millTime := hv ▸ rfl
    exact (ended.trans entry sameTime).before (.of_kept told.kept (by simp)) (timeV.trans sameTime)
  · have sameLinks : v.links = s.links := linksV.trans (Eq.trans (released.kept.agrees .links (by simp)) links)
    rw [work]
    exact Told.from_links (told_handoverNotices _ _ _ (by rw [here]; rfl) (by rw [here]; rfl)) sameLinks

/-- Settles O57. -/
theorem confirmedItemsAllowTheAcceptance : Obligations.ConfirmedItemsAllowTheAcceptance := by
  refine ⟨fun h p numbers s hp hl some' few fits engaged known => ?_, fun h p outgoing r s hp hl known engaged confirmed covers allows
    holder held wf => ?_, fun h p it s hp hl engaged open' => ?_⟩
  · have at_p : engagementOf (takeFrame h.link s) h.op = some (p, .incoming) := engaged
    have checked : firstRefusal (confirmChecks (takeFrame h.link s) h.len h.op numbers.length numbers p) = none := by
      simp [confirmChecks, definedCheck, incomingCheck, some', few, fits, at_p, isSome_operator?_of_engaged at_p]
      exact fun n hn => decide_eq_true (known n hn)
    have quiet : Quiet [.positions, .links] (takeFrame h.link s)
        (modPos p (fun c => { c with items := confirmItems numbers (s.positions.get p).items }) (takeFrame h.link s)) :=
      (quiet_modPos ..).mono (by simp)
    obtain ⟨t, next, done⟩ := request_done (out := exec (.itemConfirm h numbers.length numbers) s) (P := Served .itemConfirm h _ s _)
      rfl hp ((atConsole_console hl _ _).trans (judged_of_none checked _)) quiet fun _ d => d
    obtain ⟨here, others⟩ := done.desk (f := fun c => { c with items := confirmItems numbers (s.positions.get p).items }) rfl
    have replied := done.replied
    rw [countP_confirmItems] at replied
    exact ⟨t, _, next, here, confirmItems_eq .., replied, others, done.lines, done.kept quiet.kept (by simp)⟩
  · have known' : operator? (takeFrame h.link s) h.op = some r := known
    have checked : firstRefusal (acceptChecks (takeFrame h.link s) h.op p) = none := by
      have at_p : engagementOf (takeFrame h.link s) h.op = some (p, .incoming) := by rw [engagementOf, known']; exact engaged
      have lowest : lowestOpen? ((takeFrame h.link s).positions.get p).items = none := by
        rw [lowestOpen?, List.find?_eq_none.2 fun it hit => by simp [confirmed it hit]]
        rfl
      have covered : uncovered? (takeFrame h.link s) (takeFrame h.link s).grants h.op p = none := uncovered?_eq_none.2 covers
      simp only [acceptChecks, lowest, firstRefusal_cons_eq_none, definedCheck, incomingCheck, coverageCheck, covered, known', at_p]
      simp [loadCheck]
      exact allows.imp_left decide_eq_true
    have quiet : Quiet [.positions, .operators, .grants, .journal, .links] (takeFrame h.link s) (accept h.op p (takeFrame h.link s)) :=
      (quiet_accept ..).mono (by simp)
    obtain ⟨positions, recorded, gone, others, grants, entries, told⟩ := accept_spec known' engaged holder held wf
    refine request_done rfl hp ((atConsole_console hl _ _).trans (judged_of_none checked _)) quiet fun t done => ?_
    obtain ⟨here, desks⟩ := done.desk positions
    have operators : t.operators = (accept h.op p (takeFrame h.link s)).operators := done.agrees .operators nofun
    have grants' : t.grants = (accept h.op p (takeFrame h.link s)).grants := done.agrees .grants nofun
    have replied := done.replied
    refine ⟨here, by rw [operator?_congr operators, recorded], by rw [engagementOf_of_operators operators, gone],
      fun n g => by rw [grants']; exact grants n g, ?_, done.journaled entries, done.announced _ told,
      fun o ho ho' => by rw [operators]; exact others o ho ho', desks, done.lines, done.kept quiet.kept (by simp)⟩
    rw [show ((takeFrame h.link s).positions.get p).holder = some outgoing from holder] at replied
    exact replied
  · have at_p : engagementOf (takeFrame h.link s) h.op = some (p, .incoming) := engaged
    have lowest : lowestOpen? (s.positions.get p).items = some it.number := by rw [lowestOpen?, open']; rfl
    have refused : firstRefusal (acceptChecks (takeFrame h.link s) h.op p) = some (.itemsOpen, it.number) := by
      simp [acceptChecks, firstRefusal, lowest, definedCheck, incomingCheck, at_p, isSome_operator?_of_engaged at_p]
    exact request_refused_silent rfl hp ((atConsole_console hl _ _).trans (judged_of_some refused _)) rfl
      fun t kept _ replied => ⟨replied, kept⟩

/-! ### The end without acceptance -/

/-- R122: the context of a position whose handover has ended. -/
def endedContext (c : PosContext) : PosContext :=
  ⟨.staffed, c.holder, none, c.staffing, c.offerTimeout, c.reviewTimeout, c.reliefLimit, c.holdTime, c.notes, c.relief,
    if c.state = .review then [] else c.items, none⟩

/-- R122: what the end of an offer leaves. -/
theorem endOffer_spec {p : Pos} {incoming : Nat} {s : State} (reason : EndReason) (ender : Option Nat)
    (offered : (s.positions.get p).state = .offered) (named : (s.positions.get p).incoming = some incoming) :
    let u := endHandover p reason ender s
    u.positions = (modPos p endedContext s).positions ∧ u.operators = s.operators ∧ u.grants = s.grants ∧
      Journaled [⟨.handoverEnded, some p, ender, none, endReasonCode reason * 256 + incoming⟩] s u ∧
      Told (atBoth p [.handover p .ended (s.positions.get p).holder none 0 (some reason)]) s u := by
  intro u
  generalize hv : append .handoverEnded (some p) ender none (endReasonCode reason * 256 + incoming)
    (modPos p (fun c => { c with timer := none, state := .staffed, incoming := none }) s) = v
  have work : u = handoverNotices p .ended 0 (some reason) v := by
    rw [← hv]
    simp [u, endHandover, offered, named, phaseCode]
  have positions : v.positions = (modPos p endedContext s).positions := by
    have same : (fun c : PosContext => { c with timer := none, state := .staffed, incoming := none }) (s.positions.get p) =
      endedContext (s.positions.get p) := by simp [endedContext, offered]
    rw [← hv]
    exact congrArg (s.positions.set p) same
  have entry : Journaled [⟨.handoverEnded, some p, ender, none, endReasonCode reason * 256 + incoming⟩] s v := hv ▸ ⟨rfl, rfl⟩
  have same : v.operators = s.operators ∧ v.grants = s.grants ∧ v.millTime = s.millTime ∧ v.links = s.links :=
    hv ▸ ⟨rfl, rfl, rfl, rfl⟩
  obtain ⟨operators, grants, time, links⟩ := same
  obtain ⟨here, -⟩ := modPos_others positions
  have told : Quiet [.links] v u := work ▸ quiet_handoverNotices ..
  refine ⟨Eq.trans (told.kept.agrees .positions (by simp)) positions, Eq.trans (told.kept.agrees .operators (by simp)) operators,
    Eq.trans (told.kept.agrees .grants (by simp)) grants, entry.before (.of_kept told.kept (by simp)) time, ?_⟩
  rw [work]
  exact Told.from_links (told_handoverNotices _ _ _ (by rw [here]; rfl) (by rw [here]; rfl)) links

/-- R122: what the end of a review leaves. -/
theorem endReview_spec {p : Pos} {incoming : Nat} {s : State} (reason : EndReason) (ender : Option Nat)
    (review : (s.positions.get p).state = .review) (named : (s.positions.get p).incoming = some incoming)
    (engaged : engagementOf s incoming = some (p, .incoming)) (wf : s.grants.wf = true) :
    let u := endHandover p reason ender s
    u.positions = (modPos p endedContext s).positions ∧ engagementOf u incoming = none ∧ OtherOperatorsKept incoming s u ∧
      GrantsEnded (boundTemporary incoming p) s u ∧
      Journaled (endedLines (boundTemporary incoming p) s ++
        [⟨.handoverEnded, some p, ender, none, endReasonCode reason * 256 + 128 + incoming⟩]) s u ∧
      Told (atBoth p [.handover p .ended (s.positions.get p).holder none 0 (some reason)]) s u := by
  intro u
  generalize hw : modPos p (fun c => { c with timer := none, state := .staffed, incoming := none }) s = w
  have same : w.operators = s.operators ∧ w.grants = s.grants ∧ w.millTime = s.millTime ∧ w.links = s.links :=
    hw ▸ ⟨rfl, rfl, rfl, rfl⟩
  obtain ⟨operators, grants, time, links⟩ := same
  have began : Journaled [] s w := hw ▸ ⟨rfl, rfl⟩
  obtain ⟨operatorsLeft, grantsLeft, linesLeft⟩ :=
    release_spec ((engagementOf_of_operators operators incoming).trans engaged) (by rw [grants]; exact wf)
  have released := quiet_release w incoming
  have gone : engagementOf (release incoming w) incoming = none := by rw [engagementOf_release, if_pos rfl]
  have desks : (release incoming w).positions = w.positions := release_positions ..
  generalize hx : release incoming w = x at *
  generalize hv : append .handoverEnded (some p) ender none (endReasonCode reason * 256 + 128 + incoming)
    (modPos p (fun c => { c with items := [] }) x) = v
  have work : u = handoverNotices p .ended 0 (some reason) v := by
    rw [← hv, ← hx, ← hw]
    simp [u, endHandover, review, named, phaseCode]
  have positions : v.positions = (modPos p endedContext s).positions := by
    have after : v.positions = x.positions.set p { x.positions.get p with items := [] } := hv ▸ rfl
    have twice := congrArg State.positions (modPos_modPos p
      (fun c => { c with timer := none, state := .staffed, incoming := none }) (fun c => { c with items := [] }) s)
    have same : (fun c : PosContext => { c with timer := none, state := .staffed, incoming := none, items := [] }) (s.positions.get p) =
      endedContext (s.positions.get p) := by simp [endedContext, review]
    rw [after, desks, ← hw]
    exact twice.trans (congrArg (s.positions.set p) same)
  obtain ⟨here, -⟩ := modPos_others positions
  have told : Quiet [.links] v u := work ▸ quiet_handoverNotices ..
  have sameV : v.operators = x.operators ∧ v.grants = x.grants ∧ v.links = x.links ∧ v.millTime = x.millTime := hv ▸ ⟨rfl, rfl, rfl, rfl⟩
  obtain ⟨operatorsV, grantsV, linksV, timeV⟩ := sameV
  have operatorsU : u.operators = x.operators := Eq.trans (told.kept.agrees .operators (by simp)) operatorsV
  have grantsU : u.grants = x.grants := Eq.trans (told.kept.agrees .grants (by simp)) grantsV
  refine ⟨Eq.trans (told.kept.agrees .positions (by simp)) positions, ?_, fun q hq => ?_, fun n g => ?_, ?_, ?_⟩
  · rw [engagementOf_of_operators operatorsU, gone]
  · rw [operatorsU, operatorsLeft q hq, operators]
  · rw [grantsU, grantsLeft, grants]
  · rw [endedLines_congr _ grants] at linesLeft
    have ended : Journaled (endedLines (boundTemporary incoming p) s) s x := began.after linesLeft time
    have sameTime : x.millTime = s.millTime := (released.kept.agrees .clock (by simp)).1.trans time
    have entry : Journaled [⟨.handoverEnded, some p, ender, none, endReasonCode reason * 256 + 128 + incoming⟩] x v := hv ▸ ⟨rfl, rfl⟩
    exact (ended.trans entry sameTime).before (.of_kept told.kept (by simp)) (timeV.trans sameTime)
  · have sameLinks : v.links = s.links := linksV.trans (Eq.trans (released.kept.agrees .links (by simp)) links)
    rw [work]
    exact Told.from_links (told_handoverNotices _ _ _ (by rw [here]; rfl) (by rw [here]; rfl)) sameLinks

/-- R122: the two phases in which a handover may end. -/
def InHandover (p : Pos) (incoming : Nat) (s : State) : Prop :=
  (s.positions.get p).incoming = some incoming ∧ s.grants.wf = true ∧ ((s.positions.get p).state = .offered ∨
    ((s.positions.get p).state = .review ∧ engagementOf s incoming = some (p, .incoming)))

/-- R122: a handover has gone once the links have come to rest. -/
theorem endHandover_gone {p : Pos} {incoming : Nat} {s r t : State} {reason : EndReason} {ender : Option Nat}
    (handover : InHandover p incoming r) (taken : Kept [.links] s r)
    (same : Kept [.links] (endHandover p reason ender r) t) (lines : LinesKept s t)
    (announced : ∀ told, Told told r (endHandover p reason ender r) → Announced told s t) :
    HandoverGone p incoming reason ender s t := by
  obtain ⟨named, wf, phase⟩ := handover
  have kept : Kept [.operators, .grants, .positions, .journal, .links] s t :=
    ((taken.mono (by simp)).trans (quiet_endHandover r p reason ender).kept).trans (same.mono (by simp))
  have positionsR : r.positions = s.positions := taken.agrees .positions (by simp)
  have operatorsR : r.operators = s.operators := taken.agrees .operators (by simp)
  have grantsR : r.grants = s.grants := taken.agrees .grants (by simp)
  have timeR : r.millTime = s.millTime := (taken.agrees .clock (by simp)).1
  have operators : t.operators = (endHandover p reason ender r).operators := same.agrees .operators (by simp)
  have grants : t.grants = (endHandover p reason ender r).grants := same.agrees .grants (by simp)
  have journaled {ls : List Line} (w : Journaled ls r (endHandover p reason ender r)) : Journaled ls s t := by
    have time := ((quiet_endHandover r p reason ender).kept.agrees .clock (by simp)).1
    exact (Journaled.after (.of_kept taken (by simp)) w timeR).before (.of_kept same (by simp)) (time.trans timeR)
  have desk {f : PosContext → PosContext} (h : (endHandover p reason ender r).positions = (modPos p f r).positions) :
      t.positions.get p = f (s.positions.get p) ∧ OtherDesksKept p s t :=
    modPos_others (Eq.trans (same.agrees .positions (by simp)) (h.trans (by rw [modPos, modPos, positionsR])))
  rw [positionsR] at named phase
  rcases phase with offered | ⟨review, engaged⟩
  · obtain ⟨positions, sameOperators, sameGrants, entry, told⟩ := endOffer_spec (s := r) reason ender (by rwa [positionsR]) (by rwa [positionsR])
    obtain ⟨here, others⟩ := desk positions
    rw [positionsR] at told
    refine ⟨here, fun _ => ⟨?_, ?_, journaled entry⟩, fun review => ?_, announced _ told, others, lines, kept⟩
    · rw [operators, sameOperators, operatorsR]
    · rw [grants, sameGrants, grantsR]
    · rw [offered] at review; cases review
  · obtain ⟨positions, gone, othersKept, ended, entries, told⟩ := endReview_spec (s := r) reason ender (by rwa [positionsR])
      (by rwa [positionsR]) engaged wf
    obtain ⟨here, others⟩ := desk positions
    rw [positionsR] at told
    rw [endedLines_congr _ grantsR] at entries
    refine ⟨here, fun offered => ?_, fun _ => ⟨?_, fun q hq => ?_, fun n g => ?_, journaled entries⟩, announced _ told, others, lines, kept⟩
    · rw [review] at offered; cases offered
    · rw [engagementOf_of_operators operators, gone]
    · rw [operators, othersKept q hq, operatorsR]
    · rw [grants, ended, grantsR]

/-- Settles O58. -/
theorem aHandoverEndsWithoutAcceptance : Obligations.AHandoverEndsWithoutAcceptance := by
  intro p incoming s named wf phase
  have open' : (s.positions.get p).state = .offered ∨ (s.positions.get p).state = .review := phase.imp_right And.left
  have code : phaseCode (s.positions.get p).state = if (s.positions.get p).state = .review then 1 else 0 := by
    rcases open' with h | h <;> rw [h] <;> rfl
  have handover (h : Header) : InHandover p incoming (takeFrame h.link s) := ⟨named, wf, phase⟩
  refine ⟨fun h hp hl party => ?_, fun h hp acts => ?_, fun timer offered => ?_, fun timer review => ?_⟩
  · have checked : firstRefusal [definedCheck (takeFrame h.link s) h.op, partyCheck (takeFrame h.link s) h.op p,
        handoverCheck (takeFrame h.link s) p] = none := by
      have known : (operator? (takeFrame h.link s) h.op).isSome = true := party.elim isSome_operator?_of_engaged isSome_operator?_of_engaged
      have party' : engagementOf (takeFrame h.link s) h.op = some (p, .holder) ∨ engagementOf (takeFrame h.link s) h.op = some (p, .incoming) := party
      simp [definedCheck, partyCheck, handoverCheck, known, party', open']
    refine request_done rfl hp ((atConsole_console hl _ _).trans (judged_of_none checked _)) (quiet_endHandover ..) fun t done => ?_
    refine ⟨endHandover_gone (handover h) (kept_takeFrame ..) done.same done.lines done.announced, ?_⟩
    rw [← code]
    exact done.replied
  · have checked : firstRefusal (positionCheck p.num :: supervisorChecks (takeFrame h.link s) h.op ++
        [handoverCheck (takeFrame h.link s) p]) = none := by
      have position : firstRefusal [positionCheck p.num] = none := by cases p <;> rfl
      rw [List.cons_append, ← List.singleton_append, firstRefusal_append position,
        firstRefusal_append (firstRefusal_supervisorChecks (s := takeFrame h.link s) acts)]
      simp [handoverCheck, open']
    have at_p : posOf p.num = p := by cases p <;> rfl
    refine request_done (out := exec (.handoverCancel h p.num) s) (es := [endedFields (takeFrame h.link s) p]) (g := false)
      rfl hp ?_ (quiet_endHandover _ p .cancelled (some h.op)) fun t done => ?_
    · simp only [at_p]
      exact judged_of_none checked _
    · refine ⟨endHandover_gone (handover h) (kept_takeFrame ..) done.same done.lines done.announced, ?_⟩
      rw [← code]
      exact done.replied
  · have due : handoverDue s p .offered = true := by simp [handoverDue, isDue, offered, timer]
    exact event_done (out := execOfferTimeout p s) rfl (if_pos due) (quiet_endHandover ..) fun t done =>
      ⟨endHandover_gone ⟨named, wf, phase⟩ (.refl ..) done.same done.lines done.announced, done.noReply⟩
  · have due : handoverDue s p .review = true := by simp [handoverDue, isDue, review, timer]
    exact event_done (out := execReviewTimeout p s) rfl (if_pos due) (quiet_endHandover ..) fun t done =>
      ⟨endHandover_gone ⟨named, wf, phase⟩ (.refl ..) done.same done.lines done.announced, done.noReply⟩

end Sys2Proof.Machine
end

section
/-! PROOFS. Relief cover (chapter 8): taking relief, returning and clearing. -/

namespace Sys2Proof.Machine

/-! ### Tables -/

/-- Two tables in canonical form that read alike are one. -/
theorem Table.ext_get? {α : Type} {t u : Table α} (ht : t.wf = true) (hu : u.wf = true) (h : ∀ n, t.get? n = u.get? n) :
    t = u := by
  have members (n : Nat) (x : α) : (n, x) ∈ t ↔ (n, x) ∈ u :=
    ⟨fun hm => Table.mem_of_get? ((h n).symm.trans (Table.get?_of_mem ht hm)),
      fun hm => Table.mem_of_get? ((h n).trans (Table.get?_of_mem hu hm))⟩
  rw [Table.wf_iff, List.pairwise_map] at ht hu
  have nodup {l : Table α} (hl : l.Pairwise fun a b => a.1 < b.1) : l.Nodup := hl.imp fun hab hne => by simp [hne] at hab
  have perm : t.Perm u := (List.perm_ext_iff_of_nodup (nodup ht) (nodup hu)).2 fun e => members e.1 e.2
  exact perm.eq_of_pairwise (fun a b _ _ hab hba => absurd hab (Nat.lt_asymm hba)) ht hu

theorem Table.wf_filter {α : Type} {t : Table α} (h : t.wf = true) (f : Nat × α → Bool) : Table.wf (t.filter f) = true := by
  rw [Table.wf_iff, List.pairwise_map] at h ⊢
  exact h.filter f

theorem Table.get?_filter {α : Type} {t : Table α} (h : t.wf = true) (f : α → Bool) (n : Nat) (x : α) :
    Table.get? (t.filter fun e => f e.2) n = some x ↔ t.get? n = some x ∧ f x = true := by
  refine ⟨fun hx => ?_, fun ⟨hx, fx⟩ => Table.get?_of_mem (Table.wf_filter h _) (List.mem_filter.2 ⟨Table.mem_of_get? hx, fx⟩)⟩
  obtain ⟨hm, fx⟩ := List.mem_filter.1 (Table.mem_of_get? hx)
  exact ⟨Table.get?_of_mem h hm, fx⟩

/-! ### Releases -/

/-- R65, R75: the grants that stand after some have ended. -/
theorem endGrants_grants {f : Grant → Bool} {s : State} (wf : s.grants.wf = true) :
    (endGrants f s).grants = s.grants.filter fun e => !f e.2 := by
  refine Table.ext_get? (endGrants_wf wf) (Table.wf_filter wf _) fun n => Option.ext fun g => ?_
  rw [endGrants_ended f s wf n g, Table.get?_filter wf fun g => !f g]
  simp

theorem grantsEnded_of_filter {f : Grant → Bool} {s t : State} (wf : s.grants.wf = true)
    (h : t.grants = s.grants.filter fun e => !f e.2) : GrantsEnded f s t := fun n g => by
  rw [h, Table.get?_filter wf fun g => !f g]
  simp

theorem endedLines_plain {f : Grant → Bool} {s : State} (h : ∀ e ∈ s.grants, f e.2 = false) : endedLines f s = [] := by
  rw [endedLines, List.filter_eq_nil_iff.2 fun e he => by simp [h e he]]
  rfl

/-- R66, R75: what a release leaves, whoever is released. -/
theorem release_general (o : Nat) {s : State} (wf : s.grants.wf = true) : OtherOperatorsKept o s (release o s) ∧
    (∀ q, (operator? (release o s) q).isSome = (operator? s q).isSome) ∧
    (∃ f : Grant → Bool, (∀ g, f g = true → g.temporary = true ∧ g.operator = o) ∧
      (release o s).grants = s.grants.filter fun e => !f e.2) ∧
    ((∀ e ∈ s.grants, e.2.temporary = false) → Journaled [] s (release o s)) := by
  cases engaged : engagementOf s o with
  | none =>
    have free : release o s = s := by simp [release, engaged]
    rw [free]
    exact ⟨fun _ _ => rfl, fun _ => rfl, ⟨fun _ => false, nofun, (List.filter_eq_self.2 fun _ _ => rfl).symm⟩, fun _ => .refl s⟩
  | some e =>
    obtain ⟨p, role⟩ := e
    obtain ⟨others, ended, lines⟩ := release_spec engaged wf
    refine ⟨others, fun q => ?_, ⟨boundTemporary o p, fun g hg => ?_, ?_⟩, fun h => ?_⟩
    · rw [release_eq engaged, operator?_congr (endGrants_operators ..), setEngagement, operator?_modOperator]
      split
      · subst q; exact Option.isSome_map
      · rfl
    · simp only [boundTemporary, Bool.and_eq_true, beq_iff_eq] at hg
      exact hg.1
    · rw [release_eq engaged]
      exact endGrants_grants (s := setEngagement o none s) wf
    · rwa [endedLines_plain fun e he => by simp [boundTemporary, h e he]] at lines

/-- The state after an entry. -/
def writeLine (e : Line) (s : State) : State := append e.kind e.position e.operator e.index e.detail s

/-- R151, R152: the operators `os` are released in order, each with its entry. -/
structure ReleasedInOrder (p : Pos) (line : Nat → Line) (os : List Nat) (s t : State) : Prop where
  operators : ∀ o ∉ os, t.operators.get? o = s.operators.get? o
  known : ∀ q, (operator? t q).isSome = (operator? s q).isSome
  subset : ∀ m g, t.grants.get? m = some g → s.grants.get? m = some g
  stand : ∀ m g, s.grants.get? m = some g → g.temporary = false ∨ g.operator ∉ os → t.grants.get? m = some g
  plain : (∀ e ∈ s.grants, e.2.temporary = false) → Journaled (os.map line) s t
  bound : os.Nodup → (∀ o ∈ os, ∃ role, engagementOf s o = some (p, role)) →
    (t.grants = s.grants.filter fun e => !os.any fun o => boundTemporary o p e.2) ∧
      Journaled (os.flatMap fun o => endedLines (boundTemporary o p) s ++ [line o]) s t

/-- R75: the grants of one operator that end are not those of another. -/
theorem endedLines_others {o q : Nat} {p : Pos} {s t : State} (other : q ≠ o)
    (h : t.grants = s.grants.filter fun e => !boundTemporary o p e.2) :
    endedLines (boundTemporary q p) t = endedLines (boundTemporary q p) s := by
  have kept (g : Grant) (hg : boundTemporary q p g = true) : (!boundTemporary o p g) = true := by
    simp only [boundTemporary, Bool.and_eq_true, beq_iff_eq] at hg
    simp [boundTemporary, hg.1.2, other]
  rw [endedLines, endedLines, h, List.filter_filter]
  refine congrArg (List.map _) (List.filter_congr fun e _ => ?_)
  cases hb : boundTemporary q p e.2
  · rfl
  · simp [kept e.2 hb]

theorem releasedInOrder (p : Pos) (line : Nat → Line) {work : State → Nat → State}
    (hw : ∀ s o, work s o = writeLine (line o) (release o s)) (os : List Nat) {s : State} (wf : s.grants.wf = true) :
    ReleasedInOrder p line os s (os.foldl work s) := by
  induction os generalizing s with
  | nil =>
    refine ⟨fun _ _ => rfl, fun _ => rfl, fun _ _ h => h, fun _ _ h _ => h, fun _ => .refl s, fun _ _ => ⟨?_, .refl s⟩⟩
    exact (List.filter_eq_self.2 fun _ _ => rfl).symm
  | cons o os ih =>
    obtain ⟨others, known, ⟨f, own, grants⟩, plain⟩ := release_general o wf
    have first : work s o = writeLine (line o) (release o s) := hw s o
    have entry : Journaled [line o] (release o s) (work s o) := first ▸ ⟨rfl, rfl⟩
    have same : (work s o).operators = (release o s).operators ∧ (work s o).grants = (release o s).grants ∧
        (work s o).millTime = s.millTime := by
      rw [first]
      exact ⟨rfl, rfl, ((quiet_release s o).kept.agrees .clock (by simp)).1⟩
    obtain ⟨operators', grants', time⟩ := same
    have released : (release o s).millTime = s.millTime := ((quiet_release s o).kept.agrees .clock (by simp)).1
    have rest := ih (s := work s o) (by rw [grants']; exact release_wf wf)
    have sub (m : Nat) (g : Grant) : (work s o).grants.get? m = some g ↔ s.grants.get? m = some g ∧ f g = false := by
      rw [grants', grants, Table.get?_filter wf fun g => !f g]
      simp
    refine ⟨fun q hq => ?_, fun q => ?_, fun m g hg => ((sub m g).1 (rest.subset m g hg)).1, fun m g hg stands => ?_, fun permanent => ?_,
      fun distinct engaged => ?_⟩
    · rw [List.mem_cons, not_or] at hq
      rw [List.foldl_cons, rest.operators q hq.2, operators', others q hq.1]
    · rw [List.foldl_cons, rest.known, operator?_congr operators', known]
    · refine rest.stand m g ((sub m g).2 ⟨hg, ?_⟩) (stands.imp_right fun h => (List.mem_cons.not.1 h |> not_or.1).2)
      by_contra ends
      obtain ⟨temporary, named⟩ := own g (by simpa using ends)
      rcases stands with h | h
      · simp [h] at temporary
      · simp [named] at h
    · have later : ∀ e ∈ (work s o).grants, e.2.temporary = false := fun e he => by
        rw [grants', grants] at he
        exact permanent e (List.mem_filter.1 he).1
      have began : Journaled [line o] s (work s o) := (plain permanent).after entry released
      exact began.trans (rest.plain later) time
    · obtain ⟨apart, distinct'⟩ := List.nodup_cons.1 distinct
      obtain ⟨role, at_p⟩ := engaged o List.mem_cons_self
      obtain ⟨-, -, lines⟩ := release_spec at_p wf
      have ended : (work s o).grants = s.grants.filter fun e => !boundTemporary o p e.2 := by
        rw [grants', release_eq at_p]
        exact endGrants_grants (s := setEngagement o none s) wf
      have later : ∀ q ∈ os, ∃ role, engagementOf (work s o) q = some (p, role) := fun q hq => by
        have other : q ≠ o := fun h => apart (h ▸ hq)
        rw [engagementOf_of_operators operators', engagementOf_release, if_neg other]
        exact engaged q (List.mem_cons_of_mem _ hq)
      obtain ⟨grantsLeft, linesLeft⟩ := rest.bound distinct' later
      refine ⟨?_, ?_⟩
      · rw [List.foldl_cons, grantsLeft, ended, List.filter_filter]
        refine List.filter_congr fun e _ => ?_
        simp [Bool.and_comm]
      · have began : Journaled (endedLines (boundTemporary o p) s ++ [line o]) s (work s o) := lines.trans entry released
        have same : (os.flatMap fun q => endedLines (boundTemporary q p) (work s o) ++ [line q]) =
            os.flatMap fun q => endedLines (boundTemporary q p) s ++ [line q] := by
          refine List.flatMap_congr fun q hq => ?_
          have other : q ≠ o := fun h => apart (h ▸ hq)
          rw [endedLines_others other ended]
        rw [same] at linesLeft
        exact began.trans linesLeft time

/-! ### RELIEF_CLEAR and the relief limit -/

theorem Released.unengaged {os : List Nat} {s t : State} (h : Released os s t) {o : Nat} (ho : o ∈ os) :
    engagementOf t o = none := by
  rw [h.engagement, if_pos ho]

/-- R147: what the expiry of a relief limit leaves. -/
theorem expireRelief_spec (p : Pos) (n : Nat) {f : ReliefFrame} (due : f.remaining = 0) (s : State) :
    let u := expireRelief p n f s
    u.positions = (modPos p (fun c => { c with relief := c.relief.set n { f with overdue := true } }) s).positions ∧
      Journaled [⟨.reliefOverdue, some p, some f.operator, none, n⟩] s u ∧
      Told (atBoth p [.reliefOverdue p n f.operator f.start (s.positions.get p).holder]) s u := by
  intro u
  generalize hv : append .reliefOverdue (some p) (some f.operator) none n
    (modPos p (fun c => { c with relief := c.relief.set n { f with overdue := true } }) s) = v
  have entry : Journaled [⟨.reliefOverdue, some p, some f.operator, none, n⟩] s v := hv ▸ ⟨rfl, rfl⟩
  have positions : v.positions = (modPos p (fun c => { c with relief := c.relief.set n { f with overdue := true } }) s).positions :=
    hv ▸ rfl
  have same : v.links = s.links ∧ v.millTime = s.millTime := hv ▸ ⟨rfl, rfl⟩
  obtain ⟨links, time⟩ := same
  obtain ⟨here, -⟩ := modPos_others positions
  have work : u = notifyBoth p (.reliefOverdue p n f.operator f.start (v.positions.get p).holder) v := by
    have same : ({ f with overdue := true, remaining := 0 } : ReliefFrame) = { f with overdue := true } := by rw [← due]
    rw [← hv, ← same]; rfl
  have told : Quiet [.links] v u := work ▸ quiet_notifyBoth ..
  refine ⟨Eq.trans (told.kept.agrees .positions (by simp)) positions, entry.before (.of_kept told.kept (by simp)) time, ?_⟩
  rw [work, here]
  exact Told.from_links (told_notifyBoth _ _ v) links

/-- Settles O60. -/
theorem reliefIsClearedAndFallsOverdue : Obligations.ReliefIsClearedAndFallsOverdue := by
  refine ⟨fun h p s hp acts some' wf => ?_, fun p n f s found due current => ?_⟩
  · have at_p : posOf p.num = p := by cases p <;> rfl
    have checked : firstRefusal (positionCheck p.num :: supervisorChecks (takeFrame h.link s) h.op ++
        [⟨!((takeFrame h.link s).positions.get p).relief.isEmpty, .badState, p.num⟩]) = none := by
      have position : firstRefusal [positionCheck p.num] = none := by cases p <;> rfl
      rw [List.cons_append, ← List.singleton_append, firstRefusal_append position,
        firstRefusal_append (firstRefusal_supervisorChecks (s := takeFrame h.link s) acts)]
      simpa using some'
    generalize ho : (s.positions.get p).relief.reverse.map (·.operator) = os
    have mem (o : Nat) : o ∈ os ↔ ∃ f ∈ (s.positions.get p).relief, f.operator = o := by rw [← ho]; simp
    have ordered := releasedInOrder p (fun o => ⟨.reliefCleared, some p, some o, none, h.op⟩) (work := clearRelease p h.op)
      (fun _ _ => rfl) os (s := takeFrame h.link s) wf
    have released := released_foldl (released_clearRelease p h.op) (takeFrame h.link s) os
    have work : clearRelief p h.op (takeFrame h.link s) =
        modPos p (fun c => { c with relief := [] }) (os.foldl (clearRelease p h.op) (takeFrame h.link s)) := by rw [← ho]; rfl
    have quiet : Quiet [.positions, .operators, .grants, .journal, .links] (takeFrame h.link s) (clearRelief p h.op (takeFrame h.link s)) :=
      (quiet_clearRelief ..).mono (by simp)
    obtain ⟨t, next, done⟩ := request_done (out := exec (.reliefClear h p.num) s) (P := Served .reliefClear h _ s _)
      (es := [bePos p ++ be16 (s.positions.get p).relief.length ++ beOperator (s.positions.get p).holder]) (g := false)
      rfl hp (by simp only [at_p]; exact judged_of_none checked _) quiet fun _ d => d
    rw [work] at done quiet
    generalize os.foldl (clearRelease p h.op) (takeFrame h.link s) = x at *
    obtain ⟨here, others⟩ := done.desk (f := fun c => { c with relief := [] }) (by rw [modPos, released.positions]; rfl)
    have operators : t.operators = x.operators := done.agrees .operators nofun
    have grants : t.grants = x.grants := done.agrees .grants nofun
    have journaled {ls : List Line} (w : Journaled ls (takeFrame h.link s) x) : Journaled ls s t := done.journaled ⟨w.1, w.2⟩
    refine ⟨t, next, here, fun f hf => ?_, fun o ho => ?_, fun m g hg => ?_, fun m g hg stands => ?_, done.replied, fun permanent => ?_,
      fun distinct engaged => ?_, others, done.lines, done.kept quiet.kept (by simp)⟩
    · rw [engagementOf_of_operators operators]
      exact released.unengaged ((mem _).2 ⟨f, hf, rfl⟩)
    · rw [operators, ordered.operators o fun hm => ((mem o).1 hm).elim fun f hf => ho f hf.1 hf.2]
      rfl
    · exact ordered.subset m g (grants ▸ hg)
    · rw [grants]
      exact ordered.stand m g hg (stands.imp_right fun h hm => ((mem _).1 hm).elim fun f hf => h f hf.1 hf.2)
    · have entries := journaled (ordered.plain permanent)
      rw [← ho, List.map_map] at entries
      exact entries
    · obtain ⟨left, entries⟩ := ordered.bound (by rw [← ho, List.map_reverse, List.nodup_reverse]; exact distinct)
        fun o hm => ((mem o).1 hm).elim fun f hf => hf.2 ▸ engaged f hf.1
      have entries' := journaled entries
      rw [← ho, List.flatMap_map] at entries'
      refine ⟨grantsEnded_of_filter wf ?_, entries'⟩
      rw [grants, left, ← ho]
      simp only [List.any_map, List.any_reverse]
      rfl
  · have isDue : dueFrame? s p n = some f := by simp [dueFrame?, found, due, current]
    have quiet : Quiet [.positions, .journal, .links] s (expireRelief p n f s) := quiet_expireRelief ..
    obtain ⟨positions, entry, told⟩ := expireRelief_spec p n due s
    refine event_done (out := execReliefLimitExpiry p n s) rfl (by simp only [isDue]) quiet fun t done => ?_
    obtain ⟨here, others⟩ := done.desk positions
    exact ⟨here, done.journaled entry, done.announced _ told, others, done.noReply, done.lines, done.kept quiet.kept (by simp)⟩

/-! ### RELIEF_TAKE and RELIEF_RETURN -/

/-- R149: the context of a position whose relief is taken. -/
def relievedContext (o former : Nat) (now : Word) (c : PosContext) : PosContext :=
  { c with holder := some o, relief := c.relief ++ [⟨former, now, c.reliefLimit, false⟩] }

/-- R149: what the taking of relief leaves. -/
theorem takeRelief_spec {o former : Nat} {p : Pos} {s : State} {r f : Operator} (holder : (s.positions.get p).holder = some former)
    (other : former ≠ o) (known : operator? s o = some r) (knownFormer : operator? s former = some f) :
    let u := takeRelief o p s
    u.positions = (modPos p (relievedContext o former s.millTime) s).positions ∧
      operator? u o = some { r with engagement := some (p, .holder) } ∧
      operator? u former = some { f with engagement := some (p, .stacked) } ∧
      (∀ q, q ≠ o → q ≠ former → u.operators.get? q = s.operators.get? q) ∧
      Journaled [⟨.reliefTaken, some p, some o, none, former⟩] s u := by
  intro u
  have at_p : holderOf s p = former := congrArg (Option.getD · 0) holder
  generalize hv : setEngagement former (some (p, .stacked)) s = v
  have operators : u.operators = (setEngagement o (some (p, .holder)) v).operators := by rw [← hv, ← at_p]; rfl
  have knownV : operator? v o = some r := by
    rw [← hv, setEngagement, operator?_modOperator, if_neg (Ne.symm other), known]
  have formerV : operator? v former = some { f with engagement := some (p, .stacked) } :=
    operator?_modified (f := fun r => { r with engagement := some (p, .stacked) }) (hv ▸ rfl) knownFormer
  refine ⟨?_, operator?_modified operators knownV, ?_, fun q hq hq' => ?_, ?_⟩
  · have twice := congrArg State.positions (modPos_modPos p
      (fun c => { c with relief := c.relief ++ [⟨former, s.millTime, c.reliefLimit, false⟩] }) (fun c => { c with holder := some o }) s)
    subst at_p
    exact twice
  · rw [operator?_kept (modOperator_others operators) other, formerV]
  · rw [modOperator_others operators q hq, ← hv]
    exact Table.get?_modify_ne _ _ hq'
  · subst at_p
    exact ⟨rfl, rfl⟩

/-- R151: the frame that names an operator is the lowest such frame. -/
theorem frameOf?_eq {s : State} {p : Pos} {o n : Nat} {frame : ReliefFrame} (found : (s.positions.get p).relief[n]? = some frame)
    (named : frame.operator = o) (lower : ∀ m x, m < n → (s.positions.get p).relief[m]? = some x → x.operator ≠ o) :
    frameOf? s p o = n := by
  obtain ⟨hn, at_n⟩ := List.getElem?_eq_some_iff.1 found
  rw [frameOf?, List.findIdx_eq hn]
  refine ⟨by simp [at_n, named], fun m hm => ?_⟩
  simpa using lower m _ hm (List.getElem?_eq_getElem (Nat.lt_trans hm hn))

/-- R151: the context of a position whose relief has returned. -/
def returnedContext (o n : Nat) (c : PosContext) : PosContext := { c with holder := some o, relief := c.relief.take n }

/-- R151: what a return leaves. -/
theorem returnRelief_eq {o holder n : Nat} {p : Pos} {s : State} {frame : ReliefFrame} (at_n : frameOf? s p o = n)
    (found : (s.positions.get p).relief[n]? = some frame) (held : (s.positions.get p).holder = some holder) :
    returnRelief o p s = setEngagement o (some (p, .holder)) (modPos p (returnedContext o n)
      ((holder :: ((s.positions.get p).relief.drop (n + 1)).reverse.map (·.operator)).foldl
        (returnRelease p (o + if frame.overdue then 32768 else 0)) s)) := by
  have overdue : frameOverdue s p n = frame.overdue := by rw [frameOverdue, found]; rfl
  have former : holderOf s p = holder := congrArg (Option.getD · 0) held
  simp only [returnRelief, at_n, overdue, returnReleased, former]
  rfl

/-- Settles O59. -/
theorem reliefIsTakenAndReturned : Obligations.ReliefIsTakenAndReturned := by
  refine ⟨fun h p badge former r f s hp hl staffed passes may room allows holder other known knownFormer => ?_,
    fun h p badge holder n frame s hp hl passes found named lower covers level held wf => ?_⟩
  · have known' : operator? (takeFrame h.link s) h.op = some r := known
    have body : atConsole h (fun p s => badgeRequest [stateCheck s p .staffed] h.op badge
        (fun s => takeDeskChecks s h.op p ++ reliefConditions s h.op p)
        (fun s => (takeRelief h.op p s, doneWith (reliefTakenFields s p))) s) (takeFrame h.link s) =
        (takeRelief h.op p (badged h.op (takeFrame h.link s)), doneWith (reliefTakenFields (badged h.op (takeFrame h.link s)) p)) := by
      rw [atConsole_console hl]
      refine badgeRequest_passes (by simp [stateCheck, staffed]) known' passes ?_
      rw [firstRefusal_append (firstRefusal_takeDeskChecks (s := takeFrame h.link s) may)]
      simp [reliefConditions, loadCheck]
      exact ⟨Nat.le_of_lt_succ room, allows⟩
    have quiet : Quiet [.positions, .operators, .journal, .links] (takeFrame h.link s) (takeRelief h.op p (badged h.op (takeFrame h.link s))) :=
      ((quiet_badged ..).mono (by simp)).trans ((quiet_takeRelief ..).mono (by simp))
    have knownB : operator? (badged h.op (takeFrame h.link s)) h.op = some { r with failures := 0 } := operator?_modified rfl known'
    have formerB : operator? (badged h.op (takeFrame h.link s)) former = some f :=
      (operator?_kept (s := takeFrame h.link s) (modOperator_others (f := fun r => { r with failures := 0 }) rfl) other).trans knownFormer
    obtain ⟨positions, recorded, stacked, others, entry⟩ := takeRelief_spec (s := badged h.op (takeFrame h.link s)) holder other knownB formerB
    refine request_done rfl hp body quiet fun t done => ?_
    obtain ⟨here, desks⟩ := done.desk positions
    have operators : t.operators = (takeRelief h.op p (badged h.op (takeFrame h.link s))).operators := done.agrees .operators nofun
    refine ⟨here, by rw [operator?_congr operators, recorded], by rw [operator?_congr operators, stacked], ?_, done.journaled ?_,
      fun o ho ho' => ?_, desks, done.lines, done.kept quiet.kept (by simp)⟩
    · have replied := done.replied
      have at_p : holderOf (badged h.op (takeFrame h.link s)) p = former := congrArg (Option.getD · 0) holder
      rw [reliefTakenFields, at_p] at replied
      exact replied
    · exact Journaled.after (.of_kept (quiet_badged ..).kept (by simp)) entry rfl
    · rw [operators, others o ho ho']
      exact Table.get?_modify_ne _ _ ho
  · obtain ⟨r, known⟩ : ∃ r, operator? s h.op = some r := by
      rw [← Option.isSome_iff_exists]
      by_contra unknown
      rw [Option.not_isSome_iff_eq_none] at unknown
      simp [BadgePasses, unknown] at passes
    have known' : operator? (takeFrame h.link s) h.op = some r := known
    have checked : firstRefusal (returnChecks (badged h.op (takeFrame h.link s)) h.op p) = none := by
      have stacked : ((badged h.op (takeFrame h.link s)).positions.get p).relief.any (fun f => f.operator == h.op) = true :=
        List.any_eq_true.2 ⟨frame, List.mem_of_getElem? found, by simp [named]⟩
      have covered : uncovered? (badged h.op (takeFrame h.link s)) (badged h.op (takeFrame h.link s)).grants h.op p = none := covers
      have low : levelOf (badged h.op (takeFrame h.link s)) h.op ≤ ((badged h.op (takeFrame h.link s)).positions.get p).staffing := by
        rw [levelOf_badged]; exact level
      simp [returnChecks, stackedCheck, coverageCheck, staffingCheck, stacked, covered, low]
    have body : atConsole h (fun p s => badgeRequest [] h.op badge (fun s => returnChecks s h.op p)
        (fun s => (returnRelief h.op p s, doneWith (returnFields s h.op p))) s) (takeFrame h.link s) =
        (returnRelief h.op p (badged h.op (takeFrame h.link s)), doneWith (returnFields (badged h.op (takeFrame h.link s)) h.op p)) := by
      rw [atConsole_console hl]
      exact badgeRequest_passes rfl known' passes checked
    have quiet : Quiet [.positions, .operators, .grants, .journal, .links] (takeFrame h.link s)
        (returnRelief h.op p (badged h.op (takeFrame h.link s))) :=
      ((quiet_badged ..).mono (by simp)).trans ((quiet_returnRelief ..).mono (by simp))
    have at_n : frameOf? (badged h.op (takeFrame h.link s)) p h.op = n := frameOf?_eq found named lower
    obtain ⟨os, ho⟩ : ∃ os, os = holder :: ((s.positions.get p).relief.drop (n + 1)).reverse.map (·.operator) := ⟨_, rfl⟩
    have work : returnRelief h.op p (badged h.op (takeFrame h.link s)) = setEngagement h.op (some (p, .holder))
        (modPos p (returnedContext h.op n) (os.foldl (returnRelease p (h.op + if frame.overdue then 32768 else 0))
          (badged h.op (takeFrame h.link s)))) := ho ▸ returnRelief_eq (s := badged h.op (takeFrame h.link s)) at_n found held
    have fields : returnFields (badged h.op (takeFrame h.link s)) h.op p = bePos p ++ be8 h.op ++ be16 os.length ++ be16 n := by
      have former : holderOf (badged h.op (takeFrame h.link s)) p = holder := congrArg (Option.getD · 0) held
      rw [returnFields, at_n, ho, returnReleased, former]; rfl
    obtain ⟨t, next, done⟩ := serve_next_done hp body quiet
    rw [work] at done quiet
    rw [fields] at done
    have ordered := releasedInOrder p (fun o => ⟨.reliefReturned, some p, some o, none, h.op + if frame.overdue then 32768 else 0⟩)
      (work := returnRelease p (h.op + if frame.overdue then 32768 else 0)) (fun _ _ => rfl) os (s := badged h.op (takeFrame h.link s)) wf
    have released := released_foldl (released_returnRelease p (h.op + if frame.overdue then 32768 else 0))
      (badged h.op (takeFrame h.link s)) os
    generalize os.foldl (returnRelease p (h.op + if frame.overdue then 32768 else 0)) (badged h.op (takeFrame h.link s)) = x
      at done quiet ordered released
    obtain ⟨here, others⟩ := done.desk (f := returnedContext h.op n)
      (by rw [setEngagement, modOperator, modPos, released.positions]; rfl)
    have operators : t.operators = (setEngagement h.op (some (p, .holder)) x).operators := done.agrees .operators nofun
    have grants : t.grants = x.grants := done.agrees .grants nofun
    have defined : (operator? x h.op).isSome = true := by
      rw [ordered.known, operator?_modified (t := badged h.op (takeFrame h.link s)) rfl known']; rfl
    have journaled {ls : List Line} (w : Journaled ls (badged h.op (takeFrame h.link s)) x) : Journaled ls s t :=
      done.journaled (Journaled.after (.of_kept (quiet_badged ..).kept (by simp)) ⟨w.1, w.2⟩ rfl)
    refine ⟨t, os, next, ho, here, ?_, fun o hm other => ?_, fun o other hm => ?_, fun m g hg => ?_, fun m g hg stands => ?_, done.replied,
      fun permanent => journaled (ordered.plain permanent), fun distinct engaged => ?_, others, done.lines, done.kept quiet.kept (by simp)⟩
    · rw [engagementOf_of_operators operators, engagementOf_setEngagement _ _ _ _ defined, if_pos rfl]
    · rw [engagementOf_of_operators operators, engagementOf_setEngagement _ _ _ _ defined, if_neg other]
      exact released.unengaged hm
    · rw [modOperator_others operators o other, ordered.operators o hm]
      exact Table.get?_modify_ne _ _ other
    · exact ordered.subset m g (grants ▸ hg)
    · rw [grants]
      exact ordered.stand m g hg stands
    · obtain ⟨left, entries⟩ := ordered.bound distinct fun o hm => by rw [engagementOf_badged]; exact engaged o hm
      exact ⟨grantsEnded_of_filter wf (grants.trans left), journaled entries⟩

end Sys2Proof.Machine
end

section
/-! PROOFS. Alarm definitions, the horn and the latch: requests that move no alarm between the lists. -/

namespace Sys2Proof.Machine

/-! ### Definitions -/

/-- R2: the fields of a definition as stored. -/
theorem storedDefinition_fields {f : AlarmFields} {cls : AlarmClass} (known : classOf? f.cls = some cls) (inService : Bool) :
    let d := storedDefinition f inService
    (d.area = f.area ∧ d.priority = f.priority ∧ d.cls = cls ∧ d.ackLevel = f.ackLevel ∧
      d.group = (if cls = .safety then 0 else f.group) ∧ d.shelvable = (if cls = .safety then false else f.shelvable != 0) ∧
      d.maxShelve = max 60 (min 28800 f.maxShelve) ∧ d.reminder = max 30 (min 3600 f.reminder) ∧
      d.escalation = min 15 f.escalation) ∧ d.inService = inService := by
  simp [storedDefinition, known, clamp_eq]

/-- Settles O32. -/
theorem defineAlarmStoresTheDefinition : Obligations.DefineAlarmStoresTheDefinition := by
  intro h f cls s hp index area p1 p4 known level group open'
  have checked : firstRefusal (⟨decide (f.index ≤ Config.maxAlarmIndex), .unknownIndex, f.index⟩ :: alarmRanges f ++
      [⟨!isDefined (takeFrame h.link s) f.index || redefinable (takeFrame h.link s) f.index, .badState, f.index⟩]) = none := by
    have standing : (!isDefined s f.index || redefinable s f.index) = true := by
      cases present : alarm? s f.index with
      | none => simp [isDefined, present]
      | some a =>
        have at_index := alarmAt_eq present
        rcases open' a present with start | ⟨shelved, calm⟩
        · simp [redefinable, start]
        · simp [redefinable, at_index, shelved, calm]
    have standing' : (!isDefined (takeFrame h.link s) f.index || redefinable (takeFrame h.link s) f.index) = true := standing
    simp [alarmRanges, Config.maxAlarmIndex, index, area, p1, p4, known, level, group, standing']
  generalize ha : definedAlarm f (s.runState == .unconfigured) (alarm? s f.index) = a
  have quiet : Quiet [.alarms, .links] (takeFrame h.link s)
      { takeFrame h.link s with alarms := (takeFrame h.link s).alarms.insert f.index a } := (quiet_alarms ..).mono (by simp)
  obtain ⟨t, next, done⟩ := request_done (out := exec (.defineAlarm h f) s) (P := Served .defineAlarm h _ s _)
    (es := [definitionMarks f a.defn]) (g := false) rfl hp ((judged_of_none checked _).trans (by rw [← ha]; rfl)) quiet fun _ d => d
  have alarms : t.alarms = s.alarms.insert f.index a := done.agrees .alarms nofun
  refine ⟨t, a, next, by rw [alarm?, alarms, Table.get?_insert_self], ?_, fun fresh => ?_, fun b present start => ?_,
    fun b present later => ?_, done.replied, fun j hj => by rw [alarm?, alarms, Table.get?_insert_ne _ _ hj]; rfl, done.lines,
    done.kept quiet.kept (by simp)⟩
  · obtain ⟨inService, defn⟩ : ∃ b, a.defn = storedDefinition f b := by
      subst ha
      unfold definedAlarm
      split
      · exact ⟨_, rfl⟩
      · split <;> exact ⟨_, rfl⟩
    rw [defn]
    exact (storedDefinition_fields known inService).1
  · rw [← ha, fresh, definedAlarm]
    refine ⟨(storedDefinition_fields known _).2, ?_⟩
    by_cases out : f.inService = 0 <;> simp [newRecord, out]
  · rw [← ha, present, definedAlarm, start, beq_self_eq_true, if_pos rfl]
    refine ⟨(storedDefinition_fields known _).2, ?_⟩
    by_cases out : f.inService = 0 <;> simp [AlarmDyn.enter, out]
  · rw [← ha, present, definedAlarm, beq_eq_false_iff_ne.2 later, if_neg Bool.false_ne_true]
    exact ⟨(storedDefinition_fields known _).2, rfl⟩

/-! ### The horn -/

/-- R43: the lists after the horn line is judged. -/
theorem judgeHorn_lists (p q : Pos) (s : State) : (judgeHorn p s).lists.get q =
    if q = p then { s.lists.get p with horn := hornSounds s p } else s.lists.get q := by
  simp only [judgeHorn]
  by_cases same : hornSounds s p = (s.lists.get p).horn
  · rw [if_pos same]
    by_cases hq : q = p
    · rw [if_pos hq, hq, same]
    · rw [if_neg hq]
  · rw [if_neg same]
    exact modLists_get p q (fun v => { v with horn := hornSounds s p }) s

/-- Settles O41. -/
theorem silenceQuietensTheHorn : Obligations.SilenceQuietensTheHorn := by
  intro h p s hp hl held
  have checked : firstRefusal [definedCheck (takeFrame h.link s) h.op, holderCheck (takeFrame h.link s) h.op p] = none := by
    have at_p : engagementOf (takeFrame h.link s) h.op = some (p, .holder) := held
    simp [definedCheck, holderCheck, at_p, isSome_operator?_of_engaged at_p]
  have quiet : Quiet [.lists, .links] (takeFrame h.link s) (silenceList p (takeFrame h.link s)) := quiet_silenceList ..
  refine request_done rfl hp ((atConsole_console hl _ _).trans (judged_of_none checked _)) quiet fun t done => ?_
  have lists : t.lists = (silenceList p (takeFrame h.link s)).lists := done.agrees .lists nofun
  have calm : hornSounds (modLists p (fun v => { v with ann := v.ann.map fun e => { e with silenced := true } }) (takeFrame h.link s)) p =
      false := by simp [hornSounds]
  refine ⟨?_, done.replied, fun q hq => ?_, done.lines, done.kept quiet.kept (by simp)⟩
  · rw [lists, silenceList, judgeHorn_lists, if_pos rfl, calm, modLists_get_self]; rfl
  · rw [lists, silenceList, judgeHorn_lists, if_neg hq, modLists_get, if_neg hq]; rfl

/-! ### The latch -/

/-- R80 to R82: an operator who may act on an alarm passes its access check. -/
theorem firstRefusal_alarmActionChecks {s : State} {o i limit : Nat} {k : GrantKind} {p : Pos} (may : MayAct s o i k limit p) :
    firstRefusal (alarmActionChecks s o i k limit p) = none := by
  obtain ⟨index, defined, held, owned, grant, level⟩ := may
  have area : (areaOwner s (alarmAt s i).defn.area == p ||
      (p == .p0 && holdsFor s.grants o .supervise (alarmAt s i).defn.area .p0)) = true := by simpa [ownerOf] using owned
  simp [alarmActionChecks, indexChecks, alarmChecks, definedCheck, holderCheck, areaCheck, grantCheck, levelCheck, Config.maxAlarmIndex,
    index, defined, held, isSome_operator?_of_engaged held, area, grant, level]

theorem alarm?_modDyn_self {i : Nat} {a : Alarm} {s : State} (h : alarm? s i = some a) (f : AlarmDyn → AlarmDyn) :
    alarm? (modDyn i f s) i = some { a with dyn := f a.dyn } := by
  rw [alarm?_modDyn, if_pos rfl, h]; rfl

theorem alarm?_modDyn_ne {i j : Nat} (hj : j ≠ i) (f : AlarmDyn → AlarmDyn) (s : State) :
    alarm? (modDyn i f s) j = alarm? s j := by
  rw [alarm?_modDyn, if_neg hj]

theorem alarm?_congr {s t : State} (h : t.alarms = s.alarms) (i : Nat) : alarm? t i = alarm? s i := by simp only [alarm?, h]

/-- A report leaves where its alarm stands, so it may be read before or after the alarm's record moved. -/
theorem ownerOf_congr {s t : State} {i : Nat} {a : Alarm} (before : alarm? s i = some a) {d : AlarmDyn}
    (after : alarm? t i = some { a with dyn := d }) (areas : t.areas = s.areas) : ownerOf t i = ownerOf s i := by
  rw [ownerOf_eq before, ownerOf_eq after]; simp only [areaOwner, areas]

/-- R14, R118: what the reset of a latch leaves. -/
theorem resetLatch_spec {i : Nat} {a : Alarm} {s : State} (present : alarm? s i = some a) (o : Nat) (p : Pos) :
    let u := resetLatch o p i s
    let work := (itemResolved .arrival i).andThen (summaryFalls .latched)
    u.alarms = (modDyn i (AlarmDyn.enter .normal none) s).alarms ∧
      Journaled [⟨.latchReset, some (ownerOf s i), some o, some i, p.num⟩] s u ∧ ItemsFollow (ownerOf s i) work s u ∧
      Told (atDesk (ownerOf s i) (itemNotices (ownerOf s i) work s)) s u := by
  intro u work
  have owner : ownerOf (modDyn i (AlarmDyn.enter .normal none) s) i = ownerOf s i :=
    ownerOf_congr present (alarm?_modDyn_self present _) rfl
  generalize hv : append .latchReset (some (ownerOf s i)) (some o) (some i) p.num
    (modDyn i (AlarmDyn.enter .normal none) s) = v
  have out : u = lifecycleReport i .latched .normal v := by
    rw [← hv, ← owner]; rfl
  have entry : Journaled [⟨.latchReset, some (ownerOf s i), some o, some i, p.num⟩] s v := hv ▸ ⟨rfl, rfl⟩
  have before : v.positions = s.positions ∧ v.links = s.links ∧ v.millTime = s.millTime ∧
      v.alarms = (modDyn i (AlarmDyn.enter .normal none) s).alarms ∧ ownerOf v i = ownerOf s i :=
    hv ▸ ⟨rfl, rfl, rfl, rfl, owner⟩
  obtain ⟨positions, links, time, alarms, owner⟩ := before
  have report := quiet_lifecycleReport v i .latched .normal
  rw [← out] at report
  obtain ⟨wrapped, follow, told⟩ := lifecycleReport_spec i .latched .normal v
  rw [← out, owner] at follow told
  rw [itemNotices_congr _ _ positions] at told
  exact ⟨Eq.trans (report.kept.agrees .alarms (by simp)) alarms, entry.before (.of_kept report.kept (by simp)) time,
    follow.congr positions rfl, told.from_links links⟩

/-- Settles O46. -/
theorem latchResetClearsTheLatch : Obligations.LatchResetClearsTheLatch := by
  refine ⟨fun h p i a s hp hl present may latched => ?_, fun h p i a s hp hl present may other => ?_⟩
  · have level : ackLevelOf (takeFrame h.link s) i = a.defn.ackLevel := congrArg (·.defn.ackLevel) (alarmAt_eq present)
    have stands : lifecycleOf (takeFrame h.link s) i = .latched := (congrArg (·.dyn.lifecycle) (alarmAt_eq present)).trans latched
    have checked : firstRefusal (alarmActionChecks (takeFrame h.link s) h.op i .latchReset
        (min (ackLevelOf (takeFrame h.link s) i) 1) p ++ [⟨lifecycleOf (takeFrame h.link s) i == .latched, .badState, i⟩]) = none := by
      rw [firstRefusal_append (firstRefusal_alarmActionChecks (level ▸ may)), stands]; rfl
    have quiet := quiet_resetLatch (takeFrame h.link s) h.op p i
    refine request_done (out := exec (.latchReset h i) s) rfl hp ((atConsole_console hl _ _).trans (judged_of_none checked _)) quiet
      fun t done => ?_
    obtain ⟨alarms, entry, follow, told⟩ := resetLatch_spec (s := takeFrame h.link s) present h.op p
    have alarms' := Eq.trans (done.agrees .alarms nofun) alarms
    exact ⟨by rw [alarm?_congr alarms']; exact alarm?_modDyn_self present _, done.replied, done.journaled entry,
      ⟨done.follows follow, done.announced _ told⟩, fun j hj => by rw [alarm?_congr alarms']; exact alarm?_modDyn_ne hj _ _,
      done.desks (desks_resetLatch ..).desks, done.lines, done.kept quiet.kept (by simp)⟩
  · have level : ackLevelOf (takeFrame h.link s) i = a.defn.ackLevel := congrArg (·.defn.ackLevel) (alarmAt_eq present)
    have stands : lifecycleOf (takeFrame h.link s) i ≠ .latched := by
      rw [show lifecycleOf (takeFrame h.link s) i = a.dyn.lifecycle from congrArg (·.dyn.lifecycle) (alarmAt_eq present)]; exact other
    have checked : firstRefusal (alarmActionChecks (takeFrame h.link s) h.op i .latchReset
        (min (ackLevelOf (takeFrame h.link s) i) 1) p ++ [⟨lifecycleOf (takeFrame h.link s) i == .latched, .badState, i⟩]) =
          some (.badState, i) := by
      rw [firstRefusal_append (firstRefusal_alarmActionChecks (level ▸ may))]; simp [firstRefusal, stands]
    exact request_refused_silent rfl hp ((atConsole_console hl _ _).trans (judged_of_some checked _)) rfl
      fun t kept _ replied => ⟨replied, kept⟩

end Sys2Proof.Machine
end

section
/-! PROOFS. The lists of a position: what their operations do to the records of the alarms they move (the overflow flag alone), the
deferred insertion of R28, and the placement of R27. -/

namespace Sys2Proof.Machine

/-! ### Records under the lists -/

/-- An alarm point without its overflow flag, the one field that the lists write as they move alarms about. -/
def Alarm.unmarked (a : Alarm) : Alarm := { a with dyn := { a.dyn with overflow := false } }

/-- Work that writes no field of an alarm record but overflow flags. -/
structure MarksOnly (s t : State) : Prop where
  record : ∀ j, (alarm? t j).map Alarm.unmarked = (alarm? s j).map Alarm.unmarked

namespace MarksOnly
variable {s t u : State}

theorem refl (s : State) : MarksOnly s s := ⟨fun _ => rfl⟩

theorem trans (h : MarksOnly s t) (k : MarksOnly t u) : MarksOnly s u := ⟨fun j => (k.record j).trans (h.record j)⟩

theorem of_alarms (h : t.alarms = s.alarms) : MarksOnly s t := ⟨fun j => by rw [alarm?_congr h]⟩

theorem of_kept {ps : List Part} (h : Kept ps s t) (ha : .alarms ∉ ps) : MarksOnly s t := of_alarms (h.agrees .alarms ha)

theorem ite {c : Prop} [Decidable c] (h : c → MarksOnly s t) (k : ¬c → MarksOnly s u) : MarksOnly s (if c then t else u) := by
  split
  · exact h ‹_›
  · exact k ‹_›

theorem when {c : Prop} [Decidable c] (k : MarksOnly t u) :
    MarksOnly t (if c then u else t) := .ite (fun _ => k) fun _ => .refl ..

theorem find {j : Nat} {a : Alarm} (h : MarksOnly s t) (ha : alarm? s j = some a) :
    ∃ m, alarm? t j = some { a with dyn := { a.dyn with overflow := m } } := by
  have same := h.record j
  rw [ha] at same
  obtain ⟨b, hb, e⟩ := Option.map_eq_some_iff.1 same
  refine ⟨b.dyn.overflow, hb.trans (congrArg some ?_)⟩
  obtain ⟨defn, dyn⟩ := b
  obtain ⟨defn', dyn'⟩ := a
  cases dyn; cases dyn'
  simp_all [Alarm.unmarked]

theorem alarmAt (h : MarksOnly s t) (j : Nat) : (alarmAt t j).unmarked = (alarmAt s j).unmarked := by
  have same := h.record j
  simp only [Machine.alarmAt]
  cases ht : alarm? t j <;> cases hs : alarm? s j <;> simp_all

theorem defn (h : MarksOnly s t) (j : Nat) : (Machine.alarmAt t j).defn = (Machine.alarmAt s j).defn := by
  have same := congrArg Alarm.defn (h.alarmAt j)
  exact same

theorem lifecycleOf (h : MarksOnly s t) (j : Nat) : lifecycleOf t j = lifecycleOf s j := by
  have same := congrArg (fun a : Alarm => a.dyn.lifecycle) (h.alarmAt j)
  exact same

theorem priorityOf (h : MarksOnly s t) (j : Nat) : priorityOf t j = priorityOf s j := congrArg AlarmDef.priority (h.defn j)

theorem rankOf (h : MarksOnly s t) (j : Nat) (time : Word) : rankOf t j time = rankOf s j time := by
  rw [Machine.rankOf, Machine.rankOf, h.priorityOf]

theorem entryBefore (h : MarksOnly s t) : entryBefore t = entryBefore s := by
  funext a b; simp only [Machine.entryBefore, h.rankOf]

end MarksOnly

theorem marksOnly_setOverflow (i : Nat) (b : Bool) (s : State) : MarksOnly s (setOverflow i b s) := ⟨fun j => by
  rw [setOverflow, alarm?_modDyn]
  split
  · subst j; cases alarm? s i <;> rfl
  · rfl⟩

theorem marksOnly_joinDeferred (p : Pos) (i : Nat) (t : Word) (s : State) : MarksOnly s (joinDeferred p i t s) :=
  (marksOnly_setOverflow i false s).trans (.of_alarms rfl)

theorem marksOnly_insertDeferred (p : Pos) (i : Nat) (t : Word) (s : State) : MarksOnly s (insertDeferred p i t s) := by
  simp only [insertDeferred]
  refine .ite (fun _ => marksOnly_joinDeferred ..) fun _ => ?_
  split
  · refine .ite (fun _ => ?_) fun _ => marksOnly_setOverflow ..
    exact ((MarksOnly.of_alarms (s := s) (t := leaveDeferred p _ s) rfl).trans (marksOnly_setOverflow _ true _)).trans (marksOnly_joinDeferred ..)
  · exact marksOnly_setOverflow ..

theorem marksOnly_joinAnn (p : Pos) (i : Nat) (t : Word) (s : State) : MarksOnly s (joinAnn p i t s) :=
  .of_kept (quiet_joinAnn ..).kept (by simp)

/-! ### Deferred insertion -/

theorem mem_insertBy {α : Type} {before : α → α → Bool} {x y : α} {l : List α} : y ∈ insertBy before x l ↔ y = x ∨ y ∈ l := by
  induction l with
  | nil => simp [insertBy]
  | cons z l ih =>
    simp only [insertBy]
    split
    · simp
    · simp only [List.mem_cons, ih]; tauto

theorem joinDeferred_lists (p q : Pos) (i : Nat) (t : Word) (s : State) : (joinDeferred p i t s).lists.get q =
    if q = p then { s.lists.get p with deferred := insertBy (entryBefore s) ⟨i, t⟩ (s.lists.get p).deferred } else s.lists.get q := by
  simp only [joinDeferred, modLists_get, (marksOnly_setOverflow i false s).entryBefore, setOverflow_lists]

theorem alarm?_joinDeferred (p : Pos) (i j : Nat) (t : Word) (s : State) :
    alarm? (joinDeferred p i t s) j = alarm? (setOverflow i false s) j := rfl

theorem alarmAt_modDyn_self (i : Nat) (f : AlarmDyn → AlarmDyn) (s : State) : (alarmAt (modDyn i f s) i).dyn =
    if (alarm? s i).isSome then f (alarmAt s i).dyn else blankAlarm.dyn := by
  simp only [alarmAt, alarm?_modDyn, if_true]
  cases alarm? s i <;> rfl

theorem overflow_setOverflow_false (i : Nat) (s : State) : (alarmAt (setOverflow i false s) i).dyn.overflow = false := by
  rw [setOverflow, alarmAt_modDyn_self]
  split <;> rfl

/-- R28: an alarm whose overflow flag is set, and then perhaps another's cleared. -/
theorem overflows_of_marked {i : Nat} {s t : State} (h : MarksOnly s t)
    (marked : ∀ a, alarm? t i = some a → a.dyn.overflow = true) : Overflows i s t := fun a ha => by
  obtain ⟨m, hb⟩ := h.find ha
  exact ⟨_, hb, marked _ hb, rfl, rfl⟩

theorem overflow_setOverflow_true {i : Nat} {s : State} {a : Alarm} (h : alarm? (setOverflow i true s) i = some a) :
    a.dyn.overflow = true := by
  rw [setOverflow, alarm?_modDyn, if_pos rfl] at h
  obtain ⟨b, -, rfl⟩ := Option.map_eq_some_iff.1 h
  rfl

/-- R28: deferred insertion follows its cases. -/
theorem insertDeferred_takes (p : Pos) (i : Nat) (t : Word) (s : State) : DeferredTakes p i t s (insertDeferred p i t s) := by
  refine ⟨fun room => ?_, fun low full last => ⟨fun higher other => ?_, fun lower => ?_⟩⟩
  · have work : insertDeferred p i t s = joinDeferred p i t s := if_pos room
    rw [work, joinDeferred_lists, if_pos rfl]
    exact ⟨length_insertBy .., mem_insertBy.2 (.inl rfl), overflow_setOverflow_false ..⟩
  · have work : insertDeferred p i t s = joinDeferred p i t (setOverflow low.alarm true (leaveDeferred p low.alarm s)) := by
      simp only [insertDeferred]
      rw [if_neg (Nat.not_lt.2 full)]
      simp only [last, if_pos higher]
    have marks : MarksOnly s (insertDeferred p i t s) := marksOnly_insertDeferred ..
    rw [work] at marks ⊢
    rw [joinDeferred_lists, if_pos rfl]
    refine ⟨mem_insertBy.2 (.inl rfl), fun e he => ?_, overflow_setOverflow_false .., overflows_of_marked marks fun a ha => ?_⟩
    · rcases mem_insertBy.1 he with rfl | he
      · exact other.symm
      · have stays : e ∈ (s.lists.get p).deferred ∧ ¬e.alarm = low.alarm := by simpa [leaveDeferred] using he
        exact stays.2
    · rw [alarm?_joinDeferred, setOverflow, alarm?_modDyn_ne other] at ha
      exact overflow_setOverflow_true ha
  · have work : insertDeferred p i t s = setOverflow i true s := by
      simp only [insertDeferred]
      rw [if_neg (Nat.not_lt.2 full)]
      simp only [last, lower, Bool.false_eq_true, if_false]
    rw [work]
    exact ⟨rfl, overflows_of_marked (marksOnly_setOverflow ..) fun a ha => overflow_setOverflow_true ha⟩

/-- R28: deferred insertion writes no list but the deferred one. -/
theorem insertDeferred_fields (p q : Pos) (i : Nat) (t : Word) (s : State) : (insertDeferred p i t s).lists.get q =
    { s.lists.get q with deferred := ((insertDeferred p i t s).lists.get q).deferred } := by
  have joined (u : State) (h : ∃ d, u.lists.get q = { s.lists.get q with deferred := d }) : ∃ d, (joinDeferred p i t u).lists.get q =
      { s.lists.get q with deferred := d } := by
    obtain ⟨d, hd⟩ := h
    rw [joinDeferred_lists]
    split
    · subst q; exact ⟨_, by rw [hd]⟩
    · exact ⟨d, hd⟩
  have fields : ∃ d, (insertDeferred p i t s).lists.get q = { s.lists.get q with deferred := d } := by
    simp only [insertDeferred]
    split
    · exact joined s ⟨_, rfl⟩
    · split
      · split
        · refine joined _ ?_
          simp only [setOverflow_lists, leaveDeferred, modLists_get]
          split
          · subst q; exact ⟨_, rfl⟩
          · exact ⟨_, rfl⟩
        · exact ⟨_, rfl⟩
      · exact ⟨_, rfl⟩
  obtain ⟨d, hd⟩ := fields
  rw [hd]

/-! ### Placement -/

/-- R27: an alarm that has been given its annunciation time. -/
abbrev stamped (i : Nat) (t : Word) (s : State) : State := modDyn i (fun d => { d with annTime := some t }) s

/-- R27: where a displaced entry goes before the alarm that displaced it is listed. -/
abbrev displaced (p : Pos) (low : AnnEntry) (s : State) : State :=
  insertDeferred p low.alarm low.time (notify (.console p) (.retract low.alarm .displaced) (leaveAnn p low.alarm s))

section placement
variable {p : Pos} {i : Nat} {t : Word} {s : State}

theorem atPos_stamped (p : Pos) (i : Nat) (t : Word) (s : State) : AtPos p s (stamped i t s) := atPos_modDyn p s i _

theorem rankOf_stamped (j : Nat) (time : Word) : rankOf (stamped i t s) j time = rankOf s j time := by
  rw [rankOf, rankOf, (atPos_stamped .p0 i t s).priorityOf]

theorem placeOnLists_flooded (flood : (s.loads.get p).flood = true) (fourth : priorityOf s i = 4) :
    placeOnLists p i t s = insertDeferred p i t (stamped i t s) := by
  simp only [placeOnLists]
  rw [if_pos (by simp [flood, (atPos_stamped p i t s).priorityOf, fourth])]

section
variable (calm : ¬((s.loads.get p).flood = true ∧ priorityOf s i = 4))
include calm

theorem placeOnLists_calm : ¬(((stamped i t s).loads.get p).flood && priorityOf (stamped i t s) i == 4) = true := by
  rw [(atPos_stamped p i t s).priorityOf]; simpa using calm

theorem placeOnLists_room (room : (s.lists.get p).ann.length < 128) :
    placeOnLists p i t s = joinAnn p i t (stamped i t s) := by
  simp only [placeOnLists]
  rw [if_neg (placeOnLists_calm calm), if_pos (by exact room)]

variable {low : AnnEntry} (full : 128 ≤ (s.lists.get p).ann.length) (last : (s.lists.get p).ann.getLast? = some low)
include full last

theorem placeOnLists_displaces (higher : outranks (rankOf s i t) (rankOf s low.alarm low.time) = true) :
    placeOnLists p i t s = joinAnn p i t (displaced p low (stamped i t s)) := by
  simp only [placeOnLists]
  rw [if_neg (placeOnLists_calm calm), if_neg (by exact Nat.not_lt.2 full)]
  simp only [modDyn_lists, last, rankOf_stamped, higher, if_true]

theorem placeOnLists_yields (lower : outranks (rankOf s i t) (rankOf s low.alarm low.time) = false) :
    placeOnLists p i t s = insertDeferred p i t (stamped i t s) := by
  simp only [placeOnLists]
  rw [if_neg (placeOnLists_calm calm), if_neg (by exact Nat.not_lt.2 full)]
  simp only [modDyn_lists, last, rankOf_stamped, lower, Bool.false_eq_true, if_false]

end

/-- R27: a placement ends in deferred insertion, in room on the annunciation list, or in the place of its lowest entry; and what it
tells the console is the notices of that way. -/
theorem placeOnLists_ways (p : Pos) (i : Nat) (t : Word) (s : State) (lc : Lifecycle) :
    (placeOnLists p i t s = insertDeferred p i t (stamped i t s) ∧ placementNotices p i t lc s = []) ∨
    (placeOnLists p i t s = joinAnn p i t (stamped i t s) ∧ placementNotices p i t lc s = [annunciation s p i t lc]) ∨
    ∃ low, (s.lists.get p).ann.getLast? = some low ∧ placeOnLists p i t s = joinAnn p i t (displaced p low (stamped i t s)) ∧
      placementNotices p i t lc s = [.retract low.alarm .displaced, annunciation s p i t lc] := by
  by_cases flooded : (s.loads.get p).flood = true ∧ priorityOf s i = 4
  · exact .inl ⟨placeOnLists_flooded flooded.1 flooded.2, if_pos flooded⟩
  by_cases room : (s.lists.get p).ann.length < 128
  · exact .inr (.inl ⟨placeOnLists_room flooded room, by simp only [placementNotices]; rw [if_neg flooded, if_pos room]⟩)
  obtain ⟨low, last⟩ : ∃ low, (s.lists.get p).ann.getLast? = some low := by
    cases h : (s.lists.get p).ann.getLast? with
    | none => rw [List.getLast?_eq_none_iff.1 h] at room; simp at room
    | some low => exact ⟨low, rfl⟩
  have told : placementNotices p i t lc s = if outranks (rankOf s i t) (rankOf s low.alarm low.time) then
      [.retract low.alarm .displaced, annunciation s p i t lc] else [] := by
    simp only [placementNotices]
    rw [if_neg flooded, if_neg room]
    simp only [last]
  cases higher : outranks (rankOf s i t) (rankOf s low.alarm low.time) with
  | true => exact .inr (.inr ⟨low, last, placeOnLists_displaces flooded (Nat.not_lt.1 room) last higher, by rw [told, if_pos higher]⟩)
  | false => exact .inl ⟨placeOnLists_yields flooded (Nat.not_lt.1 room) last higher, by simp [told, higher]⟩

theorem marksOnly_displaced (p : Pos) (low : AnnEntry) (s : State) : MarksOnly s (displaced p low s) :=
  .trans (t := notify (.console p) (.retract low.alarm .displaced) (leaveAnn p low.alarm s)) (.of_alarms rfl) (marksOnly_insertDeferred ..)

/-- R27: beside the annunciation time, a placement writes overflow flags alone. -/
theorem marksOnly_placeOnLists (p : Pos) (i : Nat) (t : Word) (s : State) :
    MarksOnly (stamped i t s) (placeOnLists p i t s) := by
  rcases placeOnLists_ways p i t s .normal with ⟨way, -⟩ | ⟨way, -⟩ | ⟨low, -, way, -⟩ <;> rw [way]
  · exact marksOnly_insertDeferred ..
  · exact marksOnly_joinAnn ..
  · exact (marksOnly_displaced ..).trans (marksOnly_joinAnn ..)

theorem joinAnn_ann (p : Pos) (i : Nat) (t : Word) (s : State) : ((joinAnn p i t s).lists.get p).ann =
    insertBy (annBefore s) ⟨i, t, false, freshReminder s p i⟩ (s.lists.get p).ann := by
  simp [joinAnn, notify]

theorem joinAnn_fields (p q : Pos) (i : Nat) (t : Word) (s : State) : (joinAnn p i t s).lists.get q =
    { s.lists.get q with ann := ((joinAnn p i t s).lists.get q).ann } := by
  simp only [joinAnn, notify, modLink_lists, modLists_get]
  split
  · subst q; rfl
  · rfl

/-- R38: the full interval where the reminder runs. -/
theorem freshReminder_eq {a : Alarm} (h : alarm? s i = some a) : freshReminder s p i =
    if a.dyn.lifecycle = .raised ∧ ((s.loads.get p).flood = false ∨ a.defn.priority ≤ 2) then some a.defn.reminder else none := by
  simp only [freshReminder, reminderRuns, lifecycleOf, priorityOf, alarmAt_eq h]
  simp

end placement

theorem leaveAnn_lists (p q : Pos) (i : Nat) (s : State) : (leaveAnn p i s).lists.get q =
    if q = p then { s.lists.get p with ann := (s.lists.get p).ann.filter fun e => e.alarm != i } else s.lists.get q := modLists_get ..

theorem DeferredTakes.congr {p : Pos} {i : Nat} {t : Word} {s u r v : State} (h : DeferredTakes p i t u v)
    (lists : (u.lists.get p).deferred = (s.lists.get p).deferred) (ranks : ∀ j time, rankOf u j time = rankOf s j time)
    (records : ∀ j a, alarm? s j = some a → ∃ b, alarm? u j = some b ∧ b.settled = a.settled ∧ b.dyn.escalated = a.dyn.escalated)
    (alarms : r.alarms = v.alarms) (after : (r.lists.get p).deferred = (v.lists.get p).deferred) : DeferredTakes p i t s r := by
  have overflows (j : Nat) (h : Overflows j u v) : Overflows j s r := fun a ha => by
    obtain ⟨b, hb, settled, escalated⟩ := records j a ha
    obtain ⟨c, hc, marked, settled', escalated'⟩ := h b hb
    exact ⟨c, by rwa [alarm?_congr alarms], marked, settled'.trans settled, escalated'.trans escalated⟩
  have record (j : Nat) : alarmAt r j = alarmAt v j := by rw [alarmAt, alarmAt, alarm?_congr alarms]
  obtain ⟨room, full⟩ := h
  simp only [DeferredTakes, after, record, ← ranks, ← lists]
  refine ⟨room, fun low long last => ⟨fun higher other => ?_, fun lower => ?_⟩⟩
  · obtain ⟨stands, gone, clear, marked⟩ := (full low long last).1 higher other
    exact ⟨stands, gone, clear, overflows _ marked⟩
  · obtain ⟨same, marked⟩ := (full low long last).2 lower
    exact ⟨same, overflows _ marked⟩

/-- R27: a placement writes the annunciation list, the deferred list and, in a record, the annunciation time and overflow flags. -/
theorem placeOnLists_horn (p q : Pos) (i : Nat) (t : Word) (s : State) :
    ((placeOnLists p i t s).lists.get q).horn = (s.lists.get q).horn := by
  have left : ∀ low : AnnEntry, ((displaced p low (stamped i t s)).lists.get q).horn = (s.lists.get q).horn := fun low => by
    rw [insertDeferred_fields]
    simp only [notify, modLink_lists, leaveAnn_lists]
    split
    · subst q; rfl
    · rfl
  rcases placeOnLists_ways p i t s .normal with ⟨way, -⟩ | ⟨way, -⟩ | ⟨low, -, way, -⟩ <;> rw [way]
  · rw [insertDeferred_fields]; rfl
  · rw [joinAnn_fields]; rfl
  · rw [joinAnn_fields]; exact left low

/-- Settles O39. -/
theorem aPlacementFollowsItsCases : Obligations.APlacementFollowsItsCases := by
  intro p i t a s present v r w flooded
  have record : alarm? (stamped i t s) i = some { a with dyn := { a.dyn with annTime := some t } } := alarm?_modDyn_self present _
  have marks : MarksOnly (stamped i t s) r := marksOnly_placeOnLists p i t s
  have place := atPos_placeOnLists p s i t
  have priority : priorityOf s i = a.defn.priority := by rw [priorityOf, alarmAt_eq present]
  have records (j : Nat) (x : Alarm) (hx : alarm? s j = some x) :
      ∃ b, alarm? (stamped i t s) j = some b ∧ b.settled = x.settled ∧ b.dyn.escalated = x.dyn.escalated := by
    by_cases hj : j = i
    · subst hj; exact ⟨_, alarm?_modDyn_self hx _, rfl, rfl⟩
    · exact ⟨x, (alarm?_modDyn_ne hj _ _).trans hx, rfl, rfl⟩
  have calm (h : ¬flooded) : ¬((s.loads.get p).flood = true ∧ priorityOf s i = 4) := by rw [priority]; exact h
  have deferred (h : r = insertDeferred p i t (stamped i t s)) : w.ann = v.ann ∧ DeferredTakes p i t s r := by
    refine ⟨?_, h ▸ (insertDeferred_takes p i t (stamped i t s)).congr rfl (fun j x => rankOf_stamped ..) records rfl rfl⟩
    simp only [w, h, insertDeferred_ann]; rfl
  refine ⟨?_, fun flood => ?_, fun open' room => ?_, fun low open' full last lower => ?_, fun low open' full last higher other => ?_,
    place.shelf p, placeOnLists_horn .., fun j hj => ?_, place.lists, (quiet_placeOnLists ..).kept⟩
  · obtain ⟨m, hb⟩ := marks.find record
    exact ⟨_, hb, rfl, rfl, rfl, rfl⟩
  · exact deferred (placeOnLists_flooded flood.1 (priority.trans flood.2))
  · have way : r = joinAnn p i t (stamped i t s) := placeOnLists_room (calm open') room
    have ann := joinAnn_ann p i t (stamped i t s)
    rw [freshReminder_eq record, ← way] at ann
    have rest := joinAnn_fields p p i t (stamped i t s)
    rw [← way] at rest
    refine ⟨by simp only [w]; rw [rest]; rfl, ?_, ?_⟩ <;> simp only [w]
    · rw [ann]; exact length_insertBy ..
    · rw [ann]; exact mem_insertBy.2 (.inl rfl)
  · exact deferred (placeOnLists_yields (calm open') full last lower)
  · have way : r = joinAnn p i t (displaced p low (stamped i t s)) := placeOnLists_displaces (calm open') full last higher
    have ann := joinAnn_ann p i t (displaced p low (stamped i t s))
    rw [← way] at ann
    have rest := joinAnn_fields p p i t (displaced p low (stamped i t s))
    rw [← way] at rest
    refine ⟨?_, fun e he => ?_, ?_⟩
    · refine ⟨⟨i, t, false, freshReminder (displaced p low (stamped i t s)) p i⟩, ?_, rfl, rfl, rfl⟩
      simp only [w]; rw [ann]; exact mem_insertBy.2 (.inl rfl)
    · simp only [w] at he
      rw [ann] at he
      rcases mem_insertBy.1 he with rfl | he
      · exact other.symm
      · rw [insertDeferred_ann] at he
        have stays : e ∈ (s.lists.get p).ann ∧ ¬e.alarm = low.alarm := by simpa [leaveAnn, notify] using he
        exact stays.2
    · refine (insertDeferred_takes p low.alarm low.time
        (notify (.console p) (.retract low.alarm .displaced) (leaveAnn p low.alarm (stamped i t s)))).congr ?_
          (fun j x => rankOf_stamped (i := i) (t := t) ..) records ?_ ?_
      · simp [leaveAnn, notify]
      · rw [way]; rfl
      · rw [rest]
  · have same := marks.record j
    rw [alarm?_modDyn_ne hj] at same
    exact same

end Sys2Proof.Machine
end

section
/-! PROOFS. Flood mode: the FLOOD item, what the lists do when flood mode is entered and left, and what an evaluation and an addition to
the load do outside the loads. -/

namespace Sys2Proof.Machine

/-! ### Reports one after another -/

theorem ItemsFollow.refl (p : Pos) (s : State) : ItemsFollow p noItems s s := fun q => by simp [ItemWork.result, noItems]

theorem itemNotices_noItems (p : Pos) (s : State) : itemNotices p noItems s = [] := by simp [itemNotices, noItems]

section
variable {p : Pos} {v w : ItemWork} {s t u : State} (h : ItemsFollow p w s t)
  (state : (t.positions.get p).state = (s.positions.get p).state)
include h state

theorem ItemsFollow.andThen (k : ItemsFollow p v t u) : ItemsFollow p (w.andThen v) s u := fun q => by
  rw [k q, h q]
  by_cases hq : q = p
  · subst hq
    by_cases review : (s.positions.get q).state = .review
    · simp [state, review]
    · simp [state, review]
  · simp [hq]

theorem itemNotices_andThen : itemNotices p (w.andThen v) s = itemNotices p w s ++ itemNotices p v t := by
  have items := h p
  by_cases review : (s.positions.get p).state = .review
  · rw [if_pos ⟨rfl, review⟩] at items
    simp [itemNotices, state, review, items, ItemWork.andThen]
  · simp [itemNotices, state, review]

end

theorem itemsFollow_of_positions {s t : State} (p : Pos) (h : t.positions = s.positions) : ItemsFollow p noItems s t :=
  (ItemsFollow.refl p s).congr rfl h

/-! ### The FLOOD item -/

/-- R136: the FLOOD item of a change of flood mode. -/
def floodItems (p : Pos) (on : Bool) (load : Nat) : ItemWork := fun items =>
  match items.find? fun it => it.kind == .flood with
  | some it => [.changed (if on then { it with count := load, confirmed := false, resolved := false, arrived := true }
      else { it with resolved := true })]
  | none => if on then [appendedItem items .flood p.num load] else []

theorem itemsFlood_turned {p : Pos} {s t : State} (h : (t.loads.get p).flood ≠ (s.loads.get p).flood) :
    itemsFlood p s t = floodItems p (t.loads.get p).flood (t.loads.get p).load := by
  rw [itemsFlood, bne_iff_ne.2 h]; rfl

theorem itemsFlood_still {p : Pos} {s t : State} (h : (t.loads.get p).flood = (s.loads.get p).flood) :
    itemsFlood p s t = noItems := by
  rw [itemsFlood, h, bne_self_eq_false]; rfl

theorem loadNotices_still {p : Pos} {s t : State} (h : (t.loads.get p).flood = (s.loads.get p).flood) :
    loadNotices p s t = [] := if_pos h

/-- R136: a FLOOD report. -/
theorem floodReport_spec (p : Pos) (on : Bool) (load : Nat) (s : State) : let w := floodItems p on load
    ItemsFollow p w s (floodReport p on load s) ∧ Told (atDesk p (itemNotices p w s)) s (floodReport p on load s) :=
  reported (fun h => by
    rw [floodReport, if_pos h]
    cases hi : findItem? s p fun it => it.kind == .flood with
    | some it =>
      refine (changeItem_done ..).at_items ?_
      rw [findItem?] at hi
      simp only [floodItems]
      rw [hi]
      rfl
    | none =>
      rw [findItem?] at hi
      cases on with
      | true =>
        refine (appendItem_done p .flood p.num load s).at_items ?_
        simp only [floodItems]
        rw [hi]
        simp [summaryKinds]
      | false =>
        refine (ItemsDone.refl p s).at_items ?_
        simp only [floodItems]
        rw [hi]
        rfl) fun h => by simp [floodReport, h]

/-! ### Where alarms stand while the lists are worked on -/

/-- R26: an alarm stands on a list of a position, or in overflow. -/
def standsAt (s : State) (p : Pos) (i : Nat) : Bool := onAnn s p i || onDeferred s p i || (alarmAt s i).dyn.overflow

theorem isListed_eq (s : State) (i : Nat) : isListed s i = standsAt s (ownerOf s i) i := rfl

theorem standsAt_iff {s : State} {p : Pos} {i : Nat} : standsAt s p i = true ↔ (∃ e ∈ (s.lists.get p).ann, e.alarm = i) ∨
    (∃ e ∈ (s.lists.get p).deferred, e.alarm = i) ∨ (alarmAt s i).dyn.overflow = true := by
  simp [standsAt, onAnn, onDeferred, or_assoc]

/-- Work that takes no alarm off the lists of a position. -/
structure KeepsStanding (p : Pos) (s t : State) : Prop where
  stands : ∀ i, standsAt s p i = true → standsAt t p i = true

namespace KeepsStanding
variable {p : Pos} {s t u : State}

theorem refl (p : Pos) (s : State) : KeepsStanding p s s := ⟨fun _ h => h⟩

theorem trans (h : KeepsStanding p s t) (k : KeepsStanding p t u) :
    KeepsStanding p s u := ⟨fun i hi => k.stands i (h.stands i hi)⟩

theorem ite {c : Prop} [Decidable c] (h : c → KeepsStanding p s t) (k : ¬c → KeepsStanding p s u) :
    KeepsStanding p s (if c then t else u) := by
  split
  · exact h ‹_›
  · exact k ‹_›

theorem when {c : Prop} [Decidable c] (k : KeepsStanding p t u) : KeepsStanding p t (if c then u else t) :=
  .ite (fun _ => k) fun _ => .refl ..

/-- Work on the annunciation list that changes no more than the silenced markers and reminders of its entries. -/
theorem of_lists (ann : (t.lists.get p).ann.map (·.alarm) = (s.lists.get p).ann.map (·.alarm))
    (deferred : (t.lists.get p).deferred = (s.lists.get p).deferred) (alarms : t.alarms = s.alarms) : KeepsStanding p s t := ⟨fun i h => by
  have on : onAnn t p i = onAnn s p i := by
    have any (u : State) : onAnn u p i = ((u.lists.get p).ann.map (·.alarm)).any (· == i) := by rw [List.any_map]; rfl
    rw [any, any, ann]
  simpa only [standsAt, on, onDeferred, deferred, alarmAt, alarm?_congr alarms] using h⟩

theorem of_kept {ps : List Part} (h : Kept ps s t) (hl : .lists ∉ ps) (ha : .alarms ∉ ps) (p : Pos) : KeepsStanding p s t := by
  have lists : t.lists = s.lists := h.agrees .lists hl
  exact .of_lists (by rw [lists]) (by rw [lists]) (h.agrees .alarms ha)

end KeepsStanding

theorem alarmAt_setOverflow_ne {i j : Nat} (hj : j ≠ i) (b : Bool) (s : State) :
    alarmAt (setOverflow i b s) j = alarmAt s j := by
  rw [alarmAt, setOverflow, alarm?_modDyn_ne hj, alarmAt]

theorem keepsStanding_joinDeferred (p : Pos) (i : Nat) (t : Word) (s : State) :
    KeepsStanding p s (joinDeferred p i t s) := ⟨fun j h => by
  rw [standsAt_iff] at h ⊢
  rw [joinDeferred_lists, if_pos rfl]
  by_cases hj : j = i
  · exact .inr (.inl ⟨_, mem_insertBy.2 (.inl rfl), hj.symm⟩)
  · rcases h with on | ⟨e, he, ha⟩ | marked
    · exact .inl on
    · exact .inr (.inl ⟨e, mem_insertBy.2 (.inr he), ha⟩)
    · exact .inr (.inr ((congrArg (·.dyn.overflow) (alarmAt_setOverflow_ne hj false s)).trans marked))⟩

theorem keepsStanding_refill (p : Pos) (s : State) : KeepsStanding p s (refill p s) := by
  unfold refill
  refine .when ?_
  split
  · exact keepsStanding_joinDeferred ..
  · exact .refl ..

/-- R33: an alarm that leaves the deferred list for the annunciation list. -/
abbrev promoted (p : Pos) (e : ListEntry) (s : State) : State := joinAnn p e.alarm e.time (leaveDeferred p e.alarm s)

theorem promoted_lists (p q : Pos) (e : ListEntry) (s : State) : (promoted p e s).lists.get q = if q = p then
    { s.lists.get p with
      ann := insertBy (annBefore s) ⟨e.alarm, e.time, false, freshReminder s p e.alarm⟩ (s.lists.get p).ann
      deferred := (s.lists.get p).deferred.filter fun x => x.alarm != e.alarm } else s.lists.get q := by
  simp only [joinAnn, leaveDeferred, notify, modLink_lists, modLists_get]
  by_cases hq : q = p
  · simp only [hq, if_true]; rfl
  · simp only [if_neg hq]

theorem keepsStanding_promoted (p : Pos) (e : ListEntry) (s : State) : KeepsStanding p s (promoted p e s) := ⟨fun j h => by
  rw [standsAt_iff] at h ⊢
  rw [promoted_lists, if_pos rfl]
  by_cases hj : j = e.alarm
  · exact .inl ⟨_, mem_insertBy.2 (.inl rfl), hj.symm⟩
  · rcases h with ⟨x, hx, ha⟩ | ⟨x, hx, ha⟩ | marked
    · exact .inl ⟨x, mem_insertBy.2 (.inr hx), ha⟩
    · exact .inr (.inl ⟨x, List.mem_filter.2 ⟨hx, by simpa [ha] using hj⟩, ha⟩)
    · exact .inr (.inr marked)⟩

theorem promote?_eq {p : Pos} {s t : State} (h : promote? p s = some t) :
    (s.lists.get p).ann.length < 128 ∧ ∃ e, eligible? p s = some e ∧ t = promoted p e s := by
  unfold promote? at h
  split at h
  · rename_i room
    obtain ⟨e, he, rfl⟩ := Option.map_eq_some_iff.1 h
    exact ⟨room, e, he, rfl⟩
  · cases h

/-- An induction over the steps of R33, R34 and R36. -/
theorem restored {R : State → State → Prop} {p : Pos} (refl : ∀ s, R s s) (trans : ∀ {s t u}, R s t → R t u → R s u)
    (joins : ∀ e s, R s (promoted p e s)) (fills : ∀ s, R s (refill p s)) (n m : Nat) (s : State) :
    R s (refillAll m p (promoteAll n p s)) := by
  have filled (m : Nat) (s : State) : R s (refillAll m p s) := by
    induction m generalizing s with
    | zero => exact refl s
    | succ m ih => exact trans (fills s) (ih _)
  induction n generalizing s with
  | zero => exact filled m s
  | succ n ih =>
    unfold promoteAll
    split
    · obtain ⟨-, e, -, rfl⟩ := promote?_eq ‹_›
      exact trans (joins e s) (ih _)
    · exact filled m s

theorem keepsStanding_judgeHorn (p : Pos) (s : State) : KeepsStanding p s (judgeHorn p s) := by
  have lists := judgeHorn_lists p p s
  rw [if_pos rfl] at lists
  exact .of_lists (by rw [lists]) (by rw [lists]) ((quiet_judgeHorn s p).kept.agrees .alarms (by simp))

theorem keepsStanding_restoreLists (p : Pos) (s : State) : KeepsStanding p s (restoreLists p s) :=
  (restored (KeepsStanding.refl p) KeepsStanding.trans (keepsStanding_promoted p) (keepsStanding_refill p) _ _ s).trans (keepsStanding_judgeHorn ..)

theorem marksOnly_refill (p : Pos) (s : State) : MarksOnly s (refill p s) := by
  unfold refill
  refine .when ?_
  split
  · exact marksOnly_joinDeferred ..
  · exact .refl ..

theorem marksOnly_restoreLists (p : Pos) (s : State) : MarksOnly s (restoreLists p s) :=
  (restored MarksOnly.refl MarksOnly.trans
    (fun e s => (MarksOnly.of_alarms (s := s) (t := leaveDeferred p e.alarm s) rfl).trans (marksOnly_joinAnn ..))
    (marksOnly_refill p) _ _ s).trans (.of_kept (quiet_judgeHorn ..).kept (by simp))

/-! ### A change of flood mode -/

/-- R57, R58: the entry and the notice of a change of flood mode have gone out. -/
abbrev floodTold (p : Pos) (on : Bool) (s : State) : State :=
  notifyBoth p (.load p (s.loads.get p).load on (s.loads.get p).limit)
    (append (if on then .floodEntered else .floodLeft) (some p) none none (s.loads.get p).load
      (modLoad p (fun d => { d with flood := on }) s))

/-- R57, R58: the lists have followed a change of flood mode. -/
abbrev floodListed (p : Pos) (on : Bool) (s : State) : State :=
  if on then floodEnterLists p (floodTold p on s) else floodLeaveLists p (floodTold p on s)

theorem floodTurned_eq (p : Pos) (on : Bool) (s : State) :
    floodTurned p on s = floodReport p on (s.loads.get p).load (floodListed p on s) := by
  simp only [floodTurned, modLoad_get_self]

theorem kept_floodTold (p : Pos) (on : Bool) (s : State) : Kept [.loads, .journal, .links] s (floodTold p on s) :=
  .trans ((quiet_modLoad s p _).kept.mono (by simp)) (.trans ((quiet_append ..).kept.mono (by simp))
    ((quiet_notifyBoth ..).kept.mono (by simp)))

theorem map_floodStopped (s : State) (es : List AnnEntry) : (es.map (floodStopped s)).map (·.alarm) = es.map (·.alarm) := by
  simp only [List.map_map]
  refine List.map_congr_left fun e _ => ?_
  simp only [Function.comp, floodStopped]
  split <;> rfl

theorem map_floodRestarted (s : State) (es : List AnnEntry) :
    (es.map (floodRestarted s)).map (·.alarm) = es.map (·.alarm) := by
  simp only [List.map_map]
  refine List.map_congr_left fun e _ => ?_
  simp only [Function.comp, floodRestarted]
  split <;> rfl

theorem keepsStanding_floodListed (p : Pos) (on : Bool) (s : State) : KeepsStanding p s (floodListed p on s) := by
  refine (KeepsStanding.of_kept (kept_floodTold p on s) (by simp) (by simp) p).trans ?_
  cases on with
  | true =>
    refine KeepsStanding.of_lists (t := floodEnterLists p (floodTold p true s)) ?_ ?_ rfl <;> rw [floodEnterLists, modLists_get_self]
    exact map_floodStopped ..
  | false =>
    refine KeepsStanding.trans (t := modLists p (fun v => { v with ann := v.ann.map (floodRestarted (floodTold p false s)) })
      (floodTold p false s)) (.of_lists ?_ ?_ rfl) (keepsStanding_restoreLists ..)
    · rw [modLists_get_self]; exact map_floodRestarted ..
    · rw [modLists_get_self]

theorem marksOnly_floodListed (p : Pos) (on : Bool) (s : State) : MarksOnly s (floodListed p on s) := by
  refine (MarksOnly.of_kept (kept_floodTold p on s) (by simp)).trans ?_
  cases on with
  | true => exact .of_alarms rfl
  | false => exact .trans (t := modLists p _ (floodTold p false s)) (.of_alarms rfl) (marksOnly_restoreLists ..)

theorem floodListed_positions (p : Pos) (on : Bool) (s : State) : (floodListed p on s).positions = s.positions :=
  Eq.trans ((quiet_floodLists (floodTold p on s) p on).kept.agrees .positions (by simp)) ((kept_floodTold p on s).agrees .positions (by simp))

theorem floodTurned_spec (p : Pos) (on : Bool) (s : State) :
    let t := floodTurned p on s; let w := floodItems p on (s.loads.get p).load
    Journaled [⟨if on then .floodEntered else .floodLeft, some p, none, none, (s.loads.get p).load⟩] s t ∧
      ItemsFollow p w s t ∧ MarksOnly s t ∧ KeepsStanding p s t ∧
      Told (fun l => atBoth p [.load p (s.loads.get p).load on (s.loads.get p).limit] l) s (floodTold p on s) ∧
      Told (atDesk p (itemNotices p w s)) (floodListed p on s) t := by
  intro t w
  have report : t = floodReport p on (s.loads.get p).load (floodListed p on s) := floodTurned_eq p on s
  have lists : Kept [.alarms, .lists, .links] (floodTold p on s) (floodListed p on s) := (quiet_floodLists (floodTold p on s) p on).kept
  have items : Kept [.positions, .links] (floodListed p on s) t := report ▸ (quiet_floodReport (floodListed p on s) p on _).kept
  have entry : Journaled [⟨if on then .floodEntered else .floodLeft, some p, none, none, (s.loads.get p).load⟩] s (floodTold p on s) :=
    have noticed : Kept [.links] _ (floodTold p on s) := (quiet_notifyBoth ..).kept
    Journaled.before (t := append (if on then .floodEntered else .floodLeft) (some p) none none (s.loads.get p).load
      (modLoad p (fun d => { d with flood := on }) s)) ⟨rfl, rfl⟩ (.of_kept noticed (by simp)) rfl
  have time : (floodTold p on s).millTime = s.millTime := ((kept_floodTold p on s).agrees .clock (by simp)).1
  obtain ⟨follow, told⟩ := floodReport_spec p on (s.loads.get p).load (floodListed p on s)
  rw [← report] at follow told
  rw [itemNotices_congr p _ (floodListed_positions p on s)] at told
  refine ⟨entry.before (.of_kept (lists.comp items (rs := [.alarms, .lists, .positions, .links]) (by simp) (by simp)) (by simp)) time,
    follow.congr (floodListed_positions p on s) rfl, (marksOnly_floodListed p on s).trans (.of_kept items (by simp)),
    (keepsStanding_floodListed p on s).trans (.of_kept items (by simp) (by simp) p), ?_, told⟩
  exact Told.from_links (told_notifyBoth p _ _) rfl

/-- R57: what an entry into flood mode tells. -/
theorem floodEntered_told (p : Pos) (s : State) :
    Told (fun l => atBoth p [.load p (s.loads.get p).load true (s.loads.get p).limit] l ++
    atDesk p (itemNotices p (floodItems p true (s.loads.get p).load) s) l) s (floodTurned p true s) := by
  obtain ⟨-, -, -, -, notices, items⟩ := floodTurned_spec p true s
  exact notices.trans (items.from_links rfl)

/-- R35: what an entry into flood mode leaves of the lists. -/
theorem floodEntered_lists (p q : Pos) (s : State) : (floodTurned p true s).lists.get q =
    if q = p then { s.lists.get p with ann := (s.lists.get p).ann.map (floodStopped s) } else s.lists.get q := by
  have report : (floodTurned p true s).lists = (floodListed p true s).lists := by
    rw [floodTurned_eq]; exact (quiet_floodReport ..).kept.agrees .lists (by simp)
  have told := kept_floodTold p true s
  have lists : (floodTold p true s).lists = s.lists := told.agrees .lists (by simp)
  have stopped : floodStopped (floodTold p true s) = floodStopped s := by
    funext e; simp only [floodStopped, (MarksOnly.of_kept told (by simp)).priorityOf]
  rw [report, show floodListed p true s = floodEnterLists p (floodTold p true s) from rfl, floodEnterLists, modLists_get, lists, stopped]

/-! ### Evaluation and addition -/

theorem evaluateFlood_ways (p : Pos) (s : State) : evaluateFlood p s = s ∨
    ((s.loads.get p).flood = false ∧ (s.loads.get p).e ≤ (s.loads.get p).load ∧ evaluateFlood p s = floodTurned p true s) ∨
    ((s.loads.get p).flood = true ∧ (s.loads.get p).load ≤ (s.loads.get p).x ∧ evaluateFlood p s = floodTurned p false s) := by
  simp only [evaluateFlood]
  split_ifs with enters leaves
  · simp only [Bool.and_eq_true, Bool.not_eq_true', decide_eq_true_eq] at enters
    exact .inr (.inl ⟨enters.1, enters.2, rfl⟩)
  · simp only [Bool.and_eq_true, decide_eq_true_eq] at leaves
    exact .inr (.inr ⟨leaves.1, leaves.2, rfl⟩)
  · exact .inl rfl

theorem itemsFlood_congr {p : Pos} {s s' t t' : State} (before : (s'.loads.get p).flood = (s.loads.get p).flood)
    (after : t'.loads.get p = t.loads.get p) : itemsFlood p s' t' = itemsFlood p s t := by simp only [itemsFlood, before, after]

theorem loadNotices_congr {p : Pos} {s s' t t' : State} (before : (s'.loads.get p).flood = (s.loads.get p).flood)
    (after : t'.loads.get p = t.loads.get p) : loadNotices p s' t' = loadNotices p s t := by simp only [loadNotices, before, after]

/-- R56 to R58: what flood evaluation leaves outside the loads. -/
theorem evaluateFlood_spec (p : Pos) (s : State) : let t := evaluateFlood p s
    (∃ ls, Journaled ls s t) ∧ ItemsFollow p (itemsFlood p s t) s t ∧ MarksOnly s t ∧ KeepsStanding p s t := by
  intro t
  have turned (on : Bool) (before : (s.loads.get p).flood = !on) (h : t = floodTurned p on s) :
      (∃ ls, Journaled ls s t) ∧ ItemsFollow p (itemsFlood p s t) s t ∧ MarksOnly s t ∧ KeepsStanding p s t := by
    obtain ⟨entry, follow, marks, stands, -, -⟩ := floodTurned_spec p on s
    have loads : t.loads.get p = { s.loads.get p with flood := on } := by rw [h, floodTurned_loads, modLoad_get_self]
    have turn : (t.loads.get p).flood ≠ (s.loads.get p).flood := by rw [loads, before]; cases on <;> simp
    rw [itemsFlood_turned turn, loads, h]
    exact ⟨⟨_, entry⟩, follow, marks, stands⟩
  rcases evaluateFlood_ways p s with same | ⟨before, -, enters⟩ | ⟨before, -, leaves⟩
  · rw [show t = s from same, itemsFlood_still rfl]
    exact ⟨⟨[], rfl, rfl⟩, ItemsFollow.refl p s, .refl .., .refl ..⟩
  · exact turned true before enters
  · exact turned false before leaves

/-- R57: what flood evaluation tells where it can only enter flood mode. -/
theorem evaluateFlood_told {p : Pos} {s : State} (h : (s.loads.get p).flood = true → (s.loads.get p).x < (s.loads.get p).load) :
    let t := evaluateFlood p s
    Told (fun l => atBoth p (loadNotices p s t) l ++ atDesk p (itemNotices p (itemsFlood p s t) s) l) s t ∧
      (∀ q, t.lists.get q = if q = p ∧ (t.loads.get p).flood ≠ (s.loads.get p).flood then
        { s.lists.get p with ann := (s.lists.get p).ann.map (floodStopped s) } else s.lists.get q) := by
  intro t
  rcases evaluateFlood_ways p s with same | ⟨before, -, enters⟩ | ⟨before, low, -⟩
  · rw [show t = s from same, itemsFlood_still rfl, loadNotices_still rfl, itemNotices_noItems]
    exact ⟨(Told.refl s).congr fun l => by simp [atBoth, atDesk], fun q => by simp⟩
  · have loads : t.loads.get p = { s.loads.get p with flood := true } := by
      rw [show t = floodTurned p true s from enters, floodTurned_loads, modLoad_get_self]
    have turn : (t.loads.get p).flood ≠ (s.loads.get p).flood := by rw [loads, before]; simp
    refine ⟨?_, fun q => ?_⟩
    · rw [itemsFlood_turned turn, loadNotices, if_neg turn, loads, show t = floodTurned p true s from enters]
      exact floodEntered_told p s
    · rw [show t = floodTurned p true s from enters, floodEntered_lists]
      rw [show t = floodTurned p true s from enters] at turn
      simp [turn]
  · exact absurd (h before) (Nat.not_lt.2 low)

/-- R54: what an addition to the load leaves outside the loads. -/
theorem addLoad_spec (p : Pos) (w : Nat) (s : State) : let t := addLoad p w s
    (∃ ls, Journaled ls s t) ∧ ItemsFollow p (itemsFlood p s t) s t ∧ MarksOnly s t ∧ KeepsStanding p s t := by
  intro t
  have work : t = evaluateFlood p (modLoad p (PosLoad.added w) s) := addLoad_eq p w s
  clear_value t
  subst work
  obtain ⟨⟨ls, entry⟩, follow, marks, stands⟩ := evaluateFlood_spec p (modLoad p (PosLoad.added w) s)
  have before : ((modLoad p (PosLoad.added w) s).loads.get p).flood = (s.loads.get p).flood := by simp
  have item : itemsFlood p (modLoad p (PosLoad.added w) s) (evaluateFlood p (modLoad p (PosLoad.added w) s)) = itemsFlood p s _ :=
    itemsFlood_congr before rfl
  rw [item] at follow
  have added : Kept [.loads] s (modLoad p (PosLoad.added w) s) := (quiet_modLoad ..).kept
  exact ⟨⟨ls, (Journaled.of_kept added (by simp)).trans entry rfl⟩, follow, (MarksOnly.of_kept added (by simp)).trans marks,
    (KeepsStanding.of_kept added (by simp) (by simp) p).trans stands⟩

/-- R54, R57: what an addition to a sound load tells, and what it leaves of the lists. -/
theorem addLoad_told {p : Pos} {s : State} (h : (s.loads.get p).flood = true → (s.loads.get p).x < (s.loads.get p).load) (w : Nat)
    (bound : (s.loads.get p).flood = true → (s.loads.get p).load ≤ 65535) : let t := addLoad p w s
    Told (fun l => atBoth p (loadNotices p s t) l ++ atDesk p (itemNotices p (itemsFlood p s t) s) l) s t ∧
      (∀ q, t.lists.get q = if q = p ∧ (t.loads.get p).flood ≠ (s.loads.get p).flood then
        { s.lists.get p with ann := (s.lists.get p).ann.map (floodStopped s) } else s.lists.get q) := by
  intro t
  have before : ((modLoad p (PosLoad.added w) s).loads.get p).flood = (s.loads.get p).flood := by simp
  have higher : ((modLoad p (PosLoad.added w) s).loads.get p).flood = true →
      ((modLoad p (PosLoad.added w) s).loads.get p).x < ((modLoad p (PosLoad.added w) s).loads.get p).load := fun flood => by
    rw [before] at flood
    have above := h flood
    have max := bound flood
    rw [modLoad_get_self, PosLoad.added_x]
    rcases Nat.lt_or_ge 65535 ((s.loads.get p).load + w) with above' | within
    · rw [PosLoad.added_of_lt above']; simp only; omega
    · rw [PosLoad.added_of_le within]; simp only; omega
  obtain ⟨told, lists⟩ := evaluateFlood_told higher
  have item : itemsFlood p (modLoad p (PosLoad.added w) s) (evaluateFlood p (modLoad p (PosLoad.added w) s)) = itemsFlood p s t :=
    itemsFlood_congr before rfl
  have notice : loadNotices p (modLoad p (PosLoad.added w) s) (evaluateFlood p (modLoad p (PosLoad.added w) s)) = loadNotices p s t :=
    loadNotices_congr before rfl
  rw [item, notice] at told
  rw [before] at lists
  exact ⟨Told.from_links told rfl, lists⟩

end Sys2Proof.Machine
end

section
/-! PROOFS. The decay of a load, the configuration of a position, and the sweep that an exit from flood mode runs. -/

namespace Sys2Proof.Machine

/-! ### The sweep of an exit from flood mode (R36) -/

/-- R36: what the sweep announces: the best-ranked deferred entries, as many as the annunciation list has room for. -/
def swept (p : Pos) (s : State) : List Notice :=
  ((s.lists.get p).deferred.take (128 - (s.lists.get p).ann.length)).map fun e =>
    annunciation s p e.alarm e.time (lifecycleOf s e.alarm)

theorem annunciation_congr {s t : State} (h : MarksOnly s t) (p : Pos) (i : Nat) (time : Word) (lc : Lifecycle) :
    annunciation t p i time lc = annunciation s p i time lc := by
  rw [annunciation, annunciation, h.priorityOf, h.defn]

theorem swept_congr {s t : State} {p : Pos} (h : MarksOnly s t) (deferred : (t.lists.get p).deferred = (s.lists.get p).deferred)
    (ann : (t.lists.get p).ann.length = (s.lists.get p).ann.length) : swept p t = swept p s := by
  simp only [swept, deferred, ann]
  exact List.map_congr_left fun e _ => by rw [annunciation_congr h, h.lifecycleOf]

theorem told_joinAnn (p : Pos) (i : Nat) (t : Word) (s : State) :
    Told (atDesk p [annunciation s p i t (lifecycleOf s i)]) s (joinAnn p i t s) :=
  Told.from_links (told_notify_desk p (annunciation s p i t (lifecycleOf s i)) _) rfl

theorem marksOnly_promoted (p : Pos) (e : ListEntry) (s : State) : MarksOnly s (promoted p e s) :=
  (MarksOnly.of_alarms (s := s) (t := leaveDeferred p e.alarm s) rfl).trans (marksOnly_joinAnn ..)

theorem told_promoted (p : Pos) (e : ListEntry) (s : State) :
    Told (atDesk p [annunciation s p e.alarm e.time (lifecycleOf s e.alarm)]) s (promoted p e s) :=
  Told.from_links (told_joinAnn p e.alarm e.time (leaveDeferred p e.alarm s)) rfl

theorem atDesk_append (p : Pos) (a b : List Notice) (l : Link) : atDesk p (a ++ b) l = atDesk p a l ++ atDesk p b l := by
  simp only [atDesk]; split <;> simp

theorem promoteAll_stops {n : Nat} {p : Pos} {s : State} (h : promote? p s = none) : promoteAll n p s = s := by
  cases n with
  | zero => rfl
  | succ n => simp only [promoteAll, h]

/-- R36: outside flood mode, repeated promotion announces the entries swept. -/
theorem told_promoteAll (n : Nat) (p : Pos) (s : State) (calm : (s.loads.get p).flood = false)
    (once : ((s.lists.get p).deferred.map (·.alarm)).Nodup) (enough : (s.lists.get p).deferred.length ≤ n) :
    Told (atDesk p (swept p s)) s (promoteAll n p s) := by
  have first : eligible? p s = (s.lists.get p).deferred.head? := by
    simp only [eligible?, calm, Bool.false_and, Bool.not_false]
    cases (s.lists.get p).deferred <;> rfl
  induction n generalizing s with
  | zero =>
    have empty := List.eq_nil_of_length_eq_zero (Nat.le_zero.1 enough)
    exact (Told.refl s).congr fun l => by simp [swept, empty, atDesk]
  | succ n ih =>
    cases deferred : (s.lists.get p).deferred with
    | nil =>
      rw [promoteAll_stops (by simp [promote?, first, deferred])]
      exact (Told.refl s).congr fun l => by simp [swept, deferred, atDesk]
    | cons e rest =>
      by_cases room : (s.lists.get p).ann.length < 128
      · have step : promoteAll (n + 1) p s = promoteAll n p (promoted p e s) := by
          simp [promoteAll, promote?, first, deferred, Config.annCapacity, room]
        rw [deferred, List.map_cons, List.nodup_cons] at once
        have rest' : ((promoted p e s).lists.get p).deferred = rest := by
          rw [promoted_lists, if_pos rfl, deferred]
          simp only [List.filter_cons, bne_self_eq_false, Bool.false_eq_true, if_false]
          refine List.filter_eq_self.2 fun x hx => bne_iff_ne.2 fun same => once.1 ?_
          exact same ▸ List.mem_map_of_mem hx
        have longer : ((promoted p e s).lists.get p).ann.length = (s.lists.get p).ann.length + 1 := by
          rw [promoted_lists, if_pos rfl]; exact length_insertBy ..
        have calm' : ((promoted p e s).loads.get p).flood = false := calm
        have notices : swept p s = annunciation s p e.alarm e.time (lifecycleOf s e.alarm) :: swept p (promoted p e s) := by
          have fewer : 128 - (s.lists.get p).ann.length = 128 - ((promoted p e s).lists.get p).ann.length + 1 := by omega
          simp only [swept, deferred, rest', fewer, List.take_succ_cons, List.map_cons]
          refine congrArg _ (List.map_congr_left fun x _ => ?_)
          rw [annunciation_congr (marksOnly_promoted p e s), (marksOnly_promoted p e s).lifecycleOf]
        rw [step]
        refine ((told_promoted p e s).trans (ih _ calm' (by rw [rest']; exact once.2) (by rw [rest']; simpa [deferred] using enough)
          ?_)).congr fun l => ?_
        · simp only [eligible?, calm', Bool.false_and, Bool.not_false, rest']
          cases rest <;> rfl
        · rw [notices, ← atDesk_append]; rfl
      · rw [promoteAll_stops (by simp [promote?, Config.annCapacity, room])]
        have none : 128 - (s.lists.get p).ann.length = 0 := by omega
        exact (Told.refl s).congr fun l => by simp [swept, none, atDesk]

/-- Work that leaves the horn lines and the links. -/
structure KeepsHorns (s t : State) : Prop where
  horns : ∀ q, (t.lists.get q).horn = (s.lists.get q).horn

theorem keepsHorns_promoted (p : Pos) (e : ListEntry) (s : State) : KeepsHorns s (promoted p e s) := ⟨fun q => by
  rw [promoted_lists]
  split
  · subst q; rfl
  · rfl⟩

theorem keepsHorns_refill (p : Pos) (s : State) : KeepsHorns s (refill p s) := ⟨fun q => by
  unfold refill
  split
  · split
    · rw [joinDeferred_lists]
      split
      · subst q; rfl
      · rfl
    · rfl
  · rfl⟩

theorem hornNotices_congr {p : Pos} {s s' t t' : State} (before : (s'.lists.get p).horn = (s.lists.get p).horn)
    (after : (t'.lists.get p).horn = (t.lists.get p).horn) : hornNotices p s' t' = hornNotices p s t := by
  simp only [hornNotices, before, after]

/-- R36: what an exit's sweep tells. -/
theorem told_restoreLists (p : Pos) (s : State) (calm : (s.loads.get p).flood = false)
    (once : ((s.lists.get p).deferred.map (·.alarm)).Nodup) :
    Told (atDesk p (swept p s ++ hornNotices p s (restoreLists p s))) s (restoreLists p s) := by
  let u := promoteAll (s.lists.get p).deferred.length p s
  let v := refillAll Config.deferredCapacity p u
  have refilled : Told (fun _ => []) u v := .of_links ((quiet_refillAll u _ p).kept.agrees .links (by simp))
  have horns : KeepsHorns s v := restored (R := KeepsHorns) (fun s => ⟨fun _ => rfl⟩)
    (fun h k => ⟨fun q => (k.horns q).trans (h.horns q)⟩) (keepsHorns_promoted p) (keepsHorns_refill p) _ _ s
  refine (((told_promoteAll _ p s calm once (Nat.le_refl _)).trans refilled).trans (told_judgeHorn p v)).congr fun l => ?_
  rw [hornNotices_congr (horns.horns p) rfl, atDesk_append, List.append_nil]
  rfl

/-- R58: what an exit from flood mode tells. -/
theorem floodLeft_told (p : Pos) (s : State) (once : ((s.lists.get p).deferred.map (·.alarm)).Nodup) :
    Told (fun l => atBoth p [.load p (s.loads.get p).load false (s.loads.get p).limit] l ++
      atDesk p (swept p s ++ hornNotices p s (floodTurned p false s)) l ++
      atDesk p (itemNotices p (floodItems p false (s.loads.get p).load) s) l) s (floodTurned p false s) := by
  obtain ⟨-, -, -, -, notices, items⟩ := floodTurned_spec p false s
  have told := kept_floodTold p false s
  have lists : (floodTold p false s).lists = s.lists := told.agrees .lists (by simp)
  have marks : MarksOnly s (floodTold p false s) := .of_kept told (by simp)
  let u := modLists p (fun v => { v with ann := v.ann.map (floodRestarted (floodTold p false s)) }) (floodTold p false s)
  have at_p : u.lists.get p = { s.lists.get p with ann := (s.lists.get p).ann.map (floodRestarted (floodTold p false s)) } := by
    rw [modLists_get_self, lists]
  have calm : (u.loads.get p).flood = false := by
    have loads : u.loads = (modLoad p (fun d => { d with flood := false }) s).loads :=
      ((quiet_append ..).kept.mono (qs := [.journal, .links]) (by simp)).trans ((quiet_notifyBoth ..).kept.mono (by simp)) |>.agrees
        .loads (by simp)
    rw [loads, modLoad_get_self]
  have restored : Told (atDesk p (swept p s ++ hornNotices p s (floodTurned p false s))) (floodTold p false s) (floodListed p false s) := by
    have sweep := told_restoreLists p u calm (by rw [at_p]; exact once)
    have same : swept p u = swept p s := swept_congr (marks.trans (.of_alarms rfl)) (by rw [at_p]) (by rw [at_p]; simp)
    have horn : hornNotices p u (restoreLists p u) = hornNotices p s (floodTurned p false s) := by
      refine hornNotices_congr (by rw [at_p]) ?_
      rw [floodTurned_eq, show (floodReport p false (s.loads.get p).load (floodListed p false s)).lists = (floodListed p false s).lists
        from (quiet_floodReport ..).kept.agrees .lists (by simp)]
      rfl
    rw [same, horn] at sweep
    exact Told.from_links sweep rfl
  exact (notices.trans restored).trans items

/-! ### Work on a load that is then evaluated -/

theorem evaluateFlood_turned {p : Pos} {s : State} (h : ((evaluateFlood p s).loads.get p).flood ≠ (s.loads.get p).flood) :
    evaluateFlood p s = floodTurned p (!(s.loads.get p).flood) s := by
  rcases evaluateFlood_ways p s with same | ⟨before, -, turned⟩ | ⟨before, -, turned⟩
  · exact absurd (by rw [same]) h
  · rw [turned, before]; rfl
  · rw [turned, before]; rfl

/-- R56 to R58, R136: an evaluation after work on the load of a position, told from the state before that work. -/
structure Evaluated (p : Pos) (s t : State) : Prop where
  still : (t.loads.get p).flood = (s.loads.get p).flood → Kept [.loads] s t
  turned : (t.loads.get p).flood ≠ (s.loads.get p).flood → Journaled [⟨if (t.loads.get p).flood then .floodEntered else .floodLeft,
    some p, none, none, (t.loads.get p).load⟩] s t
  follow : ItemsFollow p (itemsFlood p s t) s t
  told : ((s.lists.get p).deferred.map (·.alarm)).Nodup → Told (fun l => atBoth p (loadNotices p s t) l ++
    atDesk p ((if (s.loads.get p).flood = true ∧ (t.loads.get p).flood = false then swept p s else []) ++ hornNotices p s t ++
      itemNotices p (itemsFlood p s t) s) l) s t

theorem Evaluated.of_still {p : Pos} {s t : State} (h : Kept [.loads] s t) (same : (t.loads.get p).flood = (s.loads.get p).flood) :
    Evaluated p s t where
  still _ := h
  turned turn := absurd same turn
  follow := itemsFlood_still same ▸ itemsFollow_of_positions p (h.agrees .positions (by simp))
  told _ := (Told.of_links (h.agrees .links (by simp))).congr fun l => by
    have lists : t.lists = s.lists := h.agrees .lists (by simp)
    have off : ¬((s.loads.get p).flood = true ∧ (t.loads.get p).flood = false) := by rw [same]; simp
    rw [loadNotices_still same, itemsFlood_still same, itemNotices_noItems, if_neg off]
    simp [atBoth, atDesk, hornNotices, lists]

theorem evaluated (p : Pos) {s m : State} (work : Kept [.loads] s m) (same : (m.loads.get p).flood = (s.loads.get p).flood) :
    Evaluated p s (evaluateFlood p m) := by
  by_cases still : ((evaluateFlood p m).loads.get p).flood = (m.loads.get p).flood
  · rw [evaluateFlood_eq_self still]
    exact .of_still work same
  have way := evaluateFlood_turned still
  generalize evaluateFlood p m = t at still way
  have turn : (t.loads.get p).flood ≠ (s.loads.get p).flood := same ▸ still
  have loads : t.loads.get p = { m.loads.get p with flood := !(m.loads.get p).flood } := by
    rw [way, floodTurned_loads, modLoad_get_self]
  obtain ⟨entry, follow, -, -, -, -⟩ := floodTurned_spec p (!(m.loads.get p).flood) m
  rw [← way] at entry follow
  have positions : m.positions = s.positions := work.agrees .positions (by simp)
  have links : m.links = s.links := work.agrees .links (by simp)
  have lists : m.lists = s.lists := work.agrees .lists (by simp)
  have time : m.millTime = s.millTime := (work.agrees .clock (by simp)).1
  refine ⟨fun same => absurd same turn, fun _ => ?_, ?_, fun once => ?_⟩
  · rw [loads]; exact (Journaled.of_kept work (by simp)).after entry time
  · rw [itemsFlood_turned turn, loads]; exact follow.congr positions rfl
  · have item : itemsFlood p s t = floodItems p (!(m.loads.get p).flood) (m.loads.get p).load := by rw [itemsFlood_turned turn, loads]
    have notice : loadNotices p s t = [.load p (m.loads.get p).load (!(m.loads.get p).flood) (m.loads.get p).limit] := by
      rw [loadNotices, if_neg turn, loads]
    rw [item, notice, loads, ← same]
    cases before : (m.loads.get p).flood with
    | false =>
      rw [before] at way
      have horn : hornNotices p s t = [] := by
        rw [hornNotices, if_pos]; rw [show t = floodTurned p true m from way, floodEntered_lists, if_pos rfl, lists]
      refine ((way ▸ floodEntered_told p m : Told _ m t).from_links links).congr fun l => ?_
      rw [horn, itemNotices_congr p _ positions]
      simp
    | true =>
      rw [before] at way
      have horn : hornNotices p s t = hornNotices p m t := hornNotices_congr (by rw [lists]) rfl
      have sweep : swept p s = swept p m := (swept_congr (.of_kept work (by simp)) (by rw [lists]) (by rw [lists])).symm
      refine ((way ▸ floodLeft_told p m (by rwa [lists]) : Told _ m t).from_links links).congr fun l => ?_
      rw [horn, sweep, itemNotices_congr p _ positions]
      simp [atDesk_append]

/-- R55: the load state after the decrement, before flood evaluation. -/
def PosLoad.decayed (d : PosLoad) : PosLoad := { d with load := d.load - decrement d.load d.k, decay := 1 }

theorem decrement_eq {load k : Nat} (h : 0 < load) : decrement load k = max 1 (load * k / 1024) := by
  simp only [decrement]; split <;> omega

theorem decay_eq (p : Pos) (s : State) : decay p s = if (s.loads.get p).decayed.load = (s.loads.get p).load then
    modLoad p PosLoad.decayed s else evaluateFlood p (modLoad p PosLoad.decayed s) := rfl

/-- R55: the load after a decay expiry. -/
theorem decay_loads (p : Pos) (s : State) :
    ∃ flood, (decay p s).loads.get p = { (s.loads.get p).decayed with flood := flood } ∧
    ((s.loads.get p).decayed.load = (s.loads.get p).load → flood = (s.loads.get p).flood) ∧
    ((s.loads.get p).decayed.load ≠ (s.loads.get p).load → flood = if (s.loads.get p).flood then
      decide ((s.loads.get p).x < (s.loads.get p).decayed.load) else decide ((s.loads.get p).e ≤ (s.loads.get p).decayed.load)) := by
  rw [decay_eq]
  split <;> rename_i same
  · exact ⟨_, modLoad_get_self .., fun _ => rfl, fun other => absurd same other⟩
  · exact ⟨_, by rw [evaluateFlood_loads, modLoad_get_self]; rfl, fun h => absurd h same, fun _ => rfl⟩

theorem decay_evaluated (p : Pos) (s : State) : Evaluated p s (decay p s) := by
  have work : Kept [.loads] s (modLoad p PosLoad.decayed s) := (quiet_modLoad ..).kept
  rw [decay_eq]
  split
  · exact .of_still work (by rw [modLoad_get_self]; rfl)
  · exact evaluated p work (by rw [modLoad_get_self]; rfl)

/-- Settles O31. -/
theorem decayTakesOffItsShare : Obligations.DecayTakesOffItsShare := by
  intro p s due
  have at_p : AtPos p s (decay p s) := by
    rw [decay_eq]
    exact .ite (fun _ => atPos_modLoad ..) fun _ => (atPos_modLoad ..).trans (atPos_evaluateFlood ..)
  have quiet : Quiet [.loads, .links, .journal, .lists, .alarms, .positions] s (decay p s) := by
    rw [decay_eq]
    exact .ite (fun _ => (quiet_modLoad ..).mono (by simp)) fun _ => ((quiet_modLoad ..).mono (by simp)).trans
      ((quiet_evaluateFlood ..).mono (by simp))
  refine event_done (out := execDecayExpiry p s) rfl (by simp only [due, if_true]) quiet fun t done => ?_
  have still := done.same
  have loads : t.loads = (decay p s).loads := still.agrees .loads nofun
  have lists : t.lists = (decay p s).lists := still.agrees .lists nofun
  have alarms : t.alarms = (decay p s).alarms := still.agrees .alarms nofun
  have positions : t.positions = (decay p s).positions := still.agrees .positions nofun
  obtain ⟨unturned, turned, follow, told⟩ := decay_evaluated p s
  obtain ⟨flood, load, same, other⟩ := decay_loads p s
  have item : itemsFlood p s t = itemsFlood p s (decay p s) := itemsFlood_congr rfl (by rw [loads])
  have decrease : 0 < (s.loads.get p).load → (s.loads.get p).decayed.load = (s.loads.get p).load -
      max 1 ((s.loads.get p).load * (s.loads.get p).k / 1024) := fun positive => by rw [PosLoad.decayed, decrement_eq positive]
  have zero : (s.loads.get p).load = 0 → (s.loads.get p).decayed.load = 0 := fun z => by simp [PosLoad.decayed, z]
  rw [← loads] at load turned unturned
  refine ⟨⟨fun z => ?_, fun positive => ?_, fun changed => ?_, fun unchanged => ?_, fun was is => ?_, fun was is => ?_, ?_⟩,
    fun q hq => ⟨loads ▸ at_p.loads q hq, lists ▸ at_p.lists q hq⟩, ?_, fun once => ?_, fun i => ?_, ?_, done.noReply, done.lines,
    done.kept quiet.kept (by simp)⟩
  · rw [load]; exact ⟨zero z, same ((zero z).trans z.symm)⟩
  · rw [load]; exact decrease positive
  · rw [load] at changed ⊢; exact other changed
  · have keep := unturned unchanged
    exact ⟨(still.agrees .journal nofun).1.trans (keep.agrees .journal (by simp)).1, lists.trans (keep.agrees .lists (by simp)),
      alarms.trans (keep.agrees .alarms (by simp)), positions.trans (keep.agrees .positions (by simp))⟩
  · have entry := turned (by rw [was, is]; nofun)
    rw [is] at entry
    exact done.journaled entry
  · have entry := turned (by rw [was, is]; nofun)
    rw [is] at entry
    exact done.journaled entry
  · rw [load]; exact ⟨rfl, rfl, rfl, rfl, rfl, rfl⟩
  · rw [item]; exact follow.congr rfl positions
  · refine done.announced _ ((told once).congr fun l => ?_)
    have notice : loadNotices p s t = loadNotices p s (decay p s) := loadNotices_congr rfl (by rw [loads])
    have horn : hornNotices p s t = hornNotices p s (decay p s) := hornNotices_congr rfl (by rw [lists])
    rw [item, notice, horn, loads]
    split <;> rfl
  · rw [alarm?_congr alarms]; exact at_p.settled i
  · exact DesksKept.congr at_p.desks rfl positions

/-! ### The configuration of a position -/

theorem posOf_num (p : Pos) : posOf p.num = p := by cases p <;> rfl

theorem positionMarks_congr {s t : State} (positions : t.positions = s.positions) (loads : t.loads = s.loads) (p : Pos)
    (f : PositionFields) : positionMarks t p f = positionMarks s p f := by simp only [positionMarks, positions, loads]

/-- R91, R49: the position context and the load state that a configuration leaves. -/
theorem configure_spec (p : Pos) (f : PositionFields) (s : State) :
    let u := configure p f s; let d := (s.loads.get p).configured f
    Evaluated p (modPos p (PosContext.configured f) s) u ∧ AtPos p (modPos p (PosContext.configured f) s) u ∧
      u.loads.get p = { d with flood := if d.flood then decide (d.x < d.load) else decide (d.e ≤ d.load) } := by
  have work : Kept [.loads] (modPos p (PosContext.configured f) s)
    (modLoad p (PosLoad.configured f) (modPos p (PosContext.configured f) s)) := (quiet_modLoad ..).kept
  refine ⟨evaluated p work (by rw [modLoad_get_self]; rfl), (atPos_modLoad ..).trans (atPos_evaluateFlood ..), ?_⟩
  rw [configure, evaluateFlood_loads, modLoad_get_self]
  rfl

/-- Settles O51. -/
theorem definePositionStoresTheConfiguration : Obligations.DefinePositionStoresTheConfiguration := by
  intro h p f s hp at_p
  have spec := configure_spec p f (takeFrame h.link s)
  have quiet : Quiet [.positions, .loads, .lists, .alarms, .journal, .links] (takeFrame h.link s) (configure p f (takeFrame h.link s)) :=
    (((quiet_modPos ..).mono (by simp)).trans ((quiet_modLoad ..).mono (by simp))).trans ((quiet_evaluateFlood ..).mono (by simp))
  have checked : firstRefusal [positionCheck f.position] = none := by
    rw [at_p]; cases p <;> rfl
  have body : judged [positionCheck f.position] (takeFrame h.link s) (fun s => let t := configure (posOf f.position) f s
      (t, doneWith (positionMarks t (posOf f.position) f))) = (configure p f (takeFrame h.link s),
        .done [positionMarks (configure p f (takeFrame h.link s)) p f] false) := by
    rw [judged_of_none checked, at_p, posOf_num]; rfl
  refine request_done (out := exec (.definePosition h f) s) rfl hp body quiet fun t done => ?_
  have still := done.same
  generalize configure p f (takeFrame h.link s) = u at spec quiet done still
  obtain ⟨⟨unturned, turned, follow, -⟩, place, load⟩ := spec
  have context : (modPos p (PosContext.configured f) (takeFrame h.link s)).positions.get p =
    (s.positions.get p).configured f := modPos_get_self ..
  have positions : t.positions = u.positions := still.agrees .positions nofun
  have loads : t.loads = u.loads := still.agrees .loads nofun
  have lists : t.lists = u.lists := still.agrees .lists nofun
  have alarms : t.alarms = u.alarms := still.agrees .alarms nofun
  have others := itemsFollow_others follow place.desks
  have unchanged (same : (t.loads.get p).flood = (s.loads.get p).flood) :
      Kept [.loads] (modPos p (PosContext.configured f) (takeFrame h.link s)) u := unturned (by rw [← loads]; exact same)
  have entered (turn : (t.loads.get p).flood ≠ (s.loads.get p).flood) := turned (by rw [← loads]; exact turn)
  rw [← loads] at load entered
  refine ⟨?_, ⟨?_, ?_, ?_, ?_, ?_, ?_, ?_, ?_, fun same => ?_, fun was is => ?_, fun was is => ?_⟩, ?_, fun q hq => ⟨?_, ?_, ?_⟩, fun i => ?_,
    done.lines, done.kept quiet.kept (by simp)⟩
  · have desk := place.desks p
    rw [← positions, context] at desk
    rw [desk, PosContext.configured, clamp_eq (by omega), clamp_eq (by omega), clamp_eq (by omega), clamp_eq (by omega),
      clamp_eq (by omega)]
    simp
  · rw [load]; rfl
  · rw [load]; rfl
  · rw [load]; rfl
  · rw [load]; exact clamp_eq (by omega) _
  · rw [load]; exact clamp_eq (by omega) _
  · rw [load]; rfl
  · rw [load]; exact clamp_eq (by omega) _
  · rw [load]; rfl
  · have keep := unchanged same
    refine ⟨(still.agrees .journal nofun).1.trans (keep.agrees .journal (by simp)).1, lists.trans (keep.agrees .lists (by simp)),
      alarms.trans (keep.agrees .alarms (by simp)), ?_⟩
    rw [positions, show u.positions = _ from keep.agrees .positions (by simp), context]
    rfl
  · have entry := entered (by rw [was, is]; nofun)
    rw [is, load] at entry
    exact done.journaled entry
  · have entry := entered (by rw [was, is]; nofun)
    rw [is, load] at entry
    exact done.journaled entry
  · have replied := done.replied
    rwa [positionMarks_congr positions.symm loads.symm] at replied
  · rw [positions, others q hq, modPos_get, if_neg hq]; rfl
  · rw [loads]; exact place.loads q hq
  · rw [lists]; exact place.lists q hq
  · rw [alarm?_congr alarms]; exact place.settled i

end Sys2Proof.Machine
end

section
/-! PROOFS. The reports of a placement, a reraise and a return: what they do to the alarm, the lists, the load and the items, and what
they tell. -/

namespace Sys2Proof.Machine

/-! ### A placement on the lists -/

theorem annunciation_settled {q : Pos} {s t : State} (h : AtPos q s t) (p : Pos) (i : Nat) (time : Word) (lc : Lifecycle) :
    annunciation t p i time lc = annunciation s p i time lc := by
  rw [annunciation, annunciation, h.priorityOf, show (alarmAt t i).defn.area = (alarmAt s i).defn.area from
    congrArg (fun x => x.1.area) (h.alarmAt i)]

/-- R27, R28: what a placement tells. -/
theorem told_placeOnLists (p : Pos) (i : Nat) (t : Word) (s : State) :
    Told (atDesk p (placementNotices p i t (lifecycleOf s i) s)) s (placeOnLists p i t s) := by
  have joined (u : State) (h : AtPos p s u) : Told (atDesk p [annunciation s p i t (lifecycleOf s i)]) u (joinAnn p i t u) := by
    rw [← annunciation_settled h, ← h.lifecycleOf]; exact told_joinAnn p i t u
  have quiet (u : State) (j : Nat) (time : Word) : Told (fun _ => []) u (insertDeferred p j time u) :=
    .of_links ((quiet_insertDeferred ..).kept.agrees .links (by simp))
  rcases placeOnLists_ways p i t s (lifecycleOf s i) with ⟨way, told⟩ | ⟨way, told⟩ | ⟨low, -, way, told⟩ <;> rw [way, told]
  · exact (Told.from_links (quiet (stamped i t s) i t) rfl).congr fun l => by simp [atDesk]
  · exact Told.from_links (joined _ (atPos_stamped p i t s)) rfl
  · have left : AtPos p s (displaced p low (stamped i t s)) :=
      (((atPos_stamped p i t s).trans (atPos_leaveAnn ..)).trans (atPos_notify ..)).trans (atPos_insertDeferred ..)
    refine (((Told.from_links (told_notify_desk p (.retract low.alarm .displaced) (leaveAnn p low.alarm (stamped i t s))) rfl).trans
      (quiet _ low.alarm low.time)).trans (joined _ left)).congr fun l => ?_
    rw [List.append_nil, ← atDesk_append]; rfl

theorem standsAt_joinDeferred (p : Pos) (i : Nat) (t : Word) (s : State) : standsAt (joinDeferred p i t s) p i = true := by
  rw [standsAt_iff, joinDeferred_lists, if_pos rfl]
  exact .inr (.inl ⟨_, mem_insertBy.2 (.inl rfl), rfl⟩)

theorem standsAt_setOverflow {i : Nat} {s : State} (h : (alarm? s i).isSome = true) (p : Pos) :
    standsAt (setOverflow i true s) p i = true := by
  rw [standsAt_iff, setOverflow, alarmAt_modDyn_self, if_pos h]
  exact .inr (.inr rfl)

theorem standsAt_insertDeferred {i : Nat} {s : State} (h : (alarm? s i).isSome = true) (p : Pos) (t : Word) :
    standsAt (insertDeferred p i t s) p i = true := by
  simp only [insertDeferred]
  split
  · exact standsAt_joinDeferred ..
  · split
    · split
      · exact standsAt_joinDeferred ..
      · exact standsAt_setOverflow h p
    · exact standsAt_setOverflow h p

theorem standsAt_joinAnn (p : Pos) (i : Nat) (t : Word) (s : State) : standsAt (joinAnn p i t s) p i = true := by
  rw [standsAt_iff, joinAnn_ann]
  exact .inl ⟨_, mem_insertBy.2 (.inl rfl), rfl⟩

/-- R27: a placed alarm stands at the position. -/
theorem standsAt_placeOnLists {i : Nat} {s : State} (h : (alarm? s i).isSome = true) (p : Pos) (t : Word) :
    standsAt (placeOnLists p i t s) p i = true := by
  have timed : (alarm? (stamped i t s) i).isSome = true := by
    obtain ⟨a, ha⟩ := Option.isSome_iff_exists.1 h
    rw [alarm?_modDyn_self ha]; rfl
  rcases placeOnLists_ways p i t s .normal with ⟨way, -⟩ | ⟨way, -⟩ | ⟨low, -, way, -⟩ <;> rw [way]
  · exact standsAt_insertDeferred timed ..
  · exact standsAt_joinAnn ..
  · exact standsAt_joinAnn ..

/-! ### A weight, where the report carries one -/

/-- R29, R31: the weight of a report that is weighted. -/
abbrev weighed (b : Bool) (p : Pos) (w : Nat) (s : State) : State := if b then addLoad p w s else s

theorem addLoad_evaluated (p : Pos) (w : Nat) (s : State) :
    (addLoad p w s).loads.get p = ((s.loads.get p).added w).evaluated := by
  rw [addLoad_loads]; simp [PosLoad.evaluated]

theorem weighed_spec (b : Bool) (p : Pos) (w : Nat) (s : State) : let t := weighed b p w s
    (∃ ls, Journaled ls s t) ∧ ItemsFollow p (itemsFlood p s t) s t ∧ MarksOnly s t ∧ KeepsStanding p s t ∧ AtPos p s t ∧
      t.loads.get p = (if b then ((s.loads.get p).added w).evaluated else s.loads.get p) := by
  cases b with
  | true =>
    obtain ⟨entries, follow, marks, stands⟩ := addLoad_spec p w s
    exact ⟨entries, follow, marks, stands, atPos_addLoad .., addLoad_evaluated ..⟩
  | false => exact ⟨⟨[], rfl, rfl⟩, itemsFlood_still (p := p) rfl ▸ ItemsFollow.refl p s, .refl .., .refl .., .refl .., rfl⟩

theorem weighed_told (b : Bool) {p : Pos} {s : State} (sound : (s.loads.get p).Sound) (w : Nat) : let t := weighed b p w s
    Told (fun l => atBoth p (loadNotices p s t) l ++ atDesk p (itemNotices p (itemsFlood p s t) s) l) s t ∧
      (∀ q, t.lists.get q = if q = p ∧ (t.loads.get p).flood ≠ (s.loads.get p).flood then
        { s.lists.get p with ann := (s.lists.get p).ann.map (floodStopped s) } else s.lists.get q) := by
  obtain ⟨load, -, -, -, -, -, -, above, -⟩ := sound
  cases b with
  | true => exact addLoad_told above w fun _ => load
  | false =>
    have notice : loadNotices p s (weighed false p w s) = [] := loadNotices_still rfl
    have item : itemsFlood p s (weighed false p w s) = noItems := itemsFlood_still rfl
    refine ⟨(Told.refl s).congr fun l => ?_, fun q => (if_neg fun turned => turned.2 rfl).symm⟩
    rw [notice, item, itemNotices_noItems]
    simp [atBoth, atDesk]

theorem weighed_horn (b : Bool) {p : Pos} {s : State} (sound : (s.loads.get p).Sound) (w : Nat) :
    ((weighed b p w s).lists.get p).horn = (s.lists.get p).horn := by
  rw [(weighed_told b sound w).2]; split <;> rfl

/-! ### The PLACE report (R27 to R29) -/

theorem unack_isSummary {d : AlarmDef} (h : d.Sound) : summaryKinds.contains (.unack d.priority) = true := by
  obtain ⟨-, low, high, -⟩ := h
  interval_cases d.priority <;> rfl

/-- R27: an alarm is on the lists of its position, and the horn line is judged. -/
abbrev listed (p : Pos) (i : Nat) (s : State) : State := judgeHorn p (placeOnLists p i s.millTime s)

theorem quiet_listed (p : Pos) (i : Nat) (s : State) : Quiet [.alarms, .lists, .links] s (listed p i s) :=
  (quiet_placeOnLists ..).comp (quiet_judgeHorn ..) (by simp) (by simp)

theorem placeReport_eq (i : Nat) (weighted : Bool) (s : State) : placeReport i weighted s =
    placedReport (ownerOf s i) i (weighed weighted (ownerOf s i) (arrivalWeight (priorityOf s i)) (listed (ownerOf s i) i s)) := by
  have place : AtPos (ownerOf s i) s (listed (ownerOf s i) i s) := (atPos_placeOnLists ..).trans (atPos_judgeHorn ..)
  simp only [placeReport, weighed, place.priorityOf]

section place
variable {i : Nat} {a : Alarm} {s : State} (present : alarm? s i = some a) (weighted : Bool)
include present

/-- R27 to R29: what a PLACE report leaves of the alarm, the load and the journal. -/
theorem placeReport_spec : let p := ownerOf s i; let t := placeReport i weighted s
    (∃ m, alarm? t i = some { a with dyn := { a.dyn with annTime := some s.millTime, overflow := m } }) ∧ standsAt t p i = true ∧
      (∃ ls, Journaled ls s t) ∧ t.loads.get p = if weighted then
        ((s.loads.get p).added (arrivalWeight a.defn.priority)).evaluated else s.loads.get p := by
  intro p t
  have priority : priorityOf s i = a.defn.priority := congrArg (·.defn.priority) (alarmAt_eq present)
  have way : t = placedReport p i (weighed weighted p (arrivalWeight (priorityOf s i)) (listed p i s)) := placeReport_eq ..
  have quiet := quiet_listed p i s
  have time : (listed p i s).millTime = s.millTime := (quiet.kept.agrees .clock (by simp)).1
  have loads : (listed p i s).loads = s.loads := quiet.kept.agrees .loads (by simp)
  obtain ⟨⟨ls, entries⟩, -, marks, stands, -, load⟩ := weighed_spec weighted p (arrivalWeight (priorityOf s i)) (listed p i s)
  have report : Kept [.positions, .links, .free] (weighed weighted p (arrivalWeight (priorityOf s i)) (listed p i s)) t :=
    way ▸ (quiet_placedReport ..).kept
  have time' : (weighed weighted p (arrivalWeight (priorityOf s i)) (listed p i s)).millTime = (listed p i s).millTime :=
    ((show Quiet [.alarms, .lists, .links, .loads, .journal, .positions] _ _ from .when (quiet_addLoad ..)).kept.agrees .clock
      (by simp)).1
  have records : MarksOnly (stamped i s.millTime s) t :=
    (((marksOnly_placeOnLists ..).trans (.of_kept (quiet_judgeHorn ..).kept (by simp))).trans marks).trans (.of_kept report (by simp))
  obtain ⟨m, hm⟩ := records.find (alarm?_modDyn_self present _)
  refine ⟨⟨m, hm⟩, ?_, ⟨ls, ?_⟩, ?_⟩
  · have placed := (keepsStanding_judgeHorn p _).stands i (standsAt_placeOnLists (by rw [present]; rfl) p s.millTime)
    exact (KeepsStanding.of_kept report (by simp) (by simp) p).stands i (stands.stands i placed)
  · exact ((Journaled.of_kept quiet.kept (by simp)).after entries time).before (.of_kept report (by simp)) (time'.trans time)
  · rw [show t.loads = _ from report.agrees .loads (by simp), load, loads, priority]

/-- R29, R57, R131, R132, R136: what a PLACE report of a sound definition does to the items and tells. -/
theorem placeReport_items (sound : a.defn.Sound) : ∃ wrapped, let p := ownerOf s i; let t := placeReport i weighted s
    let work := (itemsFlood p s t).andThen (itemsPlaced wrapped a.defn.priority i)
    ItemsFollow p work s t ∧ ((s.loads.get p).Sound → Told (fun l =>
      atDesk p (placementNotices p i s.millTime a.dyn.lifecycle s ++ hornNotices p s t) l ++
        atBoth p (loadNotices p s t) l ++ atDesk p (itemNotices p work s) l) s t) := by
  generalize hp : ownerOf s i = p
  generalize ht : placeReport i weighted s = t
  have priority : priorityOf s i = a.defn.priority := congrArg (·.defn.priority) (alarmAt_eq present)
  have lifecycle : lifecycleOf s i = a.dyn.lifecycle := congrArg (·.dyn.lifecycle) (alarmAt_eq present)
  generalize hu : weighed weighted p (arrivalWeight (priorityOf s i)) (listed p i s) = u
  have way : t = placedReport p i u := by rw [← ht, ← hu, ← hp]; exact placeReport_eq ..
  have quiet := quiet_listed p i s
  have loads : (listed p i s).loads = s.loads := quiet.kept.agrees .loads (by simp)
  have positions : (listed p i s).positions = s.positions := quiet.kept.agrees .positions (by simp)
  obtain ⟨-, follow, -, -, place, load⟩ := weighed_spec weighted p (arrivalWeight (priorityOf s i)) (listed p i s)
  rw [hu] at follow place load
  have report : Kept [.positions, .links, .free] u t := way ▸ (quiet_placedReport ..).kept
  have lists : t.lists = u.lists := report.agrees .lists (by simp)
  have loads' : t.loads = u.loads := report.agrees .loads (by simp)
  have item : itemsFlood p (listed p i s) u = itemsFlood p s t := itemsFlood_congr (by rw [loads]) (by rw [loads'])
  have before : AtPos p s u := (((atPos_placeOnLists ..).trans (atPos_judgeHorn ..)).trans place)
  have later : priorityOf u i = a.defn.priority := (before.priorityOf i).trans priority
  obtain ⟨wrapped, placed, told⟩ := placedReport_spec p i u (by rw [later]; exact unack_isSummary sound)
  rw [← way, later] at placed told
  have flooded : ItemsFollow p (itemsFlood p s t) s u := item ▸ follow.congr positions rfl
  have state : (u.positions.get p).state = (s.positions.get p).state := before.desks.state p
  refine ⟨wrapped, flooded.andThen state placed, fun fit => ?_⟩
  have fit' : ((listed p i s).loads.get p).Sound := by rw [loads]; exact fit
  have weight := (weighed_told weighted fit' (arrivalWeight (priorityOf s i))).1
  have horn := weighed_horn weighted fit' (arrivalWeight (priorityOf s i))
  rw [hu] at weight horn
  have first := told_placeOnLists p i s.millTime s
  have second := told_judgeHorn p (placeOnLists p i s.millTime s)
  have notice : loadNotices p (listed p i s) u = loadNotices p s t := loadNotices_congr (by rw [loads]) (by rw [loads'])
  have sounds : hornNotices p (placeOnLists p i s.millTime s) (listed p i s) = hornNotices p s t :=
    hornNotices_congr (placeOnLists_horn ..) (by rw [lists, horn])
  rw [lifecycle] at first
  rw [sounds] at second
  rw [item, notice, itemNotices_congr p _ positions] at weight
  refine (((first.trans second).trans weight).trans told).congr fun l => ?_
  rw [itemNotices_andThen flooded state, atDesk_append, atDesk_append]
  simp only [List.append_assoc]

end place

/-! ### The RETURN and RERAISE reports (R30, R31) -/

/-- The entry of an alarm is written, told to the console, and the horn line is judged. -/
def touched (p : Pos) (i : Nat) (f : AnnEntry → AnnEntry) (s : State) : State :=
  judgeHorn p (updateNotice p i (modLists p (fun v => { v with ann := v.ann.map fun e => if e.alarm = i then f e else e }) s))

theorem hornSounds_congr {s t : State} {p : Pos} (h : MarksOnly s t) (ann : (t.lists.get p).ann = (s.lists.get p).ann) :
    hornSounds t p = hornSounds s p := by
  simp only [hornSounds, ann, h.priorityOf, h.lifecycleOf]

theorem find?_written {i : Nat} {f : AnnEntry → AnnEntry} (keeps : ∀ e, (f e).alarm = e.alarm) (es : List AnnEntry) :
    (es.map fun e => if e.alarm = i then f e else e).find? (fun e => e.alarm == i) = (es.find? fun e => e.alarm == i).map f := by
  induction es with
  | nil => rfl
  | cons e es ih =>
    by_cases h : e.alarm = i
    · simp [List.find?_cons, h, keeps]
    · simp only [List.map_cons, List.find?_cons, if_neg h, beq_eq_false_iff_ne.2 h]
      exact ih

theorem touched_spec {f : AnnEntry → AnnEntry} (keeps : ∀ e, (f e).alarm = e.alarm) (p : Pos) (i : Nat) (s : State) :
    let t := touched p i f s
    Quiet [.lists, .links] s t ∧
      t.lists.get p = { s.lists.get p with
        ann := (s.lists.get p).ann.map fun e => if e.alarm = i then f e else e, horn := hornSounds t p } ∧
      (∀ q, q ≠ p → t.lists.get q = s.lists.get q) ∧
      Told (atDesk p (((s.lists.get p).ann.find? fun e => e.alarm == i).toList.map
        (fun e => .update i (lifecycleOf s i) (f e).silenced) ++ hornNotices p s t)) s t := by
  generalize hm : modLists p (fun v => { v with ann := v.ann.map fun e => if e.alarm = i then f e else e }) s = m
  have written : Quiet [.lists] s m ∧ m.lists.get p = { s.lists.get p with
      ann := (s.lists.get p).ann.map fun e => if e.alarm = i then f e else e } ∧
      (∀ q, q ≠ p → m.lists.get q = s.lists.get q) ∧ m.links = s.links ∧ lifecycleOf m i = lifecycleOf s i :=
    hm ▸ ⟨quiet_modLists .., modLists_get_self .., fun q hq => (modLists_get ..).trans (if_neg hq), rfl, rfl⟩
  obtain ⟨work, at_p, others, links, lifecycle⟩ := written
  have noticed : Quiet [.links] m (updateNotice p i m) := quiet_updateNotice ..
  generalize hn : updateNotice p i m = n at noticed
  have lists : n.lists = m.lists := noticed.kept.agrees .lists (by simp)
  have update : Told (atDesk p (((s.lists.get p).ann.find? fun e => e.alarm == i).toList.map
      fun e => .update i (lifecycleOf s i) (f e).silenced)) m n := by
    have found : (m.lists.get p).ann.find? (fun e => e.alarm == i) = ((s.lists.get p).ann.find? fun e => e.alarm == i).map f := by
      rw [at_p]; exact find?_written keeps _
    rw [← hn, updateNotice, found]
    cases (s.lists.get p).ann.find? fun e => e.alarm == i with
    | none => exact (Told.refl m).congr fun l => by simp [atDesk]
    | some e => rw [lifecycle]; exact told_notify_desk p (.update i (lifecycleOf s i) (f e).silenced) m
  have work' : touched p i f s = judgeHorn p n := by rw [touched, hm, hn]
  have judged := quiet_judgeHorn n p
  have horn := judgeHorn_lists p p n
  rw [if_pos rfl, lists, at_p] at horn
  have sounds : hornSounds (judgeHorn p n) p = hornSounds n p :=
    hornSounds_congr (.of_kept judged.kept (by simp)) (by rw [horn, lists, at_p])
  refine ⟨?_, ?_, fun q hq => ?_, ?_⟩ <;> rw [work']
  · exact ((work.mono (by simp)).trans (noticed.mono (by simp))).trans judged
  · rw [horn, sounds]
  · rw [judgeHorn_lists, if_neg hq, lists, others q hq]
  · have line := told_judgeHorn p n
    have same : hornNotices p n (judgeHorn p n) = hornNotices p s (judgeHorn p n) := hornNotices_congr (by rw [lists, at_p]) rfl
    rw [same] at line
    exact ((update.from_links links).trans line).congr fun l => atDesk_append ..

theorem map_of_not_onAnn {s : State} {p : Pos} {i : Nat} (off : onAnn s p i = false) (f : AnnEntry → AnnEntry) :
    ((s.lists.get p).ann.map fun e => if e.alarm = i then f e else e) = (s.lists.get p).ann := by
  have none (e : AnnEntry) (he : e ∈ (s.lists.get p).ann) : e.alarm ≠ i := by simpa using List.any_eq_false.1 off e he
  calc _ = (s.lists.get p).ann.map id := List.map_congr_left fun e he => if_neg (none e he)
    _ = _ := List.map_id _

/-- R30: what a RETURN report does. -/
theorem returnReport_eq (i : Nat) (s : State) : returnReport i s =
    if onAnn s (ownerOf s i) i then touched (ownerOf s i) i (fun e => { e with reminder := none }) s else s := by
  simp only [returnReport, touched, setReminder, beq_iff_eq]

/-- R31: what a RERAISE report does. -/
theorem reraiseReport_eq (i : Nat) (weighted : Bool) (s : State) : let p := ownerOf s i
    reraiseReport i weighted s = weighed weighted p (arrivalWeight (priorityOf s i)) (if onAnn s p i then
      touched p i (fun e => { e with silenced := false, reminder := freshReminder s p i }) s else s) := by
  intro p
  have written : modLists p (fun v => { v with ann := v.ann.map fun e => if e.alarm == i then
        { e with reminder := freshReminder s p i } else e })
      (modLists p (fun v => { v with ann := v.ann.map fun e => if e.alarm == i then { e with silenced := false } else e }) s) =
      modLists p (fun v => { v with ann := v.ann.map fun e => if e.alarm = i then
        { e with silenced := false, reminder := freshReminder s p i } else e }) s := by
    rw [modLists_modLists]
    congr 1
    funext v
    simp only [Function.comp_apply, List.map_map]
    refine congrArg (fun ann => { v with ann := ann }) (List.map_congr_left fun e _ => ?_)
    by_cases h : e.alarm = i <;> simp [h]
  have work : reraiseReport i weighted s = weighed weighted p (arrivalWeight (priorityOf (if onAnn s p i then
      touched p i (fun e => { e with silenced := false, reminder := freshReminder s p i }) s else s) i)) (if onAnn s p i then
      touched p i (fun e => { e with silenced := false, reminder := freshReminder s p i }) s else s) := by
    simp only [touched]; rw [← written]; rfl
  have same : priorityOf (if onAnn s p i then
      touched p i (fun e => { e with silenced := false, reminder := freshReminder s p i }) s else s) i = priorityOf s i := by
    split
    · exact (MarksOnly.of_kept (touched_spec (by intro e; rfl) p i s).1.kept (by simp)).priorityOf i
    · rfl
  rw [work, same]

end Sys2Proof.Machine
end

section
/-! PROOFS. The plant's events: an alarm record is written and journaled, the lists and the load follow, and the items last. -/

namespace Sys2Proof.Machine

/-! ### A record written, with its entry -/

/-- A definition but for its in-service field. -/
abbrev AlarmDef.lasting (d : AlarmDef) : AlarmDef := { d with inService := true }

/-- Work that writes the record of one alarm (with the in-service field, which follows the lifecycle), and the entries that tell of
it. -/
structure Recorded (i : Nat) (a b : Alarm) (ls : List Line) (s m : State) : Prop where
  before : alarm? s i = some a
  self : alarm? m i = some b
  lasting : b.defn.lasting = a.defn.lasting
  others : ∀ j, j ≠ i → alarm? m j = alarm? s j
  kept : Kept [.alarms, .journal] s m
  entries : Journaled ls s m

theorem alarm?_modAlarm (i j : Nat) (f : Alarm → Alarm) (s : State) :
    alarm? (modAlarm i f s) j = if j = i then (alarm? s i).map f else alarm? s j := Table.get?_modify ..

theorem recorded_modAlarm {i : Nat} {a : Alarm} {s : State} (h : alarm? s i = some a) (f : Alarm → Alarm)
    (lasting : (f a).defn.lasting = a.defn.lasting) : Recorded i a (f a) [] s (modAlarm i f s) :=
  ⟨h, by rw [alarm?_modAlarm, if_pos rfl, h]; rfl, lasting, fun _ hj => by rw [alarm?_modAlarm, if_neg hj],
    (quiet_modAlarm ..).kept.mono (by simp), ⟨rfl, rfl⟩⟩

theorem recorded_modDyn {i : Nat} {a : Alarm} {s : State} (h : alarm? s i = some a) (f : AlarmDyn → AlarmDyn) :
    Recorded i a { a with dyn := f a.dyn } [] s (modDyn i f s) :=
  recorded_modAlarm h (fun a => { a with dyn := f a.dyn }) rfl

namespace Recorded
variable {i : Nat} {a b : Alarm} {ls : List Line} {s m : State}

theorem time (h : Recorded i a b ls s m) : m.millTime = s.millTime := (h.kept.agrees .clock (by simp)).1
theorem lists (h : Recorded i a b ls s m) : m.lists = s.lists := h.kept.agrees .lists (by simp)
theorem loads (h : Recorded i a b ls s m) : m.loads = s.loads := h.kept.agrees .loads (by simp)
theorem positions (h : Recorded i a b ls s m) : m.positions = s.positions := h.kept.agrees .positions (by simp)
theorem links (h : Recorded i a b ls s m) : m.links = s.links := h.kept.agrees .links (by simp)
theorem areas (h : Recorded i a b ls s m) : m.areas = s.areas := h.kept.agrees .areas (by simp)
theorem mask (h : Recorded i a b ls s m) : m.mask = s.mask := h.kept.agrees .mask (by simp)
theorem escalation (h : Recorded i a b ls s m) : m.escalation = s.escalation := h.kept.agrees .escalation (by simp)

theorem append (h : Recorded i a b ls s m) (k : EntryKind) (p : Option Pos) (o n : Option Nat) (c : Nat) :
    Recorded i a b (ls ++ [⟨k, p, o, n, c⟩]) s (Machine.append k p o n c m) :=
  ⟨h.before, h.self, h.lasting, h.others, h.kept.trans ((quiet_append ..).kept.mono (by simp)),
    h.entries.trans (journaled_append ..) h.time⟩

/-- A second write of the same record. -/
theorem modAlarm (h : Recorded i a b ls s m) (f : Alarm → Alarm) (lasting : (f b).defn.lasting = b.defn.lasting) :
    Recorded i a (f b) ls s (Machine.modAlarm i f m) :=
  have next := recorded_modAlarm h.self f lasting
  ⟨h.before, next.self, lasting.trans h.lasting, fun j hj => (next.others j hj).trans (h.others j hj), h.kept.trans next.kept,
    h.entries.before next.entries h.time⟩

theorem modDyn (h : Recorded i a b ls s m) (f : AlarmDyn → AlarmDyn) :
    Recorded i a { b with dyn := f b.dyn } ls s (Machine.modDyn i f m) := h.modAlarm (fun a => { a with dyn := f a.dyn }) rfl

theorem defn (h : Recorded i a b ls s m) (j : Nat) : (alarmAt m j).defn.lasting = (alarmAt s j).defn.lasting := by
  by_cases hj : j = i
  · subst hj; rw [alarmAt_eq h.self, alarmAt_eq h.before]; exact h.lasting
  · simp only [alarmAt, h.others j hj]

theorem area (h : Recorded i a b ls s m) (j : Nat) : (alarmAt m j).defn.area = (alarmAt s j).defn.area := by
  have same := congrArg AlarmDef.area (h.defn j); exact same

theorem ownerOf (h : Recorded i a b ls s m) (j : Nat) : ownerOf m j = ownerOf s j := by
  simp only [Machine.ownerOf, areaOwner, h.areas, h.area]

theorem priorityOf (h : Recorded i a b ls s m) (j : Nat) : priorityOf m j = priorityOf s j := by
  have same := congrArg AlarmDef.priority (h.defn j); exact same

theorem isSuppressed (h : Recorded i a b ls s m) (j : Nat) : isSuppressed m j = isSuppressed s j := by
  have same : (alarmAt m j).defn.group = (alarmAt s j).defn.group := by
    have same := congrArg AlarmDef.group (h.defn j); exact same
  simp only [Machine.isSuppressed, same, h.mask]

theorem rankOf (h : Recorded i a b ls s m) (j : Nat) (t : Word) : rankOf m j t = rankOf s j t := by
  simp only [Machine.rankOf, h.priorityOf]

theorem annunciation (h : Recorded i a b ls s m) (p : Pos) (j : Nat) (t : Word) (lc : Lifecycle) :
    annunciation m p j t lc = annunciation s p j t lc := by
  simp only [Machine.annunciation, h.priorityOf, h.area]

theorem placementNotices (h : Recorded i a b ls s m) (p : Pos) (j : Nat) (t : Word) (lc : Lifecycle) :
    placementNotices p j t lc m = placementNotices p j t lc s := by
  simp only [Machine.placementNotices, h.priorityOf, h.rankOf, h.annunciation, h.lists, h.loads]

end Recorded

/-! ### A weight on a sound load -/

theorem floodTurned_true_alarms (p : Pos) (s : State) : (floodTurned p true s).alarms = s.alarms := by
  rw [floodTurned_eq, show (floodReport p true (s.loads.get p).load (floodListed p true s)).alarms = (floodListed p true s).alarms from
    (quiet_floodReport ..).kept.agrees .alarms (by simp)]
  exact (kept_floodTold p true s).agrees .alarms (by simp)

theorem evaluateFlood_alarms {p : Pos} {s : State} (h : (s.loads.get p).flood = true → (s.loads.get p).x < (s.loads.get p).load) :
    (evaluateFlood p s).alarms = s.alarms := by
  rcases evaluateFlood_ways p s with same | ⟨-, -, enters⟩ | ⟨before, low, -⟩
  · rw [same]
  · rw [enters]; exact floodTurned_true_alarms ..
  · exact absurd (h before) (Nat.not_lt.2 low)

theorem added_above {p : Pos} {s : State} (sound : (s.loads.get p).Sound) (w : Nat) :
    ((modLoad p (PosLoad.added w) s).loads.get p).flood = true →
      ((modLoad p (PosLoad.added w) s).loads.get p).x < ((modLoad p (PosLoad.added w) s).loads.get p).load := by
  obtain ⟨load, -, -, x, e, -, -, above, -⟩ := sound
  rw [modLoad_get_self, PosLoad.added_x, PosLoad.added_flood]
  intro flood
  have higher := above flood
  rcases Nat.lt_or_ge 65535 ((s.loads.get p).load + w) with past | within
  · rw [PosLoad.added_of_lt past]; simp only; omega
  · rw [PosLoad.added_of_le within]; simp only; omega

theorem weighed_alarms (b : Bool) {p : Pos} {s : State} (sound : (s.loads.get p).Sound) (w : Nat) :
    (weighed b p w s).alarms = s.alarms := by
  cases b with
  | true => exact evaluateFlood_alarms (added_above sound w)
  | false => rfl

theorem hornSounds_floodStopped {s t : State} {p : Pos} (h : MarksOnly s t) {u : State}
    (ann : (t.lists.get p).ann = (s.lists.get p).ann.map (floodStopped u)) : hornSounds t p = hornSounds s p := by
  simp only [hornSounds, ann, List.any_map]
  refine List.any_congr rfl fun e => ?_
  have same : (floodStopped u e).silenced = e.silenced ∧ (floodStopped u e).alarm = e.alarm := by
    simp only [floodStopped]; split <;> exact ⟨rfl, rfl⟩
  simp only [Function.comp, same.1, same.2, h.priorityOf, h.lifecycleOf]

/-! ### The RERAISE report -/

/-- The UPDATE notice of a reraised entry. -/
def reraiseNotices (p : Pos) (i : Nat) (lc : Lifecycle) (s : State) : List Notice := if onAnn s p i then [.update i lc false] else []

theorem updates_eq (s : State) (p : Pos) (i : Nat) (lc : Lifecycle) :
    ((s.lists.get p).ann.find? fun e => e.alarm == i).toList.map (fun _ => Notice.update i lc false) = reraiseNotices p i lc s := by
  cases found : (s.lists.get p).ann.find? fun e => e.alarm == i with
  | none =>
    have off : onAnn s p i = false := by rw [onAnn, List.any_eq_false]; exact List.find?_eq_none.1 found
    rw [reraiseNotices, off]; rfl
  | some e =>
    have on : onAnn s p i = true := List.any_eq_true.2 ⟨e, List.mem_of_find?_eq_some found, by simpa using List.find?_some found⟩
    rw [reraiseNotices, on]; rfl

/-- R31: a reraised entry is unsilenced with a fresh reminder, and the horn line is judged. -/
abbrev reraised (p : Pos) (i : Nat) (s : State) : State :=
  if onAnn s p i then touched p i (fun e => { e with silenced := false, reminder := freshReminder s p i }) s else s

theorem reraised_spec (p : Pos) (i : Nat) (s : State) : let t := reraised p i s
    Quiet [.lists, .links] s t ∧ AtPos p s t ∧ (t.lists.get p).deferred = (s.lists.get p).deferred ∧
      (t.lists.get p).ann = (s.lists.get p).ann.map (fun e => if e.alarm = i then
        { e with silenced := false, reminder := freshReminder s p i } else e) ∧
      (t.lists.get p).horn = (if onAnn s p i then hornSounds t p else (s.lists.get p).horn) ∧
      Told (atDesk p (reraiseNotices p i (lifecycleOf s i) s ++ hornNotices p s t)) s t := by
  by_cases on : onAnn s p i = true
  · have work : reraised p i s = touched p i (fun e => { e with silenced := false, reminder := freshReminder s p i }) s := if_pos on
    obtain ⟨quiet, at_p, others, told⟩ := touched_spec (f := fun e => { e with silenced := false, reminder := freshReminder s p i })
      (by intro e; rfl) p i s
    simp only [work, if_pos on]
    rw [updates_eq] at told
    have alarms : (touched p i (fun e => { e with silenced := false, reminder := freshReminder s p i }) s).alarms = s.alarms :=
      quiet.kept.agrees .alarms (by simp)
    refine ⟨quiet, ⟨others, fun q _ => ?_, fun q => ?_, fun q => ?_, fun j => ?_, quiet.kept.agrees .areas (by simp)⟩, ?_, ?_, ?_, told⟩
    · rw [show State.loads _ = s.loads from quiet.kept.agrees .loads (by simp)]
    · by_cases hq : q = p
      · rw [hq, at_p]
      · rw [others q hq]
    · rw [show State.positions _ = s.positions from quiet.kept.agrees .positions (by simp)]
    · rw [alarm?_congr alarms]
    all_goals rw [at_p]
  · have work : reraised p i s = s := if_neg on
    have off : onAnn s p i = false := by simpa using on
    simp only [work, if_neg on]
    refine ⟨.refl .., .refl .., trivial, (map_of_not_onAnn off _).symm, trivial, (Told.refl s).congr fun l => ?_⟩
    simp [reraiseNotices, off, hornNotices, atDesk]

end Sys2Proof.Machine
end

section
/-! PROOFS. RAISE and ALARM_STATE ACTIVE. -/

namespace Sys2Proof.Machine

/-! ### The RERAISE report, with its weight -/

theorem added_evaluated_flood {d : PosLoad} (sound : d.Sound) (w : Nat) (flood : d.flood = true) :
    (d.added w).evaluated.flood = true := by
  obtain ⟨load, -, -, x, e, -, -, above, -⟩ := sound
  have higher := above flood
  rw [PosLoad.evaluated, PosLoad.added_flood, flood, if_pos rfl, PosLoad.added_x, decide_eq_true_eq]
  rcases Nat.lt_or_ge 65535 (d.load + w) with past | within
  · rw [PosLoad.added_of_lt past]; simp only; omega
  · rw [PosLoad.added_of_le within]; simp only; omega

/-- R35: what the entries keep when reminders stop. -/
theorem floodStopped_keeps (u : State) (e : AnnEntry) : (floodStopped u e).alarm = e.alarm ∧ (floodStopped u e).time = e.time ∧
    (floodStopped u e).silenced = e.silenced ∧
      (floodStopped u e).reminder = if 3 ≤ priorityOf u e.alarm then none else e.reminder := by
  simp only [floodStopped]; split <;> exact ⟨rfl, rfl, rfl, rfl⟩

theorem filter_written {i : Nat} {f : AnnEntry → AnnEntry} (keeps : ∀ e, (f e).alarm = e.alarm) (es : List AnnEntry) :
    (es.map fun e => if e.alarm = i then f e else e).filter (·.alarm != i) = es.filter (·.alarm != i) := by
  induction es with
  | nil => rfl
  | cons e es ih =>
    by_cases h : e.alarm = i
    · simp only [List.map_cons, List.filter_cons, keeps, h, bne_self_eq_false, Bool.false_eq_true, if_false, if_true, ih]
    · simp only [List.map_cons, if_neg h, List.filter_cons, ih]

section reraise
variable {i : Nat} {a : Alarm} {s : State} (present : alarm? s i = some a) (weighted : Bool)

/-- R31: what a RERAISE report does to the items, and tells. -/
theorem reraiseReport_items (i : Nat) (s : State) : let p := ownerOf s i; let t := reraiseReport i weighted s
    ItemsFollow p (itemsFlood p s t) s t ∧ (∃ ls, Journaled ls s t) ∧ MarksOnly s t ∧
      (t.loads.get p = if weighted then ((s.loads.get p).added (arrivalWeight (priorityOf s i))).evaluated else s.loads.get p) ∧
      ((s.loads.get p).Sound → Told (fun l =>
        atDesk p (reraiseNotices p i (lifecycleOf s i) s ++ hornNotices p s t) l ++ atBoth p (loadNotices p s t) l ++
          atDesk p (itemNotices p (itemsFlood p s t) s) l) s t) := by
  intro p t
  obtain ⟨quiet, at_p, -, -, -, told⟩ := reraised_spec p i s
  have work : t = weighed weighted p (arrivalWeight (priorityOf s i)) (reraised p i s) := reraiseReport_eq ..
  have loads : (reraised p i s).loads = s.loads := quiet.kept.agrees .loads (by simp)
  have positions : (reraised p i s).positions = s.positions := quiet.kept.agrees .positions (by simp)
  have time : (reraised p i s).millTime = s.millTime := (quiet.kept.agrees .clock (by simp)).1
  obtain ⟨⟨ls, entries⟩, follow, marks, -, -, load⟩ := weighed_spec weighted p (arrivalWeight (priorityOf s i)) (reraised p i s)
  have sounds := weighed_told weighted (p := p) (s := reraised p i s)
  have horn := weighed_horn weighted (p := p) (s := reraised p i s)
  rw [loads] at sounds horn
  have item : itemsFlood p (reraised p i s) t = itemsFlood p s t := itemsFlood_congr (by rw [loads]) rfl
  have notice : loadNotices p (reraised p i s) t = loadNotices p s t := loadNotices_congr (by rw [loads]) rfl
  rw [← work] at entries follow marks load
  refine ⟨item ▸ follow.congr positions rfl, ⟨ls, (Journaled.of_kept quiet.kept (by simp)).after entries time⟩,
    (MarksOnly.of_kept quiet.kept (by simp)).trans marks, by rw [load, loads], fun fit => ?_⟩
  have weight := (sounds fit (arrivalWeight (priorityOf s i))).1
  have line := horn fit (arrivalWeight (priorityOf s i))
  rw [← work] at weight line
  rw [item, notice, itemNotices_congr p _ positions] at weight
  have same : hornNotices p s (reraised p i s) = hornNotices p s t := hornNotices_congr rfl line.symm
  rw [same] at told
  exact (told.trans weight).congr fun l => (List.append_assoc ..)

include present in
/-- R31: what a RERAISE report leaves of the lists, on a sound load. -/
theorem reraiseReport_lists (sound : (s.loads.get (ownerOf s i)).Sound) (raised : a.dyn.lifecycle = .raised) :
    let p := ownerOf s i; let t := reraiseReport i weighted s; let v := s.lists.get p; let w := t.lists.get p
    t.alarms = s.alarms ∧ w.deferred = v.deferred ∧ w.shelf = v.shelf ∧
      w.ann.map (fun e => (e.alarm, e.time)) = v.ann.map (fun e => (e.alarm, e.time)) ∧
      (∀ e ∈ w.ann, e.alarm = i → e.silenced = false ∧ e.reminder =
        if (t.loads.get p).flood = false ∨ a.defn.priority ≤ 2 then some a.defn.reminder else none) ∧
      ((t.loads.get p).flood = (s.loads.get p).flood → w.ann.filter (·.alarm != i) = v.ann.filter (·.alarm != i)) ∧
      w.horn = (if onAnn s p i then hornSounds t p else v.horn) := by
  intro p t
  obtain ⟨quiet, at_p, deferred, ann, horn, -⟩ := reraised_spec p i s
  have work : t = weighed weighted p (arrivalWeight (priorityOf s i)) (reraised p i s) := reraiseReport_eq ..
  have priority : priorityOf s i = a.defn.priority := congrArg (·.defn.priority) (alarmAt_eq present)
  have loads : (reraised p i s).loads = s.loads := quiet.kept.agrees .loads (by simp)
  have alarms : (reraised p i s).alarms = s.alarms := quiet.kept.agrees .alarms (by simp)
  have fit : ((reraised p i s).loads.get p).Sound := by rw [loads]; exact sound
  have shelf := at_p.shelf p
  obtain ⟨-, -, -, -, -, load⟩ := weighed_spec weighted p (arrivalWeight (priorityOf s i)) (reraised p i s)
  have lists := (weighed_told weighted fit (arrivalWeight (priorityOf s i))).2 p
  have records := weighed_alarms weighted fit (arrivalWeight (priorityOf s i))
  rw [freshReminder_eq present] at ann
  rw [← work] at load lists records
  rw [loads] at lists
  rw [loads] at load
  have records' : t.alarms = s.alarms := records.trans alarms
  have stays (flood : (s.loads.get p).flood = true) : (t.loads.get p).flood = true := by
    rw [load]
    split
    · exact added_evaluated_flood sound _ flood
    · exact flood
  by_cases turn : (t.loads.get p).flood = (s.loads.get p).flood
  · rw [if_neg fun h => h.2 turn] at lists
    have sounds : hornSounds t p = hornSounds (reraised p i s) p := hornSounds_congr (.of_alarms records) (by rw [lists])
    refine ⟨records', by rw [lists, deferred], by rw [lists, shelf], ?_, fun e he ha => ?_, fun _ => ?_, by rw [lists, horn, sounds]⟩
    · rw [lists, ann, List.map_map]
      exact List.map_congr_left fun e _ => by simp only [Function.comp]; split <;> rfl
    · rw [lists, ann] at he
      obtain ⟨x, -, rfl⟩ := List.mem_map.1 he
      have same : x.alarm = i := by by_contra other; rw [if_neg other] at ha; exact other ha
      rw [if_pos same, turn]
      simp [raised]
    · rw [lists, ann]
      exact filter_written (by intro e; rfl) _
  · have off : (s.loads.get p).flood = false := by
      by_contra on; rw [Bool.not_eq_false] at on; exact turn ((stays on).trans on.symm)
    have on : (t.loads.get p).flood = true := by
      by_contra h; rw [Bool.not_eq_true] at h; exact turn (h.trans off.symm)
    rw [if_pos ⟨rfl, turn⟩] at lists
    have sounds : hornSounds t p = hornSounds (reraised p i s) p := hornSounds_floodStopped (.of_alarms records) (by rw [lists])
    have priorities : Machine.priorityOf (reraised p i s) i = a.defn.priority :=
      ((MarksOnly.of_alarms alarms).priorityOf i).trans priority
    refine ⟨records', by rw [lists]; exact deferred, by rw [lists]; exact shelf, ?_, fun e he ha => ?_, fun same => absurd same turn,
      by rw [lists, sounds]; exact horn⟩
    · rw [lists, ann, List.map_map, List.map_map]
      refine List.map_congr_left fun e _ => ?_
      obtain ⟨alarm, time, -, -⟩ := floodStopped_keeps (reraised p i s) (if e.alarm = i then { e with
        silenced := false, reminder := if a.dyn.lifecycle = .raised ∧ ((s.loads.get p).flood = false ∨ a.defn.priority ≤ 2) then
          some a.defn.reminder else none } else e)
      simp only [Function.comp, alarm, time]
      split <;> rfl
    · rw [lists] at he
      obtain ⟨y, hy, rfl⟩ := List.mem_map.1 he
      obtain ⟨alarm, -, silenced, reminder⟩ := floodStopped_keeps (reraised p i s) y
      rw [ann] at hy
      obtain ⟨x, -, rfl⟩ := List.mem_map.1 hy
      have same : x.alarm = i := by by_contra other; rw [if_neg other] at alarm ha; exact other (alarm.symm.trans ha)
      rw [if_pos same] at alarm silenced reminder ⊢
      rw [silenced, reminder, same, priorities, on, off]
      refine ⟨rfl, ?_⟩
      by_cases low : a.defn.priority ≤ 2
      · simp [low, raised, Nat.not_le.2 (Nat.lt_succ_of_le low)]
      · simp [low, show 3 ≤ a.defn.priority by omega]

end reraise

/-! ### RAISE -/

/-- R10: the report to the lists of an alarm that was raised. -/
def raiseReport (i : Nat) (old : Lifecycle) (event : Bool) (m : State) : State :=
  if isWithheld m i then m else if old = .returned then reraiseReport i event m else placeReport i event m

/-- R10: the record of an alarm that is raised. -/
def Alarm.raised (a : Alarm) : Alarm := { a with dyn := { a.dyn with input := .active, lifecycle := .raised, acknowledger := none } }

theorem isWithheld_eq {s : State} {i : Nat} {a : Alarm} (h : alarm? s i = some a) :
    isWithheld s i = (a.dyn.shelved || isSuppressed s i) := by
  rw [isWithheld, alarmAt_eq h]

section raise
variable {i : Nat} {a : Alarm} {s : State} (present : alarm? s i = some a) (event : Bool)
include present

/-- R10: how a RAISE goes where the lifecycle changes. -/
theorem raiseAlarm_eq (moves : a.dyn.lifecycle = .normal ∨ a.dyn.lifecycle = .latched ∨ a.dyn.lifecycle = .returned) :
    ∃ m, Recorded i a a.raised (if event then [⟨.alarmRaised, some (ownerOf s i), none, some i,
        lifecycleCode a.dyn.lifecycle * 256 + a.defn.priority⟩] else []) s m ∧
      raiseAlarm i event s = lifecycleReport i a.dyn.lifecycle .raised (raiseReport i a.dyn.lifecycle event m) := by
  have new : raisedFrom a.dyn.lifecycle = .raised ∧ Lifecycle.raised ≠ a.dyn.lifecycle := by
    rcases moves with h | h | h <;> rw [h] <;> exact ⟨rfl, nofun⟩
  have written := (recorded_modDyn present (fun d => { d with input := .active })).modDyn (AlarmDyn.enter .raised none)
  have record : ({ a with dyn := AlarmDyn.enter .raised none { a.dyn with input := .active } } : Alarm) = a.raised := by
    simp [AlarmDyn.enter, Alarm.raised]
  simp only [record] at written
  have owner := written.ownerOf i
  simp only [raiseAlarm, alarmAt_eq present, new.1, if_neg new.2]
  cases event with
  | true =>
    refine ⟨_, written.append .alarmRaised (some (ownerOf s i)) none (some i) _, ?_⟩
    simp only [if_true, owner]
    rfl
  | false => exact ⟨_, written, rfl⟩

end raise

/-- R27, R31: the list notices of a raise. -/
def raiseNotices (p : Pos) (i : Nat) (placed : Bool) (s : State) : List Notice :=
  if placed then placementNotices p i s.millTime .raised s
  else if isWithheld s i = false ∧ onAnn s p i = true then [.update i .raised false] else []

section report
variable {i : Nat} {b : Alarm} {m : State} (record : alarm? m i = some b) (old : Lifecycle) (event : Bool)

theorem quiet_raiseReport (m : State) :
    Quiet [.alarms, .lists, .links, .loads, .journal, .positions, .free] m (raiseReport i old event m) :=
  .ite (fun _ => .refl ..) fun _ => .ite (fun _ => (quiet_reraiseReport ..).mono (by simp)) fun _ => quiet_placeReport ..

theorem atPos_raiseReport (m : State) : AtPos (ownerOf m i) m (raiseReport i old event m) :=
  .ite (fun _ => .refl ..) fun _ => .ite (fun _ => atPos_reraiseReport _ _ _ _ rfl) fun _ => atPos_placeReport _ _ _ _ rfl

include record

/-- R10, R29, R31: what the report of a raise does to the load and the journal. -/
theorem raiseReport_spec : let p := ownerOf m i; let r := raiseReport i old event m
    (∃ ls, Journaled ls m r) ∧ (isWithheld m i = false → r.loads.get p = if event then
      ((m.loads.get p).added (arrivalWeight b.defn.priority)).evaluated else m.loads.get p) := by
  intro p r
  have priority : priorityOf m i = b.defn.priority := congrArg (·.defn.priority) (alarmAt_eq record)
  by_cases withheld : isWithheld m i = true
  · have work : r = m := if_pos withheld
    rw [work]
    exact ⟨⟨[], rfl, rfl⟩, fun listed => absurd (withheld.symm.trans listed) nofun⟩
  by_cases returned : old = .returned
  · have work : r = reraiseReport i event m := (if_neg withheld).trans (if_pos returned)
    obtain ⟨-, entries, -, load, -⟩ := reraiseReport_items event i m
    rw [work]
    exact ⟨entries, fun _ => load.trans (by rw [priority])⟩
  · have work : r = placeReport i event m := (if_neg withheld).trans (if_neg returned)
    obtain ⟨-, -, entries, load⟩ := placeReport_spec record event
    rw [work]
    exact ⟨entries, fun _ => load⟩

/-- R27, R29, R31, R131, R132, R136: what the report of a raise does to the items, and tells. -/
theorem raiseReport_items (raised : b.dyn.lifecycle = .raised) (sound : b.defn.Sound) : ∃ wrapped,
    let p := ownerOf m i; let r := raiseReport i old event m; let placed := !isWithheld m i && old != .returned
    let work := (itemsFlood p m r).andThen ((itemsPlaced wrapped b.defn.priority i).onlyIf placed)
    ItemsFollow p work m r ∧ ((m.loads.get p).Sound → Told (fun l =>
      atDesk p (raiseNotices p i placed m ++ hornNotices p m r) l ++ atBoth p (loadNotices p m r) l ++
        atDesk p (itemNotices p work m) l) m r) := by
  have lifecycle : lifecycleOf m i = .raised := (congrArg (·.dyn.lifecycle) (alarmAt_eq record)).trans raised
  by_cases withheld : isWithheld m i = true
  · have work : raiseReport i old event m = m := if_pos withheld
    refine ⟨fun _ => 0, ?_⟩
    have item : itemsFlood (ownerOf m i) m m = noItems := itemsFlood_still rfl
    have notice : loadNotices (ownerOf m i) m m = [] := loadNotices_still rfl
    simp only [work, withheld, Bool.not_true, Bool.false_and, ItemWork.onlyIf_false, ItemWork.andThen_noItems, item, notice]
    refine ⟨ItemsFollow.refl _ m, fun _ => (Told.refl m).congr fun l => ?_⟩
    simp [raiseNotices, withheld, hornNotices, itemNotices_noItems, atDesk, atBoth]
  rw [Bool.not_eq_true] at withheld
  by_cases returned : old = .returned
  · subst returned
    have work : raiseReport i .returned event m = reraiseReport i event m :=
      (if_neg (by simp [withheld])).trans (if_pos rfl)
    obtain ⟨follow, -, -, -, told⟩ := reraiseReport_items event i m
    have notices : raiseNotices (ownerOf m i) i false m = reraiseNotices (ownerOf m i) i (lifecycleOf m i) m := by
      simp [raiseNotices, reraiseNotices, withheld, lifecycle]
    refine ⟨fun _ => 0, ?_⟩
    simp only [work, bne_self_eq_false, Bool.and_false, ItemWork.onlyIf_false, ItemWork.andThen_noItems, notices]
    exact ⟨follow, told⟩
  · have work : raiseReport i old event m = placeReport i event m :=
      (if_neg (by simp [withheld])).trans (if_neg returned)
    obtain ⟨wrapped, follow, told⟩ := placeReport_items record event sound
    have notices : raiseNotices (ownerOf m i) i true m = placementNotices (ownerOf m i) i m.millTime b.dyn.lifecycle m := by
      rw [raised]; exact if_pos rfl
    refine ⟨wrapped, ?_⟩
    simp only [work, withheld, bne_iff_ne.2 returned, Bool.not_false, Bool.and_true, ItemWork.onlyIf_true, notices]
    exact ⟨follow, told⟩

end report

/-! ### The items of a LIFECYCLE report -/

/-- R133: only an entry into LATCHED raises a count that may stand at its limit. -/
theorem itemsLifecycle_wrapped {new : Lifecycle} (h : new ≠ .latched) (v w : ItemKind → Nat) (p : Pos) (i : Nat) (old : Lifecycle) :
    itemsLifecycle v p i old new = itemsLifecycle w p i old new := by
  simp only [itemsLifecycle, if_neg h]

/-- R132, R133: a LIFECYCLE report after other work at the position of its alarm. -/
theorem lifecycleReport_after {p : Pos} {i : Nat} {w : ItemWork} {a : Link → List Notice} {s r : State} (old new : Lifecycle)
    (owner : ownerOf r i = p) (follow : ItemsFollow p w s r) (desks : DesksKept s r) : let t := lifecycleReport i old new r
    ∃ wrapped, let v := itemsLifecycle wrapped p i old new
      ItemsFollow p (w.andThen v) s t ∧ (Told (fun l => a l ++ atDesk p (itemNotices p w s) l) s r →
        Told (fun l => a l ++ atDesk p (itemNotices p (w.andThen v) s) l) s t) := by
  intro t
  obtain ⟨wrapped, later, told⟩ := lifecycleReport_spec i old new r
  rw [owner] at later told
  refine ⟨wrapped, follow.andThen (desks.state p) later, fun first => (first.trans told).congr fun l => ?_⟩
  rw [itemNotices_andThen follow (desks.state p), atDesk_append, List.append_assoc]

end Sys2Proof.Machine
end

section
/-! PROOFS. What a RAISE does, told from the state before it. -/

namespace Sys2Proof.Machine

theorem PosLoad.added_load (w : Nat) (d : PosLoad) : (d.added w).load = min 65535 (d.load + w) := by
  rcases Nat.lt_or_ge 65535 (d.load + w) with past | within
  · rw [added_of_lt past]; exact (Nat.min_eq_left past.le).symm
  · rw [added_of_le within]; exact (Nat.min_eq_right within).symm

theorem kept_lifecycleReport (i : Nat) (old new : Lifecycle) (s : State) :
    Kept [.positions, .links, .free] s (lifecycleReport i old new s) :=
  (quiet_lifecycleReport ..).kept

section raise
variable {i : Nat} {a : Alarm} {s : State} (present : alarm? s i = some a) (event : Bool)
  (moves : a.dyn.lifecycle = .normal ∨ a.dyn.lifecycle = .latched ∨ a.dyn.lifecycle = .returned)
include present moves

/-- R10, R29: the alarm, the entry and the load after a raise. -/
theorem raiseAlarm_spec : let p := ownerOf s i; let u := raiseAlarm i event s
    (∃ b, alarm? u i = some b ∧ b.settled = (a.defn, .active, .raised, none, a.dyn.shelved) ∧
      (isWithheld s i = false → a.dyn.lifecycle ≠ .returned → b.dyn.annTime = some s.millTime ∧ isListed u i = true)) ∧
    (∃ ls, Journaled ((if event then [⟨.alarmRaised, some p, none, some i, lifecycleCode a.dyn.lifecycle * 256 + a.defn.priority⟩]
      else []) ++ ls) s u) ∧
    (isWithheld s i = true → u.loads = s.loads ∧ u.lists = s.lists) ∧
    (isWithheld s i = false → u.loads.get p = if event then
      ((s.loads.get p).added (arrivalWeight a.defn.priority)).evaluated else s.loads.get p) ∧
    (∀ q, q ≠ p → u.loads.get q = s.loads.get q ∧ u.lists.get q = s.lists.get q) ∧ OtherAlarmsSettled i s u ∧ DesksKept s u := by
  intro p u
  obtain ⟨m, written, work⟩ := raiseAlarm_eq present event moves
  change u = _ at work
  clear_value u
  have withheld : isWithheld m i = isWithheld s i := by
    rw [isWithheld_eq written.self, isWithheld_eq present, written.isSuppressed]; rfl
  have owner : ownerOf m i = p := written.ownerOf i
  obtain ⟨⟨ls, entries⟩, load⟩ := raiseReport_spec written.self a.dyn.lifecycle event
  have place : AtPos p m (raiseReport i a.dyn.lifecycle event m) := owner ▸ atPos_raiseReport a.dyn.lifecycle event m
  have last : Kept [.positions, .links, .free] (raiseReport i a.dyn.lifecycle event m) u := work ▸ kept_lifecycleReport ..
  have quiet := quiet_raiseReport (i := i) a.dyn.lifecycle event m
  have way : isWithheld s i = true → raiseReport i a.dyn.lifecycle event m = m := fun h => if_pos (withheld.trans h)
  generalize hr : raiseReport i a.dyn.lifecycle event m = r at entries load place last work quiet way
  have alarms : u.alarms = r.alarms := last.agrees .alarms (by simp)
  have lists : u.lists = r.lists := last.agrees .lists (by simp)
  have loads : u.loads = r.loads := last.agrees .loads (by simp)
  have time : r.millTime = m.millTime := (quiet.kept.agrees .clock (by simp)).1
  have settled := place.settled i
  rw [written.self] at settled
  obtain ⟨b, hb, same⟩ := Option.map_eq_some_iff.1 settled
  have final : alarm? u i = some b := by rw [alarm?_congr alarms, hb]
  refine ⟨⟨b, final, same, fun open' other => ?_⟩, ⟨ls, ?_⟩, fun h => ?_, fun h => ?_, fun q hq => ⟨?_, ?_⟩, fun j hj => ?_, fun q => ?_⟩
  · have placed : r = placeReport i event m := by
      rw [← hr]; exact (if_neg (by rw [withheld, open']; nofun)).trans (if_neg other)
    obtain ⟨⟨mark, record⟩, stands, -, -⟩ := placeReport_spec written.self event
    rw [← placed] at record stands
    rw [owner] at stands
    rw [hb] at record
    have at_p : ownerOf u i = p := by
      rw [ownerOf, areaOwner, show u.areas = r.areas from last.agrees .areas (by simp), alarmAt, alarm?_congr alarms]
      exact (place.ownerOf i).trans owner
    refine ⟨by rw [Option.some.inj record]; exact congrArg some written.time, ?_⟩
    rw [isListed_eq, at_p]
    exact (KeepsStanding.of_kept last (by simp) (by simp) p).stands i stands
  · have all := (written.entries.trans entries written.time).before (.of_kept last (by simp)) (time.trans written.time)
    exact all
  · rw [loads, lists, way h]; exact ⟨written.loads, written.lists⟩
  · rw [owner, withheld, written.loads] at load
    rw [loads]; exact load h
  · rw [loads, place.loads q hq, written.loads]
  · rw [lists, place.lists q hq, written.lists]
  · rw [alarm?_congr alarms, place.settled j, written.others j hj]
  · rw [work, (desks_lifecycleReport (s := r) i a.dyn.lifecycle .raised).desks q, place.desks q, written.positions]

/-- R27, R29, R31, R131 to R133, R136: the items and the notices of a raise. -/
theorem raiseAlarm_items (sound : a.defn.Sound) : ∃ wrapped, let p := ownerOf s i; let u := raiseAlarm i event s
    let placed := !isWithheld s i && a.dyn.lifecycle != .returned
    let work := ((itemsFlood p s u).andThen ((itemsPlaced wrapped a.defn.priority i).onlyIf placed)).andThen
      (itemsLifecycle wrapped p i a.dyn.lifecycle .raised)
    ItemsFollow p work s u ∧ ((s.loads.get p).Sound → Told (fun l => atDesk p (raiseNotices p i placed s ++ hornNotices p s u) l ++
      atBoth p (loadNotices p s u) l ++ atDesk p (itemNotices p work s) l) s u) := by
  generalize hp : ownerOf s i = p
  generalize hu : raiseAlarm i event s = u
  obtain ⟨m, written, work⟩ := raiseAlarm_eq present event moves
  rw [hu] at work
  have withheld : isWithheld m i = isWithheld s i := by
    rw [isWithheld_eq written.self, isWithheld_eq present, written.isSuppressed]; rfl
  have owner : ownerOf m i = p := (written.ownerOf i).trans hp
  obtain ⟨wrapped, follow, told⟩ := raiseReport_items written.self a.dyn.lifecycle event rfl sound
  have place : AtPos p m (raiseReport i a.dyn.lifecycle event m) := owner ▸ atPos_raiseReport a.dyn.lifecycle event m
  rw [owner, withheld] at follow told
  generalize raiseReport i a.dyn.lifecycle event m = r at follow told place work
  have last : Kept [.positions, .links, .free] r u := work ▸ kept_lifecycleReport ..
  have lists : u.lists = r.lists := last.agrees .lists (by simp)
  have loads : u.loads = r.loads := last.agrees .loads (by simp)
  have item : itemsFlood p m r = itemsFlood p s u := itemsFlood_congr (by rw [written.loads]) (by rw [loads])
  have notice : loadNotices p m r = loadNotices p s u := loadNotices_congr (by rw [written.loads]) (by rw [loads])
  have horn : hornNotices p m r = hornNotices p s u := hornNotices_congr (by rw [written.lists]) (by rw [lists])
  have listing (placed : Bool) : raiseNotices p i placed m = raiseNotices p i placed s := by
    have on : onAnn m p i = onAnn s p i := by simp only [onAnn, written.lists]
    rw [raiseNotices, raiseNotices, written.placementNotices, withheld, on, written.time]
  rw [item] at follow told
  rw [notice, horn, listing, itemNotices_congr p _ written.positions, written.loads] at told
  obtain ⟨v, later, tells⟩ := lifecycleReport_after (a := fun l => atDesk p (raiseNotices p i
    (!isWithheld s i && a.dyn.lifecycle != .returned) s ++ hornNotices p s u) l ++ atBoth p (loadNotices p s u) l)
    a.dyn.lifecycle .raised ((place.ownerOf i).trans owner) (follow.congr written.positions rfl)
    (DesksKept.congr place.desks written.positions rfl)
  rw [← work, itemsLifecycle_wrapped (new := .raised) nofun v wrapped] at later tells
  exact ⟨wrapped, later, fun fit => tells ((told fit).from_links written.links)⟩

/-- R31: what a raise from RETURNED leaves of the record and the lists, on a sound load. -/
theorem raiseAlarm_reraised (listed : isWithheld s i = false) (returned : a.dyn.lifecycle = .returned)
    (fit : (s.loads.get (ownerOf s i)).Sound) :
    let p := ownerOf s i; let u := raiseAlarm i event s; let v := s.lists.get p; let w := u.lists.get p
    alarm? u i = some a.raised ∧ w.deferred = v.deferred ∧ w.shelf = v.shelf ∧
      w.ann.map (fun e => (e.alarm, e.time)) = v.ann.map (fun e => (e.alarm, e.time)) ∧
      (∀ e ∈ w.ann, e.alarm = i → e.silenced = false ∧ e.reminder =
        if (u.loads.get p).flood = false ∨ a.defn.priority ≤ 2 then some a.defn.reminder else none) ∧
      ((u.loads.get p).flood = (s.loads.get p).flood → w.ann.filter (·.alarm != i) = v.ann.filter (·.alarm != i)) ∧
      w.horn = (if onAnn s p i then hornSounds u p else v.horn) := by
  intro p u v w
  obtain ⟨m, written, work⟩ := raiseAlarm_eq present event moves
  have withheld : isWithheld m i = false := by
    rw [isWithheld_eq written.self, written.isSuppressed, ← listed, isWithheld_eq present]; rfl
  have owner : ownerOf m i = p := written.ownerOf i
  have way : raiseReport i a.dyn.lifecycle event m = reraiseReport i event m :=
    (if_neg (by rw [withheld]; nofun)).trans (if_pos returned)
  have spec := reraiseReport_lists written.self event (by rw [owner, written.loads]; exact fit) rfl
  have last : Kept [.positions, .links, .free] (reraiseReport i event m) u := by
    rw [show u = _ from work, way]; exact kept_lifecycleReport ..
  have on : onAnn m p i = onAnn s p i := by simp only [onAnn, written.lists]
  have alarms : u.alarms = _ := last.agrees .alarms (by simp)
  have lists : u.lists = _ := last.agrees .lists (by simp)
  have loads : u.loads = _ := last.agrees .loads (by simp)
  have sounds : hornSounds u p = hornSounds (reraiseReport i event m) p := hornSounds_congr (.of_kept last (by simp)) (by rw [lists])
  simp only [owner, written.lists, written.loads, on] at spec
  obtain ⟨records, rest⟩ := spec
  refine ⟨by rw [alarm?_congr (alarms.trans records)]; exact written.self, ?_⟩
  simp only [v, w, lists, loads, sounds]
  exact rest

end raise

/-- R9: the answer to an event that changed the lifecycle, and to one that did not. -/
theorem eventAnswer_eq {i : Nat} {a b : Alarm} {s t : State} (before : alarm? s i = some a) (after : alarm? t i = some b) :
    eventAnswer i s t = doneWith (be8 (resultCode (changeResult a.dyn.lifecycle b.dyn.lifecycle)) ++
      be8 (lifecycleCode b.dyn.lifecycle)) := by
  rw [eventAnswer, lifecycleOf, lifecycleOf, alarmAt_eq before, alarmAt_eq after]

/-- R10: a RAISE in the other lifecycles records the input alone. -/
theorem raiseAlarm_still {i : Nat} {a : Alarm} {s : State} (present : alarm? s i = some a) (event : Bool)
    (stays : a.dyn.lifecycle = .raised ∨ a.dyn.lifecycle = .held ∨ a.dyn.lifecycle = .outOfService) :
    raiseAlarm i event s = modDyn i (fun d => { d with input := .active }) s := by
  have same : raisedFrom a.dyn.lifecycle = a.dyn.lifecycle := by rcases stays with h | h | h <;> rw [h] <;> rfl
  simp only [raiseAlarm, alarmAt_eq present, if_pos same]

theorem isListed_congr {s t : State} {i : Nat} (alarms : t.alarms = s.alarms) (lists : t.lists = s.lists) (areas : t.areas = s.areas) :
    isListed t i = isListed s i := by
  simp only [isListed, onAnn, onDeferred, ownerOf, areaOwner, alarmAt, alarm?, alarms, lists, areas]

/-- Settles O33. -/
theorem aRaiseRaisesTheAlarm : Obligations.ARaiseRaisesTheAlarm := by
  refine ⟨fun h i a s hp present moves => ?_, fun h i a s hp present stays => ?_⟩
  · have present' : alarm? (takeFrame h.link s) i = some a := present
    obtain ⟨⟨b, record, settled, placed⟩, ⟨ls, entries⟩, quietly, load, others, otherAlarms, desks⟩ := raiseAlarm_spec present' true moves
    have reraise := raiseAlarm_reraised present' true moves
    have items := raiseAlarm_items present' true moves
    have quiet := quiet_raiseAlarm (takeFrame h.link s) i true
    have lifecycle : b.dyn.lifecycle = .raised := congrArg (fun x => x.2.2.1) settled
    have answer : eventAnswer i (takeFrame h.link s) (raiseAlarm i true (takeFrame h.link s)) = doneWith (be8 1 ++ be8 1) := by
      rw [eventAnswer_eq present' record, lifecycle]
      rcases moves with h | h | h <;> rw [h] <;> rfl
    have checked : firstRefusal [⟨(1 : Nat) == 1, .malformed, 1⟩, definedIndexCheck (takeFrame h.link s) i] = none := by
      simp [definedIndexCheck, isDefined, present']
    obtain ⟨t, next, done⟩ := request_done (out := exec (.alarmEventRaise h i 1) s) (P := Served .alarmEvent h _ s _)
      (es := [be8 1 ++ be8 1]) (g := false) rfl hp ((judged_of_none checked _).trans (congrArg (Prod.mk _) answer)) quiet fun _ d => d
    generalize raiseAlarm i true (takeFrame h.link s) = u at *
    have alarms : t.alarms = u.alarms := done.agrees .alarms nofun
    have lists : t.lists = u.lists := done.agrees .lists nofun
    have loads : t.loads = u.loads := done.agrees .loads nofun
    have areas : t.areas = u.areas := done.agrees .areas nofun
    have positions : t.positions = u.positions := done.agrees .positions nofun
    have final : alarm? t i = some b := by rw [alarm?_congr alarms, record]
    have stands : isListed t i = isListed u i := isListed_congr alarms lists areas
    refine ⟨t, b, next, final, settled, done.replied, ⟨ls, done.journaled entries⟩, fun shut => ?_, fun open' => ⟨?_, fun other => ?_⟩,
      fun open' back fit => ?_, fun sound => ?_, fun q hq => ?_, fun j hj => ?_, DesksKept.congr desks rfl positions, done.lines,
      done.kept quiet.kept (by simp)⟩
    · obtain ⟨sameLoads, sameLists⟩ := quietly shut
      exact ⟨loads.trans sameLoads, lists.trans sameLists⟩
    · rw [loads, show u.loads.get (ownerOf s i) = _ from load open', if_pos rfl]; exact PosLoad.added_load ..
    · obtain ⟨time, stood⟩ := placed open' other
      exact ⟨time, stands.trans stood⟩
    · obtain ⟨record', deferred, shelf, ann, entry, rest, horn⟩ := reraise open' back fit
      have sounds : hornSounds t (ownerOf s i) = hornSounds u (ownerOf s i) := hornSounds_congr (.of_alarms alarms) (by rw [lists])
      have same : b = a.raised := Option.some.inj (record.symm.trans record')
      simp only [lists, loads, sounds]
      exact ⟨by rw [same]; rfl, deferred, shelf, ann, entry, rest, fun on => horn.trans (if_pos on),
        fun off => horn.trans (if_neg (Bool.eq_false_iff.1 off))⟩
    · obtain ⟨wrapped, follow, told⟩ := items sound
      have item : itemsFlood (ownerOf s i) s t = itemsFlood (ownerOf s i) s u := itemsFlood_congr rfl (by rw [loads])
      have notice : loadNotices (ownerOf s i) s t = loadNotices (ownerOf s i) s u := loadNotices_congr rfl (by rw [loads])
      have horn : hornNotices (ownerOf s i) s t = hornNotices (ownerOf s i) s u := hornNotices_congr rfl (by rw [lists])
      simp only [item, notice, horn]
      exact ⟨wrapped, done.follows follow, fun fit => done.announced _ (told fit)⟩
    · rw [loads, lists]; exact others q hq
    · rw [alarm?_congr alarms]; exact otherAlarms j hj
  · have present' : alarm? (takeFrame h.link s) i = some a := present
    have work := raiseAlarm_still present' true stays
    have record := alarm?_modDyn_self present' fun d => { d with input := .active }
    have answer : eventAnswer i (takeFrame h.link s) (raiseAlarm i true (takeFrame h.link s)) =
        doneWith (be8 255 ++ be8 (lifecycleCode a.dyn.lifecycle)) := by
      rw [work, eventAnswer_eq present' record, changeResult, if_pos rfl]; rfl
    have checked : firstRefusal [⟨(1 : Nat) == 1, .malformed, 1⟩, definedIndexCheck (takeFrame h.link s) i] = none := by
      simp [definedIndexCheck, isDefined, present']
    have quiet : Quiet [.alarms, .links] (takeFrame h.link s) (raiseAlarm i true (takeFrame h.link s)) := by
      rw [work]; exact (quiet_modDyn ..).mono (by simp)
    refine request_done (out := exec (.alarmEventRaise h i 1) s) (es := [be8 255 ++ be8 (lifecycleCode a.dyn.lifecycle)]) (g := false)
      rfl hp ((judged_of_none checked _).trans (congrArg (Prod.mk _) answer)) quiet fun t done => ?_
    have alarms : t.alarms = _ := done.agrees .alarms nofun
    rw [work] at alarms
    exact ⟨by rw [alarm?_congr alarms]; exact record, done.replied, fun j hj => by rw [alarm?_congr alarms]; exact alarm?_modDyn_ne hj _ _,
      done.lines, done.kept quiet.kept (by simp)⟩

end Sys2Proof.Machine
end

section
/-! PROOFS. CLEAR and ALARM_STATE. -/

namespace Sys2Proof.Machine

/-! ### The RETURN report -/

theorem returnReport_spec (i : Nat) (s : State) : let p := ownerOf s i; let t := returnReport i s
    Quiet [.lists, .links] s t ∧ (∀ q, q ≠ p → t.lists.get q = s.lists.get q) ∧
      (t.lists.get p).deferred = (s.lists.get p).deferred ∧ (t.lists.get p).shelf = (s.lists.get p).shelf ∧
      (t.lists.get p).ann = (s.lists.get p).ann.map (fun e => if e.alarm = i then { e with reminder := none } else e) ∧
      (t.lists.get p).horn = (if onAnn s p i then hornSounds t p else (s.lists.get p).horn) ∧
      Told (atDesk p (((s.lists.get p).ann.find? fun e => e.alarm == i).toList.map
        (fun e => .update i (lifecycleOf s i) e.silenced) ++ hornNotices p s t)) s t := by
  intro p
  rw [returnReport_eq]
  by_cases on : onAnn s p i = true
  · rw [if_pos on]
    obtain ⟨quiet, at_p, others, told⟩ := touched_spec (f := fun e => { e with reminder := none }) (by intro e; rfl) p i s
    exact ⟨quiet, others, by rw [at_p], by rw [at_p], by rw [at_p], (congrArg PosLists.horn at_p).trans (if_pos on).symm, told⟩
  · have off : onAnn s p i = false := by simpa using on
    have absent : (s.lists.get p).ann.find? (fun e => e.alarm == i) = none :=
      List.find?_eq_none.2 fun e he => by simpa using List.any_eq_false.1 off e he
    rw [if_neg on]
    refine ⟨.refl .., fun _ _ => rfl, rfl, rfl, (map_of_not_onAnn off _).symm, (if_neg on).symm, (Told.refl s).congr fun l => ?_⟩
    rw [absent]; simp [hornNotices, atDesk]

/-! ### CLEAR -/

/-- R11: the record of an alarm that is cleared. -/
def Alarm.cleared (after : Lifecycle) (a : Alarm) : Alarm :=
  { a with dyn := AlarmDyn.enter after a.dyn.acknowledger { a.dyn with input := .inactive } }

/-- R11: the lifecycles that a CLEAR changes, and where to. -/
abbrev Clears (s : State) (i : Nat) (a : Alarm) (after : Lifecycle) : Prop :=
  (a.dyn.lifecycle = .raised ∧ after = (if isWithheld s i then .normal else .returned)) ∨
    (a.dyn.lifecycle = .held ∧ after = (if a.defn.cls = .safety then .latched else .normal))

section clear
variable {i : Nat} {a : Alarm} {after : Lifecycle} {s : State} (present : alarm? s i = some a) (event : Bool)

omit present in
theorem clears_facts (moves : Clears s i a after) : clearedFrom a.dyn.lifecycle a.defn.cls (isWithheld s i) = after ∧
    after ≠ a.dyn.lifecycle ∧ (after = .normal ∨ after = .returned ∨ after = .latched) := by
  rcases moves with ⟨h, rfl⟩ | ⟨h, rfl⟩ <;> rw [h]
  · cases isWithheld s i <;> simp [clearedFrom]
  · by_cases safety : a.defn.cls = .safety <;> simp [clearedFrom, safety]

include present

theorem clearAlarm_eq (moves : Clears s i a after) :
    ∃ m, Recorded i a (a.cleared after) (if event then [⟨.alarmCleared, some (ownerOf s i), none, some i,
        lifecycleCode after * 256 + a.defn.priority⟩] else []) s m ∧
      clearAlarm i event s = lifecycleReport i a.dyn.lifecycle after (if after = .returned then returnReport i m else m) := by
  obtain ⟨new, other, -⟩ := clears_facts moves
  have written := (recorded_modDyn present (fun d => { d with input := .inactive })).modDyn (AlarmDyn.enter after a.dyn.acknowledger)
  have owner := written.ownerOf i
  simp only [clearAlarm, alarmAt_eq present, new, if_neg other]
  cases event with
  | true =>
    refine ⟨_, written.append .alarmCleared (some (ownerOf s i)) none (some i) _, ?_⟩
    simp only [if_true, owner]
  | false => exact ⟨_, written, rfl⟩

/-- R11, R30: what a CLEAR leaves. -/
theorem clearAlarm_spec (moves : Clears s i a after) : let p := ownerOf s i; let u := clearAlarm i event s
    alarm? u i = some (a.cleared after) ∧ (∀ j, j ≠ i → alarm? u j = alarm? s j) ∧
    Journaled (if event then [⟨.alarmCleared, some p, none, some i, lifecycleCode after * 256 + a.defn.priority⟩] else []) s u ∧
    (∀ q, q ≠ p → u.lists.get q = s.lists.get q) ∧
    (u.lists.get p).deferred = (s.lists.get p).deferred ∧ (u.lists.get p).shelf = (s.lists.get p).shelf ∧
    (u.lists.get p).ann = (s.lists.get p).ann.map (fun e => if after = .returned ∧ e.alarm = i then { e with reminder := none } else e) ∧
    (u.lists.get p).horn = (if after = .returned ∧ onAnn s p i = true then hornSounds u p else (s.lists.get p).horn) ∧
    ∃ wrapped, let work := itemsLifecycle wrapped p i a.dyn.lifecycle after
      ItemsFollow p work s u ∧ Told (atDesk p ((if after = .returned then
        ((s.lists.get p).ann.find? fun e => e.alarm == i).toList.map (fun e => .update i .returned e.silenced) else []) ++
          hornNotices p s u ++ itemNotices p work s)) s u := by
  generalize hp : ownerOf s i = p
  obtain ⟨m, written, work⟩ := clearAlarm_eq present event moves
  rw [hp] at written
  have owner : ownerOf m i = p := (written.ownerOf i).trans hp
  have returned := returnReport_spec i m
  rw [owner, written.lists] at returned
  have on : onAnn m p i = onAnn s p i := by simp only [onAnn, written.lists]
  have middle (r : State) (hr : r = if after = .returned then returnReport i m else m) : Quiet [.lists, .links] m r ∧
      (∀ q, q ≠ p → r.lists.get q = s.lists.get q) ∧
      (r.lists.get p).deferred = (s.lists.get p).deferred ∧ (r.lists.get p).shelf = (s.lists.get p).shelf ∧
      (r.lists.get p).ann = (s.lists.get p).ann.map
        (fun e => if after = .returned ∧ e.alarm = i then { e with reminder := none } else e) ∧
      (r.lists.get p).horn = (if after = .returned ∧ onAnn s p i = true then hornSounds r p else (s.lists.get p).horn) ∧
      Told (atDesk p ((if after = .returned then ((s.lists.get p).ann.find? fun e => e.alarm == i).toList.map
        (fun e => .update i .returned e.silenced) else []) ++ hornNotices p s r)) m r := by
    subst hr
    by_cases back : after = .returned
    · obtain ⟨quiet, others, deferred, shelf, ann, horn, told⟩ := returned
      have lifecycle : lifecycleOf m i = .returned := by
        rw [lifecycleOf, alarmAt_eq written.self]; exact back
      have same : hornNotices p m (returnReport i m) = hornNotices p s (returnReport i m) := hornNotices_congr (by rw [written.lists]) rfl
      rw [lifecycle, same] at told
      rw [on] at horn
      simp only [if_pos back, back, true_and]
      exact ⟨quiet, others, deferred, shelf, ann, horn, told⟩
    · simp only [if_neg back, back, false_and, if_false, List.map_id']
      rw [written.lists]
      refine ⟨.refl .., fun _ _ => rfl, rfl, rfl, rfl, rfl, (Told.refl m).congr fun l => ?_⟩
      simp [hornNotices, atDesk, written.lists]
  generalize hr : (if after = .returned then returnReport i m else m) = r at work
  obtain ⟨quiet, others, deferred, shelf, ann, horn, told⟩ := middle r hr.symm
  generalize clearAlarm i event s = u at work
  have last : Kept [.positions, .links, .free] r u := work ▸ kept_lifecycleReport ..
  have lists : u.lists = r.lists := last.agrees .lists (by simp)
  have alarms : u.alarms = m.alarms := Eq.trans (last.agrees .alarms (by simp)) (quiet.kept.agrees .alarms (by simp))
  have sounds : hornSounds u p = hornSounds r p := hornSounds_congr (.of_kept last (by simp)) (by rw [lists])
  have positions : r.positions = s.positions := Eq.trans (quiet.kept.agrees .positions (by simp)) written.positions
  have owner' : ownerOf r i = p := by
    rw [← owner, ownerOf, ownerOf, areaOwner, areaOwner, show r.areas = m.areas from quiet.kept.agrees .areas (by simp),
      (MarksOnly.of_kept quiet.kept (by simp)).defn]
  have time : r.millTime = m.millTime := (quiet.kept.agrees .clock (by simp)).1
  obtain ⟨wrapped, follow, tells⟩ := lifecycleReport_spec i a.dyn.lifecycle after r
  rw [← work, owner'] at follow tells
  rw [itemNotices_congr p _ positions] at tells
  simp only [lists, sounds]
  refine ⟨by rw [alarm?_congr alarms, written.self], fun j hj => by rw [alarm?_congr alarms, written.others j hj], ?_, others, deferred,
    shelf, ann, horn, wrapped, follow.congr positions rfl, ?_⟩
  · exact (written.entries.before (.of_kept quiet.kept (by simp)) written.time).before (.of_kept last (by simp)) (time.trans written.time)
  · have same : hornNotices p s u = hornNotices p s r := hornNotices_congr rfl (by rw [lists])
    rw [same]
    exact ((told.from_links written.links).trans tells).congr fun l => atDesk_append ..

/-- R11: a CLEAR in the other lifecycles records the input alone. -/
theorem clearAlarm_still (raised : a.dyn.lifecycle ≠ .raised) (held : a.dyn.lifecycle ≠ .held) :
    clearAlarm i event s = modDyn i (fun d => { d with input := .inactive }) s := by
  have same : clearedFrom a.dyn.lifecycle a.defn.cls (isWithheld s i) = a.dyn.lifecycle := by
    cases h : a.dyn.lifecycle <;> simp_all [clearedFrom]
  simp only [clearAlarm, alarmAt_eq present, if_pos same]

end clear

theorem lifecycle_cleared {after : Lifecycle} (h : after = .normal ∨ after = .returned ∨ after = .latched) (a : Alarm) :
    (a.cleared after).settled = (a.defn, .inactive, after, (if after = .latched then a.dyn.acknowledger else none), a.dyn.shelved) := by
  rcases h with rfl | rfl | rfl <;> rfl

/-- The lists of every position after a CLEAR, from those of the position at which it works. -/
theorem clearAlarm_lists {p : Pos} {s u : State} {f : AnnEntry → AnnEntry} {c : Prop} [Decidable c] {g : AnnEntry → Prop}
    [DecidablePred g] (others : ∀ q, q ≠ p → u.lists.get q = s.lists.get q)
    (deferred : (u.lists.get p).deferred = (s.lists.get p).deferred) (shelf : (u.lists.get p).shelf = (s.lists.get p).shelf)
    (ann : (u.lists.get p).ann = (s.lists.get p).ann.map (fun e => if c ∧ g e then f e else e)) (q : Pos) :
    (u.lists.get q).deferred = (s.lists.get q).deferred ∧ (u.lists.get q).shelf = (s.lists.get q).shelf ∧
      (u.lists.get q).ann = (s.lists.get q).ann.map fun e => if q = p ∧ c ∧ g e then f e else e := by
  by_cases hq : q = p
  · subst hq; simp only [true_and]; exact ⟨deferred, shelf, ann⟩
  · simp only [others q hq, hq, false_and, if_false, List.map_id']; exact ⟨trivial, trivial, trivial⟩

/-- Settles O34. -/
theorem aClearReturnsTheAlarm : Obligations.AClearReturnsTheAlarm := by
  refine ⟨fun h i a after s hp present moves => ?_, fun h i a s hp present raised held => ?_⟩
  · have present' : alarm? (takeFrame h.link s) i = some a := present
    obtain ⟨-, other, which⟩ := clears_facts moves
    obtain ⟨record, untouched, entries, others, deferred, shelf, ann, horn, wrapped, follow, told⟩ :=
      clearAlarm_spec (s := takeFrame h.link s) present' true moves
    have quiet := quiet_clearAlarm (takeFrame h.link s) i true
    have desks := (desks_clearAlarm (s := takeFrame h.link s) i true).desks
    have settled := lifecycle_cleared which a
    have answer : eventAnswer i (takeFrame h.link s) (clearAlarm i true (takeFrame h.link s)) =
        doneWith (be8 1 ++ be8 (lifecycleCode after)) := by
      rw [eventAnswer_eq present' record, changeResult, if_neg (by exact other.symm)]; rfl
    have checked : firstRefusal [definedIndexCheck (takeFrame h.link s) i] = none := by
      simp [definedIndexCheck, isDefined, present']
    obtain ⟨t, next, done⟩ := request_done (out := exec (.alarmEventClear h i) s) (P := Served .alarmEvent h _ s _)
      (es := [be8 1 ++ be8 (lifecycleCode after)]) (g := false) rfl hp ((judged_of_none checked _).trans (congrArg (Prod.mk _) answer))
      quiet fun _ d => d
    generalize clearAlarm i true (takeFrame h.link s) = u at *
    have alarms : t.alarms = u.alarms := done.agrees .alarms nofun
    have lists : t.lists = u.lists := done.agrees .lists nofun
    have sounds : hornSounds t (ownerOf s i) = hornSounds u (ownerOf s i) := hornSounds_congr (.of_alarms alarms) (by rw [lists])
    refine ⟨t, a.cleared after, next, by rw [alarm?_congr alarms, record], settled, done.replied, done.journaled entries, fun q => ?_, rfl,
      fun h => ?_, fun h => ?_, ?_, fun q hq => ?_, ?_, fun j hj => ?_, DesksKept.congr desks rfl (done.agrees .positions nofun),
      done.lines, done.kept quiet.kept (by simp)⟩
    · rw [lists]; exact clearAlarm_lists others deferred shelf ann q
    · rcases which with rfl | rfl | rfl
      · exact absurd rfl h
      · rfl
      · rfl
    · subst h; rfl
    · simp only [lists, sounds]; exact horn
    · rw [lists]; exact others q hq
    · have same : hornNotices (ownerOf s i) s t = hornNotices (ownerOf s i) s u := hornNotices_congr rfl (by rw [lists])
      simp only [same]
      exact ⟨wrapped, done.follows follow, done.announced _ told⟩
    · rw [alarm?_congr alarms]; exact untouched j hj
  · have present' : alarm? (takeFrame h.link s) i = some a := present
    have work := clearAlarm_still present' true raised held
    have record := alarm?_modDyn_self present' fun d => { d with input := .inactive }
    have answer : eventAnswer i (takeFrame h.link s) (clearAlarm i true (takeFrame h.link s)) =
        doneWith (be8 255 ++ be8 (lifecycleCode a.dyn.lifecycle)) := by
      rw [work, eventAnswer_eq present' record, changeResult, if_pos rfl]; rfl
    have checked : firstRefusal [definedIndexCheck (takeFrame h.link s) i] = none := by
      simp [definedIndexCheck, isDefined, present']
    have quiet : Quiet [.alarms, .links] (takeFrame h.link s) (clearAlarm i true (takeFrame h.link s)) := by
      rw [work]; exact (quiet_modDyn ..).mono (by simp)
    refine request_done (out := exec (.alarmEventClear h i) s) (es := [be8 255 ++ be8 (lifecycleCode a.dyn.lifecycle)]) (g := false)
      rfl hp ((judged_of_none checked _).trans (congrArg (Prod.mk _) answer)) quiet fun t done => ?_
    have alarms : t.alarms = _ := done.agrees .alarms nofun
    rw [work] at alarms
    exact ⟨by rw [alarm?_congr alarms]; exact record, done.replied, fun j hj => by rw [alarm?_congr alarms]; exact alarm?_modDyn_ne hj _ _,
      done.lines, done.kept quiet.kept (by simp)⟩

/-- R31, R180: what an unweighted raise from RETURNED leaves of the record and the annunciation list. -/
theorem raiseAlarm_reraised_unweighted {i : Nat} {a : Alarm} {s : State} (present : alarm? s i = some a)
    (listed : isWithheld s i = false) (returned : a.dyn.lifecycle = .returned) : let p := ownerOf s i; let u := raiseAlarm i false s
    alarm? u i = some a.raised ∧ (u.lists.get p).ann = (s.lists.get p).ann.map fun e => if e.alarm = i then
      { e with silenced := false, reminder :=
        if (s.loads.get p).flood = false ∨ a.defn.priority ≤ 2 then some a.defn.reminder else none } else e := by
  intro p u
  obtain ⟨m, written, work⟩ := raiseAlarm_eq present false (.inr (.inr returned))
  have withheld : isWithheld m i = false := by
    rw [isWithheld_eq written.self, written.isSuppressed, ← listed, isWithheld_eq present]; rfl
  have owner : ownerOf m i = p := written.ownerOf i
  have way : raiseReport i a.dyn.lifecycle false m = reraised p i m := by
    rw [raiseReport, if_neg (by rw [withheld]; nofun), if_pos returned, reraiseReport_eq, owner]
    rfl
  obtain ⟨quiet, -, -, ann, -, -⟩ := reraised_spec p i m
  have last : Kept [.positions, .links, .free] (reraised p i m) u := by
    rw [show u = _ from work, way]; exact kept_lifecycleReport ..
  have fresh : freshReminder m p i =
      if (s.loads.get p).flood = false ∨ a.defn.priority ≤ 2 then some a.defn.reminder else none := by
    rw [freshReminder_eq written.self, written.loads]; simp [Alarm.raised]
  refine ⟨?_, ?_⟩
  · rw [alarm?_congr (last.agrees .alarms (by simp)), alarm?_congr (quiet.kept.agrees .alarms (by simp))]; exact written.self
  · rw [show u.lists = _ from last.agrees .lists (by simp), ann, written.lists, fresh]

/-- Settles O35. -/
theorem anAlarmStateIsUnweighted : Obligations.AnAlarmStateIsUnweighted := by
  refine ⟨fun h i a s hp resync present => ?_, fun h i a s hp resync present => ?inactive⟩
  · have present' : alarm? (takeFrame h.link s) i = some a := present
    have quiet := quiet_raiseAlarm_unweighted (s := takeFrame h.link s) i
    have checked : firstRefusal [⟨(1 : Nat) == 1, .malformed, 1⟩, resyncCheck (takeFrame h.link s),
        definedIndexCheck (takeFrame h.link s) i] = none := by
      have check : resyncCheck (takeFrame h.link s) = ⟨true, .badState, runStateCode s.runState⟩ := by
        rw [resyncCheck, show (takeFrame h.link s).runState = .resync from resync, resync]; rfl
      simp [definedIndexCheck, isDefined, present', check]
    obtain ⟨t, next, done⟩ := request_done (out := exec (.alarmStateActive h i 1) s) (P := Served .alarmState h _ s _)
      (g := false) rfl hp (judged_of_none checked _) quiet fun _ d => d
    have replied : Replied .alarmState h (eventAnswer i (takeFrame h.link s) (raiseAlarm i false (takeFrame h.link s))) s t := done.replied
    have frame := done.kept quiet.kept (by simp)
    have desks := done.desks (desks_raiseAlarm (s := takeFrame h.link s) i false).desks
    have alarms : t.alarms = _ := done.agrees .alarms nofun
    have lists : t.lists = _ := done.agrees .lists nofun
    have areas : t.areas = _ := done.agrees .areas nofun
    have positions : t.positions = _ := done.agrees .positions nofun
    by_cases moves : a.dyn.lifecycle = .normal ∨ a.dyn.lifecycle = .latched ∨ a.dyn.lifecycle = .returned
    · obtain ⟨⟨b, record, settled, placed⟩, -, quietly, -, others, otherAlarms, -⟩ := raiseAlarm_spec present' false moves
      have lifecycle : b.dyn.lifecycle = .raised := congrArg (fun x => x.2.2.1) settled
      have input : b.dyn.input = .active := congrArg (fun x => x.2.1) settled
      have other : a.dyn.lifecycle ≠ .raised := by rcases moves with h | h | h <;> rw [h] <;> nofun
      rw [eventAnswer_eq present' record, lifecycle, changeResult, if_neg other] at replied
      refine ⟨t, b, next, by rw [alarm?_congr alarms, record], input, fun _ => ⟨settled, replied, fun shut => ?_, fun open' other => ?_,
        fun open' back => ?_⟩, fun stays => ?_, fun j hj => ?_, desks, done.lines, frame⟩
      · exact lists.trans (quietly shut).2
      · obtain ⟨time, stood⟩ := placed open' other
        exact ⟨time, (isListed_congr alarms lists areas).trans stood⟩
      · obtain ⟨record', ann⟩ := raiseAlarm_reraised_unweighted present' open' back
        have same : b = a.raised := Option.some.inj (record.symm.trans record')
        exact ⟨by rw [same]; rfl, by rw [lists]; exact ann⟩
      · rcases moves with h | h | h <;> rw [h] at stays <;> simp at stays
      · rw [alarm?_congr alarms]; exact otherAlarms j hj
    · have stays : a.dyn.lifecycle = .raised ∨ a.dyn.lifecycle = .held ∨ a.dyn.lifecycle = .outOfService := by
        cases lc : a.dyn.lifecycle <;> simp_all
      have work := raiseAlarm_still present' false stays
      have record := alarm?_modDyn_self present' fun d => { d with input := .active }
      rw [work] at alarms lists positions replied
      rw [eventAnswer_eq present' record, changeResult, if_pos rfl] at replied
      exact ⟨t, _, next, by rw [alarm?_congr alarms, record], rfl, fun m => absurd m moves, fun _ => ⟨rfl, lists, positions, replied⟩,
        fun j hj => by rw [alarm?_congr alarms, alarm?_modDyn_ne hj]; rfl, desks, done.lines, frame⟩
  case inactive =>
    intro after
    have ofRaised (lc : a.dyn.lifecycle = .raised) : after = (if isWithheld s i then .normal else .returned) := by
      simp only [after, lc]
    have ofHeld (lc : a.dyn.lifecycle = .held) : after = (if a.defn.cls = .safety then .latched else .normal) := by
      simp only [after, lc]
    have ofOther (raised : a.dyn.lifecycle ≠ .raised) (held : a.dyn.lifecycle ≠ .held) : after = a.dyn.lifecycle := by
      simp only [after]
    clear_value after
    have present' : alarm? (takeFrame h.link s) i = some a := present
    have quiet := quiet_clearAlarm_silent (s := takeFrame h.link s) i
    have checked : firstRefusal [resyncCheck (takeFrame h.link s), definedIndexCheck (takeFrame h.link s) i] = none := by
      have check : resyncCheck (takeFrame h.link s) = ⟨true, .badState, runStateCode s.runState⟩ := by
        rw [resyncCheck, show (takeFrame h.link s).runState = .resync from resync, resync]; rfl
      simp [definedIndexCheck, isDefined, present', check]
    obtain ⟨t, next, done⟩ := request_done (out := exec (.alarmStateInactive h i) s) (P := Served .alarmState h _ s _)
      (g := false) rfl hp (judged_of_none checked _) quiet fun _ d => d
    have replied : Replied .alarmState h (eventAnswer i (takeFrame h.link s) (clearAlarm i false (takeFrame h.link s))) s t := done.replied
    have frame := done.kept quiet.kept (by simp)
    have desks := done.desks (desks_clearAlarm (s := takeFrame h.link s) i false).desks
    have alarms : t.alarms = _ := done.agrees .alarms nofun
    have lists : t.lists = _ := done.agrees .lists nofun
    have stated (b : Alarm) (record : alarm? (clearAlarm i false (takeFrame h.link s)) i = some b)
        (settled : b.settled = (a.defn, .inactive, after,
          (if after = a.dyn.lifecycle ∨ after = .latched then a.dyn.acknowledger else none), a.dyn.shelved)) :
        alarm? t i = some b ∧ Replied .alarmState h (doneWith (be8 (if after = a.dyn.lifecycle then 255 else 1) ++
          be8 (lifecycleCode after))) s t := by
      have lifecycle : b.dyn.lifecycle = after := congrArg (fun x => x.2.2.1) settled
      rw [eventAnswer_eq present' record, lifecycle] at replied
      refine ⟨by rw [alarm?_congr alarms, record], ?_⟩
      by_cases same : after = a.dyn.lifecycle
      · rw [if_pos same]; rwa [changeResult, if_pos same.symm] at replied
      · rw [if_neg same]; rwa [changeResult, if_neg (Ne.symm same)] at replied
    by_cases moves : a.dyn.lifecycle = .raised ∨ a.dyn.lifecycle = .held
    · have clears : Clears (takeFrame h.link s) i a after := by
        rcases moves with lc | lc
        · exact .inl ⟨lc, ofRaised lc⟩
        · exact .inr ⟨lc, ofHeld lc⟩
      obtain ⟨-, other, which⟩ := clears_facts clears
      obtain ⟨record, untouched, -, others, deferred, shelf, ann, -⟩ := clearAlarm_spec present' false clears
      have settled : (a.cleared after).settled = (a.defn, .inactive, after,
          (if after = a.dyn.lifecycle ∨ after = .latched then a.dyn.acknowledger else none), a.dyn.shelved) := by
        rw [lifecycle_cleared which]; simp [other]
      obtain ⟨final, reply⟩ := stated _ record settled
      have only : after = .returned ↔ a.dyn.lifecycle = .raised ∧ after = .returned := by
        refine ⟨fun back => ⟨?_, back⟩, And.right⟩
        rcases clears with ⟨lc, -⟩ | ⟨-, into⟩
        · exact lc
        · rw [back] at into; split at into <;> simp at into
      refine ⟨t, _, next, final, settled, reply, fun q => ?_, fun j hj => by rw [alarm?_congr alarms]; exact untouched j hj, desks,
        done.lines, frame⟩
      rw [lists]
      refine clearAlarm_lists (c := a.dyn.lifecycle = .raised) (g := fun e => after = .returned ∧ e.alarm = i) others deferred shelf ?_ q
      rw [ann]
      refine List.map_congr_left fun e _ => ?_
      by_cases back : after = .returned
      · simp [back, (only.1 back).1]
      · simp [back]
    · obtain ⟨raised, held⟩ := not_or.1 moves
      have work := clearAlarm_still present' false raised held
      have record := alarm?_modDyn_self present' fun d => { d with input := .inactive }
      have settled : (Alarm.mk a.defn { a.dyn with input := .inactive }).settled = (a.defn, .inactive, after,
          (if after = a.dyn.lifecycle ∨ after = .latched then a.dyn.acknowledger else none), a.dyn.shelved) := by
        rw [ofOther raised held]; simp [Alarm.settled]
      obtain ⟨final, reply⟩ := stated _ (by rw [work]; exact record) settled
      rw [work] at alarms lists
      refine ⟨t, _, next, final, settled, reply, fun q => ?_, fun j hj => by rw [alarm?_congr alarms, alarm?_modDyn_ne hj]; rfl, desks,
        done.lines, frame⟩
      rw [lists]
      simp only [raised, false_and, and_false, if_false, List.map_id']
      exact ⟨rfl, rfl, rfl⟩

end Sys2Proof.Machine
end

section
/-! PROOFS. The end of a shelve: the entry leaves the shelf, and an alarm that is still unacknowledged is placed. -/

namespace Sys2Proof.Machine

/-! ### A placement that depends on a condition -/

/-- R16, R115: an alarm is placed, weighted, where a condition holds. -/
abbrev placedIf (c : Bool) (i : Nat) (m : State) : State := if c then placeReport i true m else m

section place
variable {i : Nat} {b : Alarm} {m : State} (c : Bool)

theorem quiet_placedIf (i : Nat) (m : State) : Quiet [.alarms, .lists, .links, .loads, .journal, .positions, .free] m (placedIf c i m) :=
  .when (quiet_placeReport ..)

theorem atPos_placedIf (i : Nat) (m : State) : AtPos (ownerOf m i) m (placedIf c i m) := .when (atPos_placeReport _ _ _ _ rfl)

variable (record : alarm? m i = some b)
include record

theorem placedIf_spec : let p := ownerOf m i; let r := placedIf c i m
    (c = true → (∃ x, alarm? r i = some { b with dyn := { b.dyn with annTime := some m.millTime, overflow := x } }) ∧
      standsAt r p i = true ∧ r.loads.get p = ((m.loads.get p).added (arrivalWeight b.defn.priority)).evaluated) ∧
    (c = false → r = m) ∧ ∃ ls, Journaled ls m r := by
  cases c with
  | true =>
    obtain ⟨record', stands, entries, load⟩ := placeReport_spec record true
    exact ⟨fun _ => ⟨record', stands, load⟩, nofun, entries⟩
  | false => exact ⟨nofun, fun _ => rfl, [], rfl, rfl⟩

theorem placedIf_items (sound : b.defn.Sound) : ∃ wrapped, let p := ownerOf m i; let r := placedIf c i m
    let work := (itemsFlood p m r).andThen ((itemsPlaced wrapped b.defn.priority i).onlyIf c)
    ItemsFollow p work m r ∧ ((m.loads.get p).Sound → Told (fun l =>
      atDesk p ((if c then placementNotices p i m.millTime b.dyn.lifecycle m else []) ++ hornNotices p m r) l ++
        atBoth p (loadNotices p m r) l ++ atDesk p (itemNotices p work m) l) m r) := by
  cases c with
  | true => exact placeReport_items record true sound
  | false =>
    have item : itemsFlood (ownerOf m i) m (placedIf false i m) = noItems := itemsFlood_still rfl
    have notice : loadNotices (ownerOf m i) m (placedIf false i m) = [] := loadNotices_still rfl
    refine ⟨fun _ => 0, ?_⟩
    have horn : hornNotices (ownerOf m i) m (placedIf false i m) = [] := if_pos rfl
    simp only [item, notice, horn, ItemWork.onlyIf_false, ItemWork.andThen_noItems]
    refine ⟨ItemsFollow.refl _ m, fun _ => (Told.refl m).congr fun l => ?_⟩
    simp [itemNotices_noItems, atDesk, atBoth]

end place

/-! ### The end of a shelve -/

/-- R115: a shelve has ended, with its entry in the journal; the alarm is not yet placed. -/
abbrev unshelved (p : Pos) (i : Nat) (k : EntryKind) (o : Option Nat) (c : Nat) (s : State) : State :=
  append k (some p) o (some i) c (leaveShelf p i s)

theorem recorded_unshelved {i : Nat} {a : Alarm} {s : State} (present : alarm? s i = some a) (p : Pos) (k : EntryKind) (o : Option Nat)
    (c : Nat) : Recorded i a { a with dyn := { a.dyn with shelved := false } } [⟨k, some p, o, some i, c⟩]
      (modLists p (fun v => { v with shelf := v.shelf.filter fun e => e.alarm != i }) s) (unshelved p i k o c s) :=
  (recorded_modDyn (s := modLists p (fun v => { v with shelf := v.shelf.filter fun e => e.alarm != i }) s) present
    (fun d => { d with shelved := false })).append ..

theorem unshelved_lists (p : Pos) (i : Nat) (k : EntryKind) (o : Option Nat) (c : Nat) (s : State) (q : Pos) :
    (unshelved p i k o c s).lists.get q =
      if q = p then { s.lists.get p with shelf := (s.lists.get p).shelf.filter fun e => e.alarm != i } else s.lists.get q :=
  modLists_get p q (fun v => { v with shelf := v.shelf.filter fun e => e.alarm != i }) s

theorem placedAfterShelf_iff {i : Nat} {a : Alarm} {s : State} (present : alarm? s i = some a) : placedAfterShelf s i = true ↔
    (a.dyn.lifecycle = .raised ∨ a.dyn.lifecycle = .returned) ∧ isSuppressed s i = false := by
  simp [placedAfterShelf, lifecycleOf, alarmAt_eq present]

/-- R115, R117: the work of both ways in which a shelve ends. -/
abbrev shelveEnded (i : Nat) (k : EntryKind) (o : Option Nat) (c : Nat) (s : State) : State :=
  endShelve (ownerOf s i) i (unshelved (ownerOf s i) i k o c s)

section ended
variable {i : Nat} {a : Alarm} {s : State} (present : alarm? s i = some a) (k : EntryKind) (o : Option Nat) (c : Nat)
include present

theorem shelveEnded_eq : shelveEnded i k o c s =
    shelfEndedReport (ownerOf s i) i (placedIf (placedAfterShelf s i) i (unshelved (ownerOf s i) i k o c s)) := by
  have written := recorded_unshelved present (ownerOf s i) k o c
  have same : placedAfterShelf (unshelved (ownerOf s i) i k o c s) i = placedAfterShelf s i := by
    have lifecycle : lifecycleOf (unshelved (ownerOf s i) i k o c s) i = lifecycleOf s i := by
      rw [lifecycleOf, lifecycleOf, alarmAt_eq written.self, alarmAt_eq present]
    rw [placedAfterShelf, placedAfterShelf, written.isSuppressed, lifecycle]
    rfl
  rw [shelveEnded, endShelve, same]

/-- R115, R117: what the end of a shelve leaves of the alarm, the shelf, the load and the journal. -/
theorem shelveEnded_spec : let p := ownerOf s i; let u := shelveEnded i k o c s
    (∃ b, alarm? u i = some b ∧ b.settled = (a.defn, a.dyn.input, a.dyn.lifecycle, a.dyn.acknowledger, false) ∧
      (placedAfterShelf s i = true → b.dyn.annTime = some s.millTime ∧ isListed u i = true ∧
        (u.loads.get p).load = min 65535 ((s.loads.get p).load + arrivalWeight a.defn.priority)) ∧
      (placedAfterShelf s i = false → u.loads = s.loads ∧ b.dyn.annTime = a.dyn.annTime)) ∧
    (u.lists.get p).shelf = (s.lists.get p).shelf.filter (fun e => e.alarm != i) ∧
    JournaledFirst [⟨k, some p, o, some i, c⟩] s u ∧ OtherAlarmsSettled i s u ∧ DesksKept s u := by
  intro p u
  have work : u = _ := shelveEnded_eq present k o c
  have written := recorded_unshelved present p k o c
  generalize hm : unshelved p i k o c s = m at written
  have lists : m.lists.get p = { s.lists.get p with shelf := (s.lists.get p).shelf.filter fun e => e.alarm != i } := by
    rw [← hm, unshelved_lists, if_pos rfl]
  rw [hm] at work
  have owner : ownerOf m i = p := written.ownerOf i
  obtain ⟨placed, unplaced, ls, entries⟩ := placedIf_spec (placedAfterShelf s i) written.self
  have place : AtPos p m (placedIf (placedAfterShelf s i) i m) := owner ▸ atPos_placedIf ..
  have quiet := quiet_placedIf (placedAfterShelf s i) i m
  generalize placedIf (placedAfterShelf s i) i m = r at *
  have last : Kept [.positions, .links] r u := work ▸ (quiet_shelfEndedReport ..).kept
  have ended : AtPos p r u := work ▸ atPos_shelfEndedReport ..
  clear_value u
  have alarms : u.alarms = r.alarms := last.agrees .alarms (by simp)
  have loads : u.loads = r.loads := last.agrees .loads (by simp)
  have time : r.millTime = m.millTime := (quiet.kept.agrees .clock (by simp)).1
  have settled := (place.trans ended).settled i
  rw [written.self] at settled
  obtain ⟨b, hb, same⟩ := Option.map_eq_some_iff.1 settled
  refine ⟨⟨b, hb, same, fun yes => ?_, fun no => ?_⟩, ?_, ⟨ls, ?_⟩, fun j hj => ?_, fun q => ?_⟩
  · obtain ⟨⟨x, record⟩, stands, load⟩ := placed yes
    rw [alarm?_congr alarms, record] at hb
    refine ⟨by rw [← Option.some.inj hb]; exact congrArg some written.time, ?_, ?_⟩
    · rw [isListed_eq, (place.trans ended).ownerOf, owner]
      rw [owner] at stands
      exact (KeepsStanding.of_kept last (by simp) (by simp) p).stands i stands
    · rw [owner, written.loads] at load
      rw [loads, load]
      exact PosLoad.added_load ..
  · have still := unplaced no
    rw [alarm?_congr alarms, still, written.self] at hb
    exact ⟨by rw [loads, still, written.loads]; rfl, by rw [← Option.some.inj hb]⟩
  · rw [(place.trans ended).shelf, lists]
  · have all := (written.entries.trans entries written.time).before (.of_kept last (by simp)) (time.trans written.time)
    exact (Journaled.of_kept (quiet_modLists s p _).kept (by simp)).after all rfl
  · rw [(place.trans ended).settled j, written.others j hj]; rfl
  · rw [(place.trans ended).desks q, written.positions]; rfl

/-- R115, R117, R131, R132, R134, R136: the items and the notices of the end of a shelve. -/
theorem shelveEnded_items (sound : a.defn.Sound) : ∃ wrapped, let p := ownerOf s i; let u := shelveEnded i k o c s
    let placed := placedAfterShelf s i
    let work := ((itemsFlood p s u).andThen ((itemsPlaced wrapped a.defn.priority i).onlyIf placed)).andThen (itemResolved .shelf i)
    ItemsFollow p work s u ∧ ((s.loads.get p).Sound → Told (fun l =>
      atDesk p ((if placed then placementNotices p i s.millTime a.dyn.lifecycle s else []) ++ hornNotices p s u) l ++
        atBoth p (loadNotices p s u) l ++ atDesk p (itemNotices p work s) l) s u) := by
  generalize hu : shelveEnded i k o c s = u
  have work := hu.symm.trans (shelveEnded_eq present k o c)
  generalize hp : ownerOf s i = p at work
  have written := recorded_unshelved present p k o c
  generalize hm : unshelved p i k o c s = m at written work
  have lists : m.lists.get p = { s.lists.get p with shelf := (s.lists.get p).shelf.filter fun e => e.alarm != i } := by
    rw [← hm, unshelved_lists, if_pos rfl]
  have owner : ownerOf m i = p := (written.ownerOf i).trans hp
  obtain ⟨wrapped, follow, told⟩ := placedIf_items (placedAfterShelf s i) written.self sound
  have place : AtPos p m (placedIf (placedAfterShelf s i) i m) := owner ▸ atPos_placedIf ..
  rw [owner] at follow told
  generalize placedIf (placedAfterShelf s i) i m = r at *
  have last : Kept [.positions, .links] r u := work ▸ (quiet_shelfEndedReport ..).kept
  have loads : u.loads = r.loads := last.agrees .loads (by simp)
  have before : m.loads = s.loads := written.loads
  have positions : m.positions = s.positions := written.positions
  have item : itemsFlood p m r = itemsFlood p s u := itemsFlood_congr (by rw [before]) (by rw [loads])
  have notice : loadNotices p m r = loadNotices p s u := loadNotices_congr (by rw [before]) (by rw [loads])
  have horn : hornNotices p m r = hornNotices p s u :=
    hornNotices_congr (by rw [lists]) (by rw [show u.lists = r.lists from last.agrees .lists (by simp)])
  have listing : placementNotices p i m.millTime a.dyn.lifecycle m = placementNotices p i s.millTime a.dyn.lifecycle s := by
    rw [written.time]
    simp only [placementNotices, written.priorityOf, written.rankOf, written.annunciation, lists, before]
    rfl
  rw [item] at follow told
  simp only [listing] at told
  rw [notice, horn, itemNotices_congr p _ positions, before] at told
  obtain ⟨later, tells⟩ := shelfEndedReport_spec p i r
  rw [← work] at later tells
  have follow' := follow.congr positions rfl
  have state : (r.positions.get p).state = (s.positions.get p).state := by rw [place.desks.state p, positions]
  refine ⟨wrapped, follow'.andThen state later, fun fit => ?_⟩
  refine (((told fit).from_links written.links).trans tells).congr fun l => ?_
  rw [itemNotices_andThen follow' state]
  simp only [atDesk_append, List.append_assoc]

/-- What holds of every state that agrees, beside its links, with the state in which a shelve has ended; `Tells` is how it tells. -/
theorem shelveEnded_over {t : State} {Tells : (Link → List Notice) → Prop} (same : Kept [.links] (shelveEnded i k o c s) t)
    (tells : ∀ told, Told told s (shelveEnded i k o c s) → Tells told) : let q := ownerOf s i; let placed := placedAfterShelf s i
    ∃ b, alarm? t i = some b ∧ b.settled = (a.defn, a.dyn.input, a.dyn.lifecycle, a.dyn.acknowledger, false) ∧
      (t.lists.get q).shelf = (s.lists.get q).shelf.filter (fun e => e.alarm != i) ∧ JournaledFirst [⟨k, some q, o, some i, c⟩] s t ∧
      (placed = true → b.dyn.annTime = some s.millTime ∧ isListed t i = true ∧
        (t.loads.get q).load = min 65535 ((s.loads.get q).load + arrivalWeight a.defn.priority)) ∧
      (placed = false → t.loads = s.loads ∧ b.dyn.annTime = a.dyn.annTime) ∧
      (a.defn.Sound → ∃ wrapped,
        let work := ((itemsFlood q s t).andThen ((itemsPlaced wrapped a.defn.priority i).onlyIf placed)).andThen (itemResolved .shelf i)
        ItemsFollow q work s t ∧ ((s.loads.get q).Sound → Tells (fun l =>
          atDesk q ((if placed then placementNotices q i s.millTime a.dyn.lifecycle s else []) ++ hornNotices q s t) l ++
            atBoth q (loadNotices q s t) l ++ atDesk q (itemNotices q work s) l))) ∧ OtherAlarmsSettled i s t ∧ DesksKept s t := by
  intro q placed
  obtain ⟨⟨b, record, settled, stands, unplaced⟩, shelf, ⟨ls, entries⟩, others, desks⟩ := shelveEnded_spec present k o c
  have items := shelveEnded_items present k o c
  generalize shelveEnded i k o c s = u at *
  have alarms : t.alarms = u.alarms := same.agrees .alarms (by simp)
  have lists : t.lists = u.lists := same.agrees .lists (by simp)
  have loads : t.loads = u.loads := same.agrees .loads (by simp)
  have areas : t.areas = u.areas := same.agrees .areas (by simp)
  have positions : t.positions = u.positions := same.agrees .positions (by simp)
  refine ⟨b, by rw [alarm?_congr alarms, record], settled, by rw [lists]; exact shelf, ⟨ls, ?_⟩, fun yes => ?_, fun no => ?_, fun sound => ?_,
    fun j hj => by rw [alarm?_congr alarms]; exact others j hj, desks.congr rfl positions⟩
  · obtain ⟨journal, next⟩ : t.journal = u.journal ∧ t.nextSeq = u.nextSeq := same.agrees .journal (by simp)
    exact ⟨journal.trans entries.1, next.trans entries.2⟩
  · obtain ⟨time, stood, load⟩ := stands yes
    exact ⟨time, (isListed_congr alarms lists areas).trans stood, by rw [loads]; exact load⟩
  · obtain ⟨sameLoads, time⟩ := unplaced no
    exact ⟨loads.trans sameLoads, time⟩
  · obtain ⟨wrapped, follow, told⟩ := items sound
    have item : itemsFlood q s t = itemsFlood q s u := itemsFlood_congr rfl (by rw [loads])
    have notice : loadNotices q s t = loadNotices q s u := loadNotices_congr rfl (by rw [loads])
    have horn : hornNotices q s t = hornNotices q s u := hornNotices_congr rfl (by rw [lists])
    simp only [item, notice, horn]
    exact ⟨wrapped, ItemsFollow.congr follow rfl positions, fun fit => tells _ (told fit)⟩

end ended

/-- Settles O45. -/
theorem aShelveEndsWithAPlacement : Obligations.AShelveEndsWithAPlacement := by
  refine ⟨fun h p i a e s hp hl present may shelved found => ?_, fun i a e s present found due => ?_⟩
  · have present' : alarm? (takeFrame h.link s) i = some a := present
    have entry : (shelfEntryOf (takeFrame h.link s) i).remaining = e.remaining := by
      have at_i : shelfEntry? s (ownerOf s i) i = some e := found
      exact congrArg (fun x => ShelfEntry.remaining (x.getD blankShelf)) at_i
    have work : unshelveAlarm h.op i (takeFrame h.link s) = shelveEnded i .unshelved (some h.op) e.remaining (takeFrame h.link s) := by
      rw [← entry]; rfl
    have level : ackLevelOf (takeFrame h.link s) i = a.defn.ackLevel := congrArg (·.defn.ackLevel) (alarmAt_eq present')
    have checked : firstRefusal (alarmActionChecks (takeFrame h.link s) h.op i .shelve (ackLevelOf (takeFrame h.link s) i) p ++
        [⟨(alarmAt (takeFrame h.link s) i).dyn.shelved, .badState, i⟩]) = none := by
      rw [firstRefusal_append (firstRefusal_alarmActionChecks (level ▸ may)), alarmAt_eq present', shelved]; rfl
    have quiet := quiet_unshelveAlarm (s := takeFrame h.link s) h.op i
    have lifecycle : lifecycleOf (takeFrame h.link s) i = a.dyn.lifecycle := congrArg (·.dyn.lifecycle) (alarmAt_eq present')
    obtain ⟨t, next, done⟩ := request_done (out := exec (.unshelve h i) s) (P := Served .unshelve h _ s _) (g := false) rfl hp
      ((atConsole_console hl _ _).trans (judged_of_none checked _)) quiet fun _ d => d
    have replied := done.replied
    rw [lifecycle] at replied
    obtain ⟨b, record, settled, shelf, ⟨more, lines⟩, placed, unplaced, items, others, desks⟩ := shelveEnded_over present' .unshelved
      (some h.op) e.remaining (t := t) (Tells := fun told => Announced told s t) (work ▸ done.same) (work ▸ done.announced)
    have entries := (Journaled.of_kept (kept_takeFrame s h.link) (by simp)).after lines rfl
    exact ⟨t, b, placedAfterShelf s i, next, record, placedAfterShelf_iff present, settled, shelf, replied, ⟨more, entries⟩, placed, unplaced, items,
      others, desks, done.lines, done.kept (quiet.kept.mono (by simp)) (by simp)⟩
  · have entry : (shelfEntryOf s i).effective = e.effective := by
      have at_i : shelfEntry? s (ownerOf s i) i = some e := found
      exact congrArg (fun x => ShelfEntry.effective (x.getD blankShelf)) at_i
    have work : expireShelf i s = shelveEnded i .shelfExpired none e.effective s := by rw [← entry]; rfl
    have expired : shelfDue s i = true := List.any_eq_true.2 ⟨e, List.mem_of_find?_eq_some found, by
      have same := List.find?_some found
      simp only [Bool.and_eq_true, beq_iff_eq] at same ⊢
      exact ⟨same, due⟩⟩
    have quiet := quiet_expireShelf (s := s) i
    obtain ⟨t, next, done⟩ := event_done (out := execShelfExpiry i s) (P := Expired s _) rfl (by simp only [expired, if_true]) quiet
      fun _ d => d
    obtain ⟨b, record, settled, shelf, entries, placed, unplaced, items, others, desks⟩ := shelveEnded_over present .shelfExpired
      none e.effective (t := t) (Tells := fun told => Announced told s t) (work ▸ done.same) (work ▸ done.announced)
    exact ⟨t, b, placedAfterShelf s i, next, record, placedAfterShelf_iff present, settled, shelf, entries, placed, unplaced, items,
      others, desks, done.lines, done.noReply, done.kept (quiet.kept.mono (by simp)) (by simp)⟩

end Sys2Proof.Machine
end

section
/-! PROOFS. A departure from the lists (R32): the REMOVE report, what becomes of the alarm that leaves, and what its leaving tells. -/

namespace Sys2Proof.Machine

/-! ### Where the alarms stand at their owners, while others are moved about -/

theorem wf_modDyn {s : State} (h : s.alarms.wf = true) (i : Nat) (f : AlarmDyn → AlarmDyn) :
    (modDyn i f s).alarms.wf = true := Table.wf_modify h ..

theorem mem_overflowSet {s : State} {p : Pos} {e : ListEntry} (h : e ∈ overflowSet s p) :
    ∃ x ∈ s.alarms, x.1 = e.alarm ∧ x.2.dyn.overflow = true ∧ areaOwner s x.2.defn.area = p := by
  have inserted (es acc : List ListEntry) (he : e ∈ es.foldl (fun l e => insertBy (entryBefore s) e l) acc) : e ∈ es ∨ e ∈ acc := by
    induction es generalizing acc with
    | nil => exact .inr he
    | cons x es ih =>
      rcases ih _ he with h | h
      · exact .inl (List.mem_cons_of_mem _ h)
      · rcases mem_insertBy.1 h with rfl | h
        · exact .inl (List.mem_cons_self ..)
        · exact .inr h
  rcases inserted _ [] h with h | h
  · obtain ⟨x, hx, he⟩ := List.mem_filterMap.1 h
    split at he
    · rename_i marked
      simp only [Bool.and_eq_true, beq_iff_eq] at marked
      exact ⟨x, hx, by rw [← Option.some.inj he], marked⟩
    · cases he
  · cases h

/-- R25: the alarms of an overflow set are in overflow, and the position owns them. -/
theorem overflowSet_spec {s : State} (wf : s.alarms.wf = true) {p : Pos} {e : ListEntry} (h : e ∈ overflowSet s p) :
    (alarmAt s e.alarm).dyn.overflow = true ∧ ownerOf s e.alarm = p := by
  obtain ⟨⟨i, a⟩, mem, same, marked, owner⟩ := mem_overflowSet h
  have present : alarm? s i = some a := Table.get?_of_mem wf mem
  simp only at same
  rw [← same, ownerOf, alarmAt_eq present]
  exact ⟨marked, owner⟩

/-- Work that moves alarms between the places of a position and lists or unlists none of them at its owner. -/
structure Shuffles (s t : State) : Prop where
  wf : s.alarms.wf = true → t.alarms.wf = true
  listed : s.alarms.wf = true → ∀ j, isListed t j = isListed s j
  onePlace : s.alarms.wf = true → ∀ j, OnePlace s j → OnePlace t j

namespace Shuffles
variable {s t u : State}

theorem refl (s : State) : Shuffles s s := ⟨fun h => h, fun _ _ => rfl, fun _ _ h => h⟩

theorem trans (h : Shuffles s t) (k : Shuffles t u) : Shuffles s u :=
  ⟨fun wf => k.wf (h.wf wf), fun wf j => (k.listed (h.wf wf) j).trans (h.listed wf j),
   fun wf j one => k.onePlace (h.wf wf) j (h.onePlace wf j one)⟩

theorem when {c : Prop} [Decidable c] (k : c → Shuffles t u) : Shuffles t (if c then u else t) := by
  split
  · exact k ‹_›
  · exact .refl t

/-- Work that leaves who stands where. -/
theorem of_places (alarms : t.alarms = s.alarms) (areas : t.areas = s.areas) (ann : ∀ q j, onAnn t q j = onAnn s q j)
    (deferred : ∀ q, (t.lists.get q).deferred = (s.lists.get q).deferred) : Shuffles s t := by
  have records (j : Nat) : alarmAt t j = alarmAt s j := by rw [alarmAt, alarmAt, alarm?_congr alarms]
  have owner (j : Nat) : ownerOf t j = ownerOf s j := by rw [ownerOf, ownerOf, records, areaOwner, areaOwner, areas]
  refine ⟨fun wf => by rw [alarms]; exact wf, fun _ j => ?_, fun _ j one => ?_⟩
  · simp only [isListed, owner, ann, onDeferred, deferred, records]
  · simpa only [OnePlace, owner, ann, onDeferred, deferred, records] using one

theorem of_kept {ps : List Part} (h : Kept ps s t) (ha : .alarms ∉ ps) (hr : .areas ∉ ps) (hl : .lists ∉ ps) : Shuffles s t := by
  have lists : t.lists = s.lists := h.agrees .lists hl
  exact of_places (h.agrees .alarms ha) (h.agrees .areas hr) (fun q j => by rw [onAnn, onAnn, lists]) fun q => by rw [lists]

end Shuffles

theorem shuffles_judgeHorn (p : Pos) (s : State) : Shuffles s (judgeHorn p s) := by
  have kept := (quiet_judgeHorn s p).kept
  refine .of_places (kept.agrees .alarms (by simp)) (kept.agrees .areas (by simp)) (fun q j => ?_) fun q => ?_
  · rw [onAnn, onAnn, judgeHorn_lists]; split <;> simp_all
  · rw [judgeHorn_lists]; split <;> simp_all

theorem onDeferred_of_mem {s : State} {p : Pos} {e : ListEntry} (h : e ∈ (s.lists.get p).deferred) :
    onDeferred s p e.alarm = true := List.any_eq_true.2 ⟨e, h, beq_self_eq_true _⟩

theorem any_insertBy {α : Type} (before : α → α → Bool) (x : α) (l : List α) (f : α → Bool) :
    (insertBy before x l).any f = (f x || l.any f) := by
  rw [Bool.eq_iff_iff, List.any_eq_true, Bool.or_eq_true, List.any_eq_true]
  simp only [mem_insertBy, or_and_right, exists_or, exists_eq_left]

theorem any_filter_ne {α : Type} (key : α → Nat) (i j : Nat) (l : List α) :
    (l.filter fun x => key x != i).any (fun x => key x == j) = (if j = i then false else l.any fun x => key x == j) := by
  rw [List.any_filter]
  split
  · rename_i same
    exact List.any_eq_false.2 fun x _ => by simp [same]
  · rename_i other
    exact List.any_congr rfl fun x => by
      by_cases h : key x = j
      · simp [h, other]
      · simp [h]

theorem onAnn_promoted (p q : Pos) (e : ListEntry) (s : State) (j : Nat) :
    onAnn (promoted p e s) q j = ((q == p && e.alarm == j) || onAnn s q j) := by
  rw [onAnn, onAnn, promoted_lists]
  split
  · rename_i h; subst h; simp [any_insertBy]
  · rename_i h; simp [h]

theorem onDeferred_promoted (p q : Pos) (e : ListEntry) (s : State) (j : Nat) :
    onDeferred (promoted p e s) q j = (if q = p ∧ j = e.alarm then false else onDeferred s q j) := by
  rw [onDeferred, onDeferred, promoted_lists]
  by_cases h : q = p
  · subst h
    simp only [if_true, true_and]
    exact any_filter_ne ListEntry.alarm e.alarm j _
  · simp [h]

/-- R33: a promotion moves a deferred alarm. -/
theorem shuffles_promoted {p : Pos} {e : ListEntry} {s : State} (h : e ∈ (s.lists.get p).deferred) : Shuffles s (promoted p e s) := by
  have stood := onDeferred_of_mem h
  have owner (j : Nat) : ownerOf (promoted p e s) j = ownerOf s j := rfl
  have record (j : Nat) : alarmAt (promoted p e s) j = alarmAt s j := rfl
  refine ⟨fun wf => wf, fun _ j => ?_, fun _ j one => ?_⟩
  · rw [isListed_eq, isListed_eq, owner, standsAt, standsAt, onAnn_promoted, onDeferred_promoted, record]
    by_cases moved : ownerOf s j = p ∧ j = e.alarm
    · obtain ⟨at_p, same⟩ := moved
      subst same
      rw [at_p, stood]; simp
    · rw [if_neg moved]
      have off : (ownerOf s j == p && e.alarm == j) = false := by
        rw [Bool.and_eq_false_iff, beq_eq_false_iff_ne, beq_eq_false_iff_ne]
        exact (not_and_or.1 moved).imp_right Ne.symm
      rw [off]; rfl
  · rw [OnePlace, owner, onAnn_promoted, onDeferred_promoted, record]
    by_cases moved : ownerOf s j = p ∧ j = e.alarm
    · obtain ⟨at_p, same⟩ := moved
      subst same
      rw [if_pos ⟨at_p, rfl⟩]
      exact ⟨fun _ => ⟨rfl, one.2 (by rw [at_p]; exact stood)⟩, nofun⟩
    · rw [if_neg moved]
      refine ⟨fun on => one.1 ?_, one.2⟩
      rcases Bool.or_eq_true _ _ ▸ on with new | old
      · rw [Bool.and_eq_true, beq_iff_eq, beq_iff_eq] at new
        exact absurd ⟨new.1, new.2.symm⟩ moved
      · exact old

theorem onDeferred_joinDeferred (p q : Pos) (i : Nat) (t : Word) (s : State) (j : Nat) :
    onDeferred (joinDeferred p i t s) q j = ((q == p && i == j) || onDeferred s q j) := by
  rw [onDeferred, onDeferred, joinDeferred_lists]
  split
  · rename_i h; subst h; simp [any_insertBy]
  · rename_i h; simp [h]

theorem onAnn_joinDeferred (p q : Pos) (i : Nat) (t : Word) (s : State) (j : Nat) :
    onAnn (joinDeferred p i t s) q j = onAnn s q j := by
  rw [onAnn, onAnn, joinDeferred_lists]
  split
  · rename_i h; subst h; rfl
  · rfl

theorem overflow_joinDeferred (p : Pos) (i : Nat) (t : Word) (s : State) (j : Nat) :
    (alarmAt (joinDeferred p i t s) j).dyn.overflow = (if j = i then false else (alarmAt s j).dyn.overflow) := by
  have same : alarmAt (joinDeferred p i t s) j = alarmAt (setOverflow i false s) j := rfl
  rw [same]
  split
  · rename_i h; subst h; exact overflow_setOverflow_false ..
  · rename_i h; rw [alarmAt_setOverflow_ne h]

/-- R34: a refill moves an alarm of the position from overflow to its deferred list. -/
theorem shuffles_joinDeferred {p : Pos} {i : Nat} {s : State}
    (h : s.alarms.wf = true → (alarmAt s i).dyn.overflow = true ∧ ownerOf s i = p) (t : Word) : Shuffles s (joinDeferred p i t s) := by
  have owner (j : Nat) : ownerOf (joinDeferred p i t s) j = ownerOf s j := (atPos_joinDeferred p s i t).ownerOf j
  refine ⟨fun wf => wf_modDyn (s := s) wf i fun d => { d with overflow := false }, fun wf j => ?_, fun wf j one => ?_⟩ <;> obtain ⟨marked, at_p⟩ := h wf
  · rw [isListed_eq, isListed_eq, owner, standsAt, standsAt, onAnn_joinDeferred, onDeferred_joinDeferred, overflow_joinDeferred]
    by_cases same : j = i
    · subst same; simp [at_p, marked]
    · simp [same, beq_eq_false_iff_ne.2 (Ne.symm same)]
  · rw [OnePlace, owner, onAnn_joinDeferred, onDeferred_joinDeferred, overflow_joinDeferred]
    by_cases same : j = i
    · subst same
      rw [if_pos rfl]
      refine ⟨fun on => ?_, fun _ => rfl⟩
      rw [(one.1 on).2] at marked
      cases marked
    · simpa [same, beq_eq_false_iff_ne.2 (Ne.symm same)] using one

theorem shuffles_refill (p : Pos) (s : State) : Shuffles s (refill p s) := by
  unfold refill
  refine .when fun _ => ?_
  split
  · rename_i e rest found
    exact shuffles_joinDeferred (fun wf => overflowSet_spec wf (by rw [found]; exact List.mem_cons_self ..)) _
  · exact .refl s

theorem shuffles_promotion (p : Pos) (s : State) : Shuffles s (promotion p s) := by
  unfold promotion
  split
  · rename_i s' h
    obtain ⟨-, e, he, rfl⟩ := promote?_eq h
    exact (shuffles_promoted (List.mem_of_find?_eq_some he)).trans (shuffles_refill ..)
  · exact .refl s

/-! ### The REMOVE report -/

/-- R32: an alarm that has left the lists of its position. -/
abbrev unlisted (p : Pos) (i : Nat) (reason : Reason) (s : State) : State :=
  if onAnn s p i then judgeHorn p (promotion p (notify (.console p) (.retract i reason) (leaveAnn p i s)))
  else if onDeferred s p i then refill p (leaveDeferred p i s)
  else s

/-- R32: the record of an alarm that leaves the lists, but for its escalated flag. -/
abbrev AlarmDyn.departed (reason : Reason) (d : AlarmDyn) : AlarmDyn :=
  { d with overflow := false, annTime := none, reminders := if reason = .acknowledged then 0 else d.reminders }

/-- R32, R42: the record of an alarm that has left the lists. -/
def Alarm.departed (reason : Reason) (a : Alarm) : Alarm := { a with dyn := { a.dyn.departed reason with escalated := false } }

theorem atPos_unlisted (p : Pos) (i : Nat) (reason : Reason) (s : State) : AtPos p s (unlisted p i reason s) :=
  .ite (fun _ => (((atPos_leaveAnn p s i).trans (atPos_notify ..)).trans (atPos_promotion ..)).trans (atPos_judgeHorn ..)) fun _ =>
    .ite (fun _ => (atPos_leaveDeferred p s i).trans (atPos_refill ..)) fun _ => .refl ..

theorem quiet_unlisted (p : Pos) (i : Nat) (reason : Reason) (s : State) :
    Quiet [.alarms, .lists, .links] s (unlisted p i reason s) :=
  .ite (fun _ => ((((quiet_leaveAnn s p i).mono (by simp)).trans ((quiet_notify ..).mono (by simp))).trans
    ((quiet_promotion ..).mono (by simp))).trans ((quiet_judgeHorn ..).mono (by simp))) fun _ =>
    .ite (fun _ => ((quiet_leaveDeferred s p i).mono (by simp)).trans ((quiet_refill ..).mono (by simp))) fun _ => .refl ..

theorem marksOnly_promotion (p : Pos) (s : State) : MarksOnly s (promotion p s) := by
  unfold promotion
  split
  · obtain ⟨-, e, -, rfl⟩ := promote?_eq ‹_›
    exact (marksOnly_promoted ..).trans (marksOnly_refill ..)
  · exact .refl s

theorem marksOnly_unlisted (p : Pos) (i : Nat) (reason : Reason) (s : State) : MarksOnly s (unlisted p i reason s) :=
  .ite (fun _ => (MarksOnly.of_alarms (s := s) (t := notify (.console p) (.retract i reason) (leaveAnn p i s)) rfl).trans
    ((marksOnly_promotion ..).trans (.of_kept (quiet_judgeHorn ..).kept (by simp)))) fun _ =>
    .ite (fun _ => (MarksOnly.of_alarms (s := s) (t := leaveDeferred p i s) rfl).trans (marksOnly_refill ..)) fun _ => .refl s

/-- Work that takes an alarm off the lists of its owner, and no other. -/
structure Unlists (i : Nat) (s t : State) : Prop where
  wf : s.alarms.wf = true → t.alarms.wf = true
  listed : s.alarms.wf = true → ∀ j, j ≠ i → isListed t j = isListed s j
  onePlace : s.alarms.wf = true → ∀ j, j ≠ i → OnePlace s j → OnePlace t j
  gone : s.alarms.wf = true → OnePlace s i → isListed t i = false

theorem Unlists.after {i : Nat} {s t u : State} (h : Shuffles s t) (k : Unlists i t u) : Unlists i s u :=
  ⟨fun wf => k.wf (h.wf wf), fun wf j hj => (k.listed (h.wf wf) j hj).trans (h.listed wf j),
   fun wf j hj one => k.onePlace (h.wf wf) j hj (h.onePlace wf j one), fun wf one => k.gone (h.wf wf) (h.onePlace wf i one)⟩

theorem Unlists.then {i : Nat} {s t u : State} (k : Unlists i s t) (h : Shuffles t u) : Unlists i s u :=
  ⟨fun wf => h.wf (k.wf wf), fun wf j hj => (h.listed (k.wf wf) j).trans (k.listed wf j hj),
   fun wf j hj one => h.onePlace (k.wf wf) j (k.onePlace wf j hj one), fun wf one => (h.listed (k.wf wf) i).trans (k.gone wf one)⟩

theorem onAnn_leaveAnn (p q : Pos) (i : Nat) (s : State) (j : Nat) :
    onAnn (leaveAnn p i s) q j = (if q = p ∧ j = i then false else onAnn s q j) := by
  rw [onAnn, onAnn, leaveAnn_lists]
  by_cases h : q = p
  · subst h
    simp only [if_true, true_and]
    exact any_filter_ne AnnEntry.alarm i j _
  · simp [h]

theorem onDeferred_leaveDeferred (p q : Pos) (i : Nat) (s : State) (j : Nat) :
    onDeferred (leaveDeferred p i s) q j = (if q = p ∧ j = i then false else onDeferred s q j) := by
  rw [onDeferred, onDeferred, leaveDeferred, modLists_get]
  by_cases h : q = p
  · subst h
    simp only [if_true, true_and]
    exact any_filter_ne ListEntry.alarm i j _
  · simp [h]

theorem unlists_leaveAnn {i : Nat} {s : State} (on : onAnn s (ownerOf s i) i = true) : Unlists i s (leaveAnn (ownerOf s i) i s) := by
  have deferred (q : Pos) (j : Nat) : onDeferred (leaveAnn (ownerOf s i) i s) q j = onDeferred s q j := by
    rw [onDeferred, onDeferred, leaveAnn_lists]
    split
    · rename_i h; subst h; rfl
    · rfl
  have owner (j : Nat) : ownerOf (leaveAnn (ownerOf s i) i s) j = ownerOf s j := rfl
  have record (j : Nat) : alarmAt (leaveAnn (ownerOf s i) i s) j = alarmAt s j := rfl
  have ann (q : Pos) (j : Nat) (hj : j ≠ i) : onAnn (leaveAnn (ownerOf s i) i s) q j = onAnn s q j := by
    rw [onAnn_leaveAnn, if_neg fun h => hj h.2]
  refine ⟨fun wf => wf, fun _ j hj => ?_, fun _ j hj one => ?_, fun _ one => ?_⟩
  · rw [isListed_eq, isListed_eq, owner, standsAt, standsAt, ann _ _ hj, deferred, record]
  · rw [OnePlace, owner, ann _ _ hj, deferred, record]; exact one
  · obtain ⟨off, clear⟩ := one.1 on
    rw [isListed_eq, owner, standsAt, onAnn_leaveAnn, deferred, record, if_pos ⟨rfl, rfl⟩, off, clear]; rfl

theorem unlists_leaveDeferred {i : Nat} {s : State} (off : onAnn s (ownerOf s i) i = false)
    (on : onDeferred s (ownerOf s i) i = true) : Unlists i s (leaveDeferred (ownerOf s i) i s) := by
  have ann (q : Pos) (j : Nat) : onAnn (leaveDeferred (ownerOf s i) i s) q j = onAnn s q j := by
    rw [onAnn, onAnn, leaveDeferred, modLists_get]
    split
    · rename_i h; subst h; rfl
    · rfl
  have owner (j : Nat) : ownerOf (leaveDeferred (ownerOf s i) i s) j = ownerOf s j := rfl
  have record (j : Nat) : alarmAt (leaveDeferred (ownerOf s i) i s) j = alarmAt s j := rfl
  have deferred (q : Pos) (j : Nat) (hj : j ≠ i) : onDeferred (leaveDeferred (ownerOf s i) i s) q j = onDeferred s q j := by
    rw [onDeferred_leaveDeferred, if_neg fun h => hj h.2]
  refine ⟨fun wf => wf, fun _ j hj => ?_, fun _ j hj one => ?_, fun _ one => ?_⟩
  · rw [isListed_eq, isListed_eq, owner, standsAt, standsAt, ann, deferred _ _ hj, record]
  · rw [OnePlace, owner, ann, deferred _ _ hj, record]; exact one
  · rw [isListed_eq, owner, standsAt, ann, onDeferred_leaveDeferred, record, if_pos ⟨rfl, rfl⟩, off, one.2 on]; rfl

/-- R32: the write of a departed alarm's record lists and unlists no other alarm, and leaves this one on no overflow. -/
theorem isListed_modDyn_departed (i : Nat) (reason : Reason) (t : State) (j : Nat) :
    isListed (modDyn i (AlarmDyn.departed reason) t) j =
      if j = i then onAnn t (ownerOf t i) i || onDeferred t (ownerOf t i) i else isListed t j := by
  have owner : ownerOf (modDyn i (AlarmDyn.departed reason) t) j = ownerOf t j := (atPos_modDyn .p0 t i _ (by intros; rfl)).ownerOf j
  rw [isListed_eq, owner]
  generalize hq : ownerOf t j = q
  have lists : standsAt (modDyn i (AlarmDyn.departed reason) t) q j =
      (onAnn t q j || onDeferred t q j || (alarmAt (modDyn i (AlarmDyn.departed reason) t) j).dyn.overflow) := rfl
  rw [lists]
  split
  · rename_i same
    subst same
    rw [alarmAt_modDyn_self, hq]
    split <;> exact Bool.or_false _
  · rename_i other
    rw [isListed_eq, hq, standsAt, alarmAt, alarmAt, alarm?_modDyn_ne other]

theorem onePlace_modDyn_ne {i j : Nat} (other : j ≠ i) (f : AlarmDyn → AlarmDyn) (t : State) :
    OnePlace (modDyn i f t) j ↔ OnePlace t j := by
  have record : alarmAt (modDyn i f t) j = alarmAt t j := by rw [alarmAt, alarmAt, alarm?_modDyn_ne other]
  have owner : ownerOf (modDyn i f t) j = ownerOf t j := by rw [ownerOf, ownerOf, record]; rfl
  rw [OnePlace, owner, record]
  rfl

theorem Unlists.departed {i : Nat} {s t : State} (h : Unlists i s t) (reason : Reason) :
    Unlists i s (modDyn i (AlarmDyn.departed reason) t) := by
  refine ⟨fun wf => wf_modDyn (h.wf wf) .., fun wf j hj => ?_, fun wf j hj one => ?_, fun wf one => ?_⟩
  · rw [isListed_modDyn_departed, if_neg hj]; exact h.listed wf j hj
  · exact (onePlace_modDyn_ne hj _ t).2 (h.onePlace wf j hj one)
  · have gone := h.gone wf one
    rw [isListed_eq, standsAt, Bool.or_eq_false_iff] at gone
    rw [isListed_modDyn_departed, if_pos rfl]; exact gone.1

/-- R32: an alarm that has left the lists of its owner, with its overflow flag cleared. -/
theorem unlists_departed (i : Nat) (reason : Reason) (s : State) :
    Unlists i s (modDyn i (AlarmDyn.departed reason) (unlisted (ownerOf s i) i reason s)) := by
  by_cases on : onAnn s (ownerOf s i) i = true
  · have way : unlisted (ownerOf s i) i reason s = _ := if_pos on
    have told : Shuffles (leaveAnn (ownerOf s i) i s)
        (notify (.console (ownerOf s i)) (.retract i reason) (leaveAnn (ownerOf s i) i s)) :=
      .of_kept (quiet_notify ..).kept (by simp) (by simp) (by simp)
    rw [way]
    exact (((unlists_leaveAnn on).then told).then ((shuffles_promotion ..).trans (shuffles_judgeHorn ..))).departed reason
  by_cases deferred : onDeferred s (ownerOf s i) i = true
  · have way : unlisted (ownerOf s i) i reason s = _ := (if_neg on).trans (if_pos deferred)
    rw [way]
    exact ((unlists_leaveDeferred (Bool.eq_false_iff.2 on) deferred).then (shuffles_refill ..)).departed reason
  · have way : unlisted (ownerOf s i) i reason s = s := (if_neg on).trans (if_neg deferred)
    rw [way]
    refine ⟨fun wf => wf_modDyn wf .., fun wf j hj => ?_, fun wf j hj one => (onePlace_modDyn_ne hj _ s).2 one, fun wf _ => ?_⟩
    · rw [isListed_modDyn_departed, if_neg hj]
    · rw [isListed_modDyn_departed, if_pos rfl, Bool.eq_false_iff.2 on, Bool.eq_false_iff.2 deferred]; rfl

end Sys2Proof.Machine
end

section
/-! PROOFS. What a REMOVE report (R32) leaves of the alarm, the escalation list and the items, and what it tells. -/

namespace Sys2Proof.Machine

/-- R32: an alarm is off the lists, its record written; it may still be escalated. -/
abbrev delisted (i : Nat) (reason : Reason) (s : State) : State :=
  modDyn i (AlarmDyn.departed reason) (unlisted (ownerOf s i) i reason s)

/-- R42: an alarm is off the escalation list. -/
abbrev calmed (i : Nat) (reason : Reason) (s : State) : State :=
  if (alarmAt s i).dyn.escalated then leaveEscalation i reason s else s

theorem removeReport_eq (i : Nat) (reason : Reason) (s : State) : removeReport i reason s =
    if isListed s i then removedReport (ownerOf s i) i (calmed i reason (delisted i reason s))
    else calmed i reason (delisted i reason s) := rfl

theorem atPos_delisted (i : Nat) (reason : Reason) (s : State) : AtPos (ownerOf s i) s (delisted i reason s) :=
  (atPos_unlisted ..).trans (atPos_modDyn _ _ i _ (by intros; rfl))

theorem quiet_delisted (i : Nat) (reason : Reason) (s : State) : Quiet [.alarms, .lists, .links] s (delisted i reason s) :=
  (quiet_unlisted ..).trans ((quiet_modDyn ..).mono (by simp))

theorem atPos_calmed (p : Pos) (i : Nat) (reason : Reason) (s : State) : AtPos p s (calmed i reason s) := .when (atPos_leaveEscalation ..)

theorem quiet_calmed (i : Nat) (reason : Reason) (s : State) : Quiet [.escalation, .alarms, .links] s (calmed i reason s) :=
  .when (quiet_leaveEscalation ..)

theorem leaveEscalation_alarms (i : Nat) (reason : Reason) (s : State) :
    (leaveEscalation i reason s).alarms = (modDyn i (fun d => { d with escalated := false }) s).alarms := rfl

section record
variable {i : Nat} {a : Alarm} {s : State} (present : alarm? s i = some a) (reason : Reason)
include present

theorem delisted_record : alarm? (delisted i reason s) i = some { a with dyn := a.dyn.departed reason } := by
  obtain ⟨m, record⟩ := (marksOnly_unlisted (ownerOf s i) i reason s).find present
  exact alarm?_modDyn_self record _

theorem calmed_record : alarm? (calmed i reason s) i = some { a with dyn := { a.dyn with escalated := false } } := by
  have escalated : (alarmAt s i).dyn.escalated = a.dyn.escalated := by rw [alarmAt_eq present]
  cases on : a.dyn.escalated with
  | true =>
    rw [calmed, escalated, on, if_pos rfl, alarm?_congr (leaveEscalation_alarms ..)]
    exact alarm?_modDyn_self present _
  | false => rw [calmed, escalated, on, if_neg (by nofun), present, ← on]

/-- R32, R42: the record of an alarm that has left. -/
theorem removeReport_record : alarm? (removeReport i reason s) i = some (a.departed reason) := by
  have record := calmed_record (delisted_record present reason) reason
  rw [removeReport_eq]
  split
  · rw [alarm?_congr ((quiet_removedReport ..).kept.agrees .alarms (by simp)), record]; rfl
  · exact record

/-- R42: the escalation list without an alarm that has left. -/
theorem removeReport_escalation : (removeReport i reason s).escalation =
    if a.dyn.escalated then s.escalation.filter (·.alarm != i) else s.escalation := by
  have before : (delisted i reason s).escalation = s.escalation := (quiet_delisted i reason s).kept.agrees .escalation (by simp)
  have record := delisted_record present reason
  have left : (calmed i reason (delisted i reason s)).escalation =
      if a.dyn.escalated then s.escalation.filter (·.alarm != i) else s.escalation := by
    rw [calmed, alarmAt_eq record]
    cases on : a.dyn.escalated with
    | true => simp only [on, if_true]; rw [← before]; rfl
    | false => simp only [on, Bool.false_eq_true, if_false]; exact before
  rw [removeReport_eq]
  split
  · rw [show (removedReport _ i _).escalation = _ from (quiet_removedReport ..).kept.agrees .escalation (by simp), left]
  · exact left

/-- R42: an escalated alarm has left the escalation list. -/
theorem not_mem_escalation (on : a.dyn.escalated = true) : ∀ e ∈ (removeReport i reason s).escalation, e.alarm ≠ i := fun e he => by
  rw [removeReport_escalation present, on, if_pos rfl] at he
  exact bne_iff_ne.1 (List.mem_filter.1 he).2

end record

/-- R32: no other record is written but for overflow flags. -/
theorem removeReport_others {i j : Nat} (other : j ≠ i) (reason : Reason) (s : State) :
    (alarm? (removeReport i reason s) j).map Alarm.unmarked = (alarm? s j).map Alarm.unmarked := by
  have left : (alarm? (calmed i reason (delisted i reason s)) j).map Alarm.unmarked = (alarm? s j).map Alarm.unmarked := by
    have off : alarm? (calmed i reason (delisted i reason s)) j = alarm? (delisted i reason s) j := by
      rw [calmed]
      split
      · rw [alarm?_congr (leaveEscalation_alarms ..), alarm?_modDyn_ne other]
      · rfl
    rw [off, alarm?_modDyn_ne other, (marksOnly_unlisted ..).record]
  rw [removeReport_eq]
  split
  · rw [alarm?_congr ((quiet_removedReport ..).kept.agrees .alarms (by simp)), left]
  · exact left

theorem shuffles_calmed (i : Nat) (reason : Reason) (s : State) : Shuffles s (calmed i reason s) := by
  refine .when fun _ => ?_
  have place := atPos_leaveEscalation .p0 s i reason
  have lists : (leaveEscalation i reason s).lists = s.lists := (quiet_leaveEscalation ..).kept.agrees .lists (by simp)
  have overflow (j : Nat) : (alarmAt (leaveEscalation i reason s) j).dyn.overflow = (alarmAt s j).dyn.overflow := by
    have record : alarmAt (leaveEscalation i reason s) j = alarmAt (modDyn i (fun d => { d with escalated := false }) s) j := rfl
    rw [record, alarmAt, alarm?_modDyn, alarmAt]
    split
    · subst j; cases alarm? s i <;> rfl
    · rfl
  refine ⟨fun wf => wf_modDyn (s := s) wf i fun d => { d with escalated := false }, fun _ j => ?_, fun _ j one => ?_⟩
  · rw [isListed_eq, isListed_eq, place.ownerOf, standsAt, standsAt, overflow, onAnn, onDeferred, lists]; rfl
  · rw [OnePlace, place.ownerOf, overflow, onAnn, onDeferred, lists]; exact one

/-- R32: where the alarms stand after one has left. -/
theorem unlists_removeReport (i : Nat) (reason : Reason) (s : State) : Unlists i s (removeReport i reason s) := by
  rw [removeReport_eq]
  have left := (unlists_departed i reason s).then (shuffles_calmed i reason _)
  split
  · exact left.then (.of_kept (quiet_removedReport ..).kept (by simp) (by simp) (by simp))
  · exact left

/-! ### What a departure tells -/

theorem horn_promotion (p : Pos) (s : State) : ((promotion p s).lists.get p).horn = (s.lists.get p).horn := by
  unfold promotion
  split
  · obtain ⟨-, e, -, rfl⟩ := promote?_eq ‹_›
    rw [(keepsHorns_refill ..).horns, (keepsHorns_promoted ..).horns]
  · rfl

/-- R33: what a promotion into room tells. -/
theorem told_promotion {p : Pos} {s : State} (room : (s.lists.get p).ann.length < 128) :
    Told (atDesk p (((s.lists.get p).deferred.find? fun e => !((s.loads.get p).flood && priorityOf s e.alarm == 4)).toList.map fun e =>
      annunciation s p e.alarm e.time (lifecycleOf s e.alarm))) s (promotion p s) := by
  change Told (atDesk p ((eligible? p s).toList.map fun e => annunciation s p e.alarm e.time (lifecycleOf s e.alarm))) s (promotion p s)
  rw [promotion, promote?, if_pos (show (s.lists.get p).ann.length < Config.annCapacity from room)]
  cases eligible? p s with
  | none => exact (Told.refl s).congr fun l => by simp [atDesk]
  | some e =>
    have refilled : Told (fun _ => []) (promoted p e s) (refill p (promoted p e s)) :=
      .of_links ((quiet_refill ..).kept.agrees .links (by simp))
    exact ((told_promoted p e s).trans refilled).congr fun l => by rw [List.append_nil]; rfl

theorem filter_ne_length_lt {i : Nat} {es : List AnnEntry} (on : es.any (fun e => e.alarm == i) = true) :
    (es.filter fun e => e.alarm != i).length < es.length := by
  obtain ⟨e, he, same⟩ := List.any_eq_true.1 on
  exact List.length_filter_lt_length_iff_exists.2 ⟨e, he, by simpa using same⟩

/-- R32, R33, R43: what an alarm's departure from its lists tells. -/
theorem unlisted_told {p : Pos} {s : State} (bound : (s.lists.get p).ann.length ≤ 128) (i : Nat) (reason : Reason) :
    Told (atDesk p (departureNotices p i reason s ++ hornNotices p s (unlisted p i reason s))) s (unlisted p i reason s) := by
  by_cases on : onAnn s p i = true
  · have way : unlisted p i reason s = judgeHorn p (promotion p (notify (.console p) (.retract i reason) (leaveAnn p i s))) := if_pos on
    generalize hm : notify (.console p) (.retract i reason) (leaveAnn p i s) = m at way
    have written : m.lists = (leaveAnn p i s).lists ∧ m.loads = s.loads ∧ MarksOnly s m :=
      hm ▸ ⟨rfl, rfl, .of_alarms rfl⟩
    obtain ⟨lists, loads, marks⟩ := written
    have at_p : m.lists.get p = { s.lists.get p with ann := (s.lists.get p).ann.filter fun e => e.alarm != i } := by
      rw [lists, leaveAnn_lists, if_pos rfl]
    have room : (m.lists.get p).ann.length < 128 := by
      rw [at_p]; exact Nat.lt_of_lt_of_le (filter_ne_length_lt on) bound
    have retract : Told (atDesk p [.retract i reason]) s m :=
      hm ▸ Told.from_links (told_notify_desk p (.retract i reason) (leaveAnn p i s)) rfl
    have promotes := told_promotion room
    have horn : hornNotices p (promotion p m) (unlisted p i reason s) = hornNotices p s (unlisted p i reason s) :=
      hornNotices_congr (by rw [horn_promotion, at_p]) rfl
    have judged := told_judgeHorn p (promotion p m)
    rw [← way, horn] at judged
    refine ((retract.trans promotes).trans judged).congr fun l => ?_
    rw [← atDesk_append, ← atDesk_append, departureNotices, if_pos on, at_p, loads]
    simp only [marks.priorityOf, marks.lifecycleOf, annunciation_congr marks]
    rfl
  · have none : departureNotices p i reason s = [] := if_neg on
    have way : unlisted p i reason s = if onDeferred s p i then refill p (leaveDeferred p i s) else s := if_neg on
    have horn : hornNotices p s (unlisted p i reason s) = [] := by
      rw [hornNotices, if_pos]
      rw [way]
      split
      · rw [(keepsHorns_refill ..).horns, leaveDeferred, modLists_get_self]
      · rfl
    have quiet : (unlisted p i reason s).links = s.links := by
      rw [way]
      split
      · exact (quiet_refill ..).kept.agrees .links (by simp)
      · rfl
    rw [none, horn]
    exact (Told.of_links quiet).congr fun l => by simp [atDesk]

theorem leftEscalation_congr {i : Nat} {reason : Reason} {s t : State} {p : Pos} (place : AtPos p s t)
    (escalated : (alarmAt t i).dyn.escalated = (alarmAt s i).dyn.escalated) : leftEscalation i reason t = leftEscalation i reason s := by
  rw [leftEscalation, leftEscalation, escalated, place.priorityOf, place.ownerOf,
    show (alarmAt t i).defn.area = (alarmAt s i).defn.area from congrArg (fun x => x.1.area) (place.alarmAt i)]

/-- R42: what a departure from the escalation list tells. -/
theorem calmed_told (i : Nat) (reason : Reason) (s : State) :
    Told (atDesk .p0 (leftEscalation i reason s)) s (calmed i reason s) := by
  rw [calmed, leftEscalation]
  split
  · have place : AtPos .p0 s (modDyn i (fun d => { d with escalated := false }) { s with
        escalation := s.escalation.filter fun e => e.alarm != i }) :=
      (atPos_escalation .p0 s _).trans (atPos_modDyn .p0 _ i _)
    have told := told_notify_desk .p0 (.escalate i (priorityOf s i) (alarmAt s i).defn.area (ownerOf s i) (some reason))
      (modDyn i (fun d => { d with escalated := false }) { s with escalation := s.escalation.filter fun e => e.alarm != i })
    have same : leaveEscalation i reason s = notify (.console .p0) (.escalate i (priorityOf s i) (alarmAt s i).defn.area (ownerOf s i)
        (some reason)) (modDyn i (fun d => { d with escalated := false }) { s with
          escalation := s.escalation.filter fun e => e.alarm != i }) := by
      rw [leaveEscalation, escalateNotice, place.priorityOf, place.ownerOf]
      rw [show (alarmAt (modDyn i (fun d => { d with escalated := false }) { s with
          escalation := s.escalation.filter fun e => e.alarm != i }) i).defn.area = (alarmAt s i).defn.area
        from congrArg (fun x => x.1.area) (place.alarmAt i)]
    rw [same]
    exact Told.from_links told rfl
  · exact (Told.refl s).congr fun l => by simp [atDesk]

section report
variable {i : Nat} {a : Alarm} {s : State} (present : alarm? s i = some a) (reason : Reason)
include present

/-- R32, R33, R42, R43, R131: the items and the notices of a REMOVE report. -/
theorem removeReport_items : let p := ownerOf s i; let t := removeReport i reason s
    let work := (itemsRemoved a.defn.priority).onlyIf (isListed s i)
    ItemsFollow p work s t ∧ ((s.lists.get p).ann.length ≤ 128 → Told (fun l =>
      atDesk p (departureNotices p i reason s ++ hornNotices p s t) l ++ atDesk .p0 (leftEscalation i reason s) l ++
        atDesk p (itemNotices p work s) l) s t) := by
  have work := removeReport_eq i reason s
  generalize ht : removeReport i reason s = t at work
  generalize hp : ownerOf s i = p at work
  have place : AtPos p s (delisted i reason s) := hp ▸ atPos_delisted i reason s
  have quiet := quiet_delisted i reason s
  have told (bound : (s.lists.get p).ann.length ≤ 128) := unlisted_told bound i reason
  have record := delisted_record present reason
  have left := calmed_told i reason (delisted i reason s)
  have escalated : (alarmAt (delisted i reason s) i).dyn.escalated = (alarmAt s i).dyn.escalated := by
    rw [alarmAt_eq record, alarmAt_eq present]
  rw [leftEscalation_congr place escalated] at left
  have first (bound : (s.lists.get p).ann.length ≤ 128) :
      Told (atDesk p (departureNotices p i reason s ++ hornNotices p s (delisted i reason s))) s (delisted i reason s) := by
    have tells := told bound
    rw [← hp] at tells ⊢
    exact tells
  have calm := quiet_calmed i reason (delisted i reason s)
  have at_p : AtPos p s (calmed i reason (delisted i reason s)) := place.trans (atPos_calmed ..)
  generalize calmed i reason (delisted i reason s) = u at *
  generalize delisted i reason s = m at *
  have positions : u.positions = s.positions :=
    Eq.trans (calm.kept.agrees .positions (by simp)) (quiet.kept.agrees .positions (by simp))
  have lists : u.lists = m.lists := calm.kept.agrees .lists (by simp)
  cases on : isListed s i with
  | true =>
    rw [on, if_pos rfl] at work
    obtain ⟨follow, tells⟩ := removedReport_spec p i u
    rw [at_p.priorityOf, show priorityOf s i = a.defn.priority from congrArg (·.defn.priority) (alarmAt_eq present), ← work] at follow tells
    rw [itemNotices_congr p _ positions] at tells
    have horn : hornNotices p s m = hornNotices p s t := hornNotices_congr rfl (by
      rw [show t.lists = u.lists from work ▸ (quiet_removedReport ..).kept.agrees .lists (by simp), lists])
    rw [horn] at first
    exact ⟨follow.congr positions rfl, fun bound => ((first bound).trans left).trans tells⟩
  | false =>
    rw [on, if_neg (by nofun)] at work
    have horn : hornNotices p s m = hornNotices p s t := hornNotices_congr rfl (by rw [work, lists])
    rw [horn] at first
    rw [ItemWork.onlyIf_false]
    refine ⟨itemsFollow_of_positions p (work ▸ positions), fun bound => ?_⟩
    rw [work] at first ⊢
    exact ((first bound).trans left).congr fun l => by simp [itemNotices_noItems, atDesk]

end report

end Sys2Proof.Machine
end

section
/-! PROOFS. Departures told from the state before the alarm's record was written; ACK. -/

namespace Sys2Proof.Machine

/-- Work ahead of a departure: it writes the record of the alarm, and of the lists at most a shelf. -/
structure Prepared (i : Nat) (a b : Alarm) (s m : State) : Prop where
  before : alarm? s i = some a
  self : alarm? m i = some b
  lasting : b.defn.lasting = a.defn.lasting
  escalated : b.dyn.escalated = a.dyn.escalated
  overflow : b.dyn.overflow = a.dyn.overflow
  others : ∀ j, j ≠ i → alarm? m j = alarm? s j
  lists : ∀ q, m.lists.get q = { s.lists.get q with shelf := (m.lists.get q).shelf }
  loads : m.loads = s.loads
  areas : m.areas = s.areas
  escalation : m.escalation = s.escalation
  wf : s.alarms.wf = true → m.alarms.wf = true

theorem Recorded.prepared {i : Nat} {a b : Alarm} {ls : List Line} {s m : State} (h : Recorded i a b ls s m)
    (escalated : b.dyn.escalated = a.dyn.escalated) (overflow : b.dyn.overflow = a.dyn.overflow)
    (wf : s.alarms.wf = true → m.alarms.wf = true) : Prepared i a b s m :=
  ⟨h.before, h.self, h.lasting, escalated, overflow, h.others, fun q => by rw [h.lists], h.loads, h.areas, h.escalation, wf⟩

namespace Prepared
variable {i : Nat} {a b : Alarm} {s m : State} (h : Prepared i a b s m)
include h

theorem defn (j : Nat) : (alarmAt m j).defn.lasting = (alarmAt s j).defn.lasting := by
  by_cases hj : j = i
  · subst hj; rw [alarmAt_eq h.self, alarmAt_eq h.before]; exact h.lasting
  · simp only [alarmAt, h.others j hj]

theorem area (j : Nat) : (alarmAt m j).defn.area = (alarmAt s j).defn.area := by
  have same := congrArg AlarmDef.area (h.defn j); exact same

theorem ownerOf (j : Nat) : ownerOf m j = ownerOf s j := by
  simp only [Machine.ownerOf, areaOwner, h.areas, h.area]

theorem priorityOf (j : Nat) : priorityOf m j = priorityOf s j := by
  have same := congrArg AlarmDef.priority (h.defn j); exact same

theorem priority : b.defn.priority = a.defn.priority := by
  have same := congrArg AlarmDef.priority h.lasting; exact same

theorem overflows (j : Nat) : (alarmAt m j).dyn.overflow = (alarmAt s j).dyn.overflow := by
  by_cases hj : j = i
  · subst hj; rw [alarmAt_eq h.self, alarmAt_eq h.before]; exact h.overflow
  · simp only [alarmAt, h.others j hj]

theorem onAnn (q : Pos) (j : Nat) : onAnn m q j = onAnn s q j := by rw [Machine.onAnn, Machine.onAnn, h.lists]

theorem onDeferred (q : Pos) (j : Nat) : onDeferred m q j = onDeferred s q j := by
  rw [Machine.onDeferred, Machine.onDeferred, h.lists]

theorem ann (q : Pos) : (m.lists.get q).ann = (s.lists.get q).ann := by rw [h.lists]

theorem isListed (j : Nat) : isListed m j = isListed s j := by
  simp only [Machine.isListed, h.ownerOf, h.onAnn, h.onDeferred, h.overflows]

theorem shuffles : Shuffles s m := by
  refine ⟨h.wf, fun _ j => h.isListed j, fun _ j one => ?_⟩
  simpa only [OnePlace, h.ownerOf, h.onAnn, h.onDeferred, h.overflows] using one

theorem leftEscalation (reason : Reason) : leftEscalation i reason m = leftEscalation i reason s := by
  have same : (alarmAt m i).dyn.escalated = (alarmAt s i).dyn.escalated := by
    rw [alarmAt_eq h.self, alarmAt_eq h.before]; exact h.escalated
  simp only [Machine.leftEscalation, same, h.ownerOf, h.priorityOf, h.area]

theorem departureNotices (one : OnePlace s i) (reason : Reason) :
    departureNotices (Machine.ownerOf s i) i reason m = departureNotices (Machine.ownerOf s i) i reason s := by
  rw [Machine.departureNotices, Machine.departureNotices, h.onAnn]
  split
  · rename_i on
    rw [h.lists, h.loads]
    simp only [h.priorityOf]
    refine congrArg _ ?_
    cases found : (s.lists.get (Machine.ownerOf s i)).deferred.find? fun e =>
        !((s.loads.get (Machine.ownerOf s i)).flood && Machine.priorityOf s e.alarm == 4) with
    | none => rfl
    | some e =>
      have other : e.alarm ≠ i := fun same => by
        have off := (one.1 on).1
        have on' := onDeferred_of_mem (List.mem_of_find?_eq_some found)
        rw [same, off] at on'
        cases on'
      have lifecycle : lifecycleOf m e.alarm = lifecycleOf s e.alarm := by
        rw [lifecycleOf, lifecycleOf, alarmAt, alarmAt, h.others _ other]
      simp only [Option.toList_some, List.map_cons, List.map_nil, annunciation, h.priorityOf, h.area, lifecycle]
  · rfl

theorem hornNotices (p : Pos) (t : State) : hornNotices p m t = hornNotices p s t := hornNotices_congr (by rw [h.lists]) rfl

/-- R32: the items and the notices of a departure that follows. -/
theorem departs (reason : Reason) (positions : m.positions = s.positions) :
    let p := Machine.ownerOf s i; let t := removeReport i reason m
    let work := (itemsRemoved a.defn.priority).onlyIf (Machine.isListed s i)
    ItemsFollow p work s t ∧ (OnePlace s i → (s.lists.get p).ann.length ≤ 128 → Told (fun l =>
      atDesk p (Machine.departureNotices p i reason s ++ Machine.hornNotices p s t) l ++
        atDesk .p0 (Machine.leftEscalation i reason s) l ++ atDesk p (itemNotices p work s) l) m t) := by
  intro p t work
  obtain ⟨follow, told⟩ := removeReport_items h.self reason
  simp only [h.ownerOf, h.isListed, h.priority, h.leftEscalation, h.hornNotices, itemNotices_congr _ _ positions, h.ann] at follow told
  refine ⟨follow.congr positions rfl, fun one bound => ?_⟩
  have tells := told bound
  rw [h.departureNotices one] at tells
  exact tells

end Prepared

/-! ### ACK -/

/-- R13: the record of an alarm that is acknowledged, before it leaves the lists. -/
def Alarm.entered (new : Lifecycle) (o : Option Nat) (a : Alarm) : Alarm := { a with dyn := a.dyn.enter new o }

/-- R13: the acknowledged lifecycle is not an unacknowledged one, nor out of service. -/
theorem acked_cases {lc after : Lifecycle} {cls : AlarmClass}
    (h : (lc = .raised ∧ after = .held) ∨ (lc = .returned ∧ after = if cls = .safety then .latched else .normal)) :
    ackedFrom lc cls = after ∧ (after = .held ∨ after = .latched ∨ after = .normal) := by
  rcases h with ⟨rfl, rfl⟩ | ⟨rfl, rfl⟩
  · exact ⟨rfl, .inl rfl⟩
  · refine ⟨rfl, ?_⟩; split <;> simp

section acknowledge
variable {i : Nat} {a : Alarm} {after : Lifecycle} {s : State} (present : alarm? s i = some a) (o : Nat) (q : Pos)
  (open' : isWithheld s i = false)
  (moves : (a.dyn.lifecycle = .raised ∧ after = .held) ∨
    (a.dyn.lifecycle = .returned ∧ after = if a.defn.cls = .safety then .latched else .normal))
include present open' moves

theorem ackResult_acked : ackResult s i = .acked := by
  rw [isWithheld_eq present, Bool.or_eq_false_iff] at open'
  obtain ⟨shelved, suppressed⟩ := open'
  simp only [ackResult, alarmAt_eq present, shelved, suppressed]
  rcases moves with ⟨lc, -⟩ | ⟨lc, -⟩ <;> simp [lc]

/-- R13, R109: an acknowledgement is the record and its entry, then the departure, then the report to the PCU. -/
theorem acknowledge_eq : ∃ m, Recorded i a (a.entered after (some o))
      [⟨.acknowledged, some (ownerOf s i), some o, some i, q.num * 256 + lifecycleCode after⟩] s m ∧
    Prepared i a (a.entered after (some o)) s m ∧
    acknowledge o q i s = lifecycleReport i a.dyn.lifecycle after (removeReport i .acknowledged m) := by
  have new := (acked_cases moves).1
  have written := recorded_modDyn present (AlarmDyn.enter after (some o))
  have owner := written.ownerOf i
  have journaled := written.append .acknowledged (some (ownerOf s i)) (some o) (some i) (q.num * 256 + lifecycleCode after)
  refine ⟨_, journaled, journaled.prepared rfl rfl fun wf => wf_modDyn (s := s) wf i (AlarmDyn.enter after (some o)), ?_⟩
  simp only [acknowledge, ackResult_acked present open' moves, alarmAt_eq present, new, owner]

/-- R13: the alarm, the lists, the escalation list and the journal after an acknowledgement. -/
theorem acknowledge_spec : let t := acknowledge o q i s
    alarm? t i = some ((a.entered after (some o)).departed .acknowledged) ∧
      Journaled [⟨.acknowledged, some (ownerOf s i), some o, some i, q.num * 256 + lifecycleCode after⟩] s t ∧
      (a.dyn.escalated = true → ∀ e ∈ t.escalation, e.alarm ≠ i) ∧ Unlists i s t ∧
      (∀ r, r ≠ ownerOf s i → t.lists.get r = s.lists.get r) ∧
      (∀ j, j ≠ i → (alarm? t j).map Alarm.unmarked = (alarm? s j).map Alarm.unmarked) ∧ t.areas = s.areas ∧ DesksKept s t := by
  intro t
  obtain ⟨m, written, ready, work⟩ := acknowledge_eq present o q open' moves
  change t = _ at work
  clear_value t
  have last : Kept [.positions, .links, .free] (removeReport i .acknowledged m) t := work ▸ kept_lifecycleReport ..
  have place : AtPos (ownerOf s i) m (removeReport i .acknowledged m) := atPos_removeReport _ m i .acknowledged (ready.ownerOf i)
  have quiet := quiet_removeReport (s := m) i .acknowledged
  have alarms : t.alarms = _ := last.agrees .alarms (by simp)
  have time : (removeReport i .acknowledged m).millTime = m.millTime := (quiet.kept.agrees .clock (by simp)).1
  refine ⟨by rw [alarm?_congr alarms]; exact removeReport_record written.self .acknowledged, ?_, fun on e he => ?_,
    ((Unlists.after ready.shuffles (unlists_removeReport ..)).then (.of_kept last (by simp) (by simp) (by simp))),
    fun r hr => ?_, fun j hj => ?_, ?_, fun r => ?_⟩
  · exact (written.entries.before (.of_kept quiet.kept (by simp)) written.time).before (.of_kept last (by simp)) (time.trans written.time)
  · rw [show t.escalation = _ from last.agrees .escalation (by simp)] at he
    exact not_mem_escalation written.self .acknowledged (ready.escalated.trans on) e he
  · rw [show t.lists = _ from last.agrees .lists (by simp), place.lists r hr, written.lists]
  · rw [alarm?_congr alarms, removeReport_others hj, written.others j hj]
  · rw [show t.areas = _ from last.agrees .areas (by simp), place.areas, written.areas]
  · rw [work, (desks_lifecycleReport (s := removeReport i .acknowledged m) i a.dyn.lifecycle after).desks r, place.desks r,
      written.positions]

/-- R32, R33, R42, R43, R131 to R133: the items and the notices of an acknowledgement. -/
theorem acknowledge_items : ∃ wrapped, let p := ownerOf s i; let t := acknowledge o q i s
    let work := ((itemsRemoved a.defn.priority).onlyIf (isListed s i)).andThen (itemsLifecycle wrapped p i a.dyn.lifecycle after)
    ItemsFollow p work s t ∧ (OnePlace s i → (s.lists.get p).ann.length ≤ 128 → Told (fun l =>
      atDesk p (departureNotices p i .acknowledged s ++ hornNotices p s t) l ++
        atDesk .p0 (leftEscalation i .acknowledged s) l ++ atDesk p (itemNotices p work s) l) s t) := by
  obtain ⟨m, written, ready, work⟩ := acknowledge_eq present o q open' moves
  obtain ⟨follow, told⟩ := ready.departs .acknowledged written.positions
  have place : AtPos (ownerOf s i) m (removeReport i .acknowledged m) := atPos_removeReport _ m i .acknowledged (ready.ownerOf i)
  have owner : ownerOf (removeReport i .acknowledged m) i = ownerOf s i := (place.ownerOf i).trans (ready.ownerOf i)
  have desks : DesksKept s (removeReport i .acknowledged m) := DesksKept.congr place.desks written.positions rfl
  generalize removeReport i .acknowledged m = r at *
  obtain ⟨wrapped, later, tells⟩ := lifecycleReport_after
    (a := fun l => atDesk (ownerOf s i) (departureNotices (ownerOf s i) i .acknowledged s ++ hornNotices (ownerOf s i) s r) l ++
      atDesk .p0 (leftEscalation i .acknowledged s) l) a.dyn.lifecycle after owner follow desks
  have last : Kept [.positions, .links, .free] r (acknowledge o q i s) := work ▸ kept_lifecycleReport ..
  have horn : hornNotices (ownerOf s i) s r = hornNotices (ownerOf s i) s (acknowledge o q i s) :=
    hornNotices_congr rfl (by rw [show (acknowledge o q i s).lists = r.lists from last.agrees .lists (by simp)])
  rw [← work] at later tells
  rw [horn] at told tells
  exact ⟨wrapped, later, fun one bound => tells ((told one bound).from_links written.links)⟩

end acknowledge

theorem ackAnswer_acked {i : Nat} {s : State} (acked : ackResult s i = .acked) (o : Nat) (p : Pos) : ackAnswer o p i s =
    (acknowledge o p i s, doneWith (be8 0 ++ be16 i ++ be8 (lifecycleCode (lifecycleOf (acknowledge o p i s) i)))) := by
  simp only [ackAnswer, ackRefusal, ackOutcome, acked]
  rfl

/-- R13: an acknowledgement that changes nothing. -/
theorem ackAnswer_still {i : Nat} {s : State} (still : ackResult s i = .noChange) (o : Nat) (p : Pos) : ackAnswer o p i s =
    (s, doneWith (be8 255 ++ be16 i ++ be8 (lifecycleCode (lifecycleOf s i)))) := by
  simp only [ackAnswer, ackRefusal, ackOutcome, acknowledge, still]
  rfl

theorem ackResult_noChange {i : Nat} {a : Alarm} {s : State} (present : alarm? s i = some a) (open' : isWithheld s i = false)
    (stays : a.dyn.lifecycle = .held ∨ a.dyn.lifecycle = .normal ∨ a.dyn.lifecycle = .latched) : ackResult s i = .noChange := by
  rw [isWithheld_eq present, Bool.or_eq_false_iff] at open'
  obtain ⟨shelved, suppressed⟩ := open'
  simp only [ackResult, alarmAt_eq present, shelved, suppressed]
  rcases stays with lc | lc | lc <;> simp [lc]

theorem unmarked_settled {a b : Option Alarm} (h : a.map Alarm.unmarked = b.map Alarm.unmarked) :
    a.map Alarm.settled = b.map Alarm.settled := by
  cases a <;> cases b <;> simp only [Option.map_none, Option.map_some, reduceCtorEq, Option.some.injEq] at h ⊢
  have same := congrArg Alarm.settled h
  exact same

/-- Settles O42. -/
theorem ackAcknowledgesTheAlarm : Obligations.AckAcknowledgesTheAlarm := by
  refine ⟨fun h p i a after s hp hl present may open' moves => ?_, fun h p i a s hp hl present may open' stays => ?_⟩
  all_goals
    have present' : alarm? (takeFrame h.link s) i = some a := present
    have level : ackLevelOf (takeFrame h.link s) i = a.defn.ackLevel := congrArg (·.defn.ackLevel) (alarmAt_eq present')
    have checked : firstRefusal (alarmActionChecks (takeFrame h.link s) h.op i .operate (ackLevelOf (takeFrame h.link s) i) p) = none :=
      firstRefusal_alarmActionChecks (level ▸ may)
  · have spec := acknowledge_spec present' h.op p open' moves
    have items := acknowledge_items present' h.op p open' moves
    have quiet := quiet_acknowledge (s := takeFrame h.link s) h.op p i
    have answer := ackAnswer_acked (ackResult_acked present' open' moves) h.op p
    obtain ⟨t, next, done⟩ := request_done (out := exec (.ack h i) s) (P := Served .ack h _ s _) (g := false) rfl hp
      ((atConsole_console hl _ _).trans ((judged_of_none checked _).trans answer)) quiet fun _ d => d
    obtain ⟨record, entries, calm, unlists, lists, others, areas', desks⟩ := spec
    have replied := done.replied
    rw [show lifecycleOf (acknowledge h.op p i (takeFrame h.link s)) i = after from
      congrArg (·.dyn.lifecycle) (alarmAt_eq record)] at replied
    generalize acknowledge h.op p i (takeFrame h.link s) = u at *
    have alarms : t.alarms = u.alarms := done.agrees .alarms nofun
    have lists' : t.lists = u.lists := done.agrees .lists nofun
    have areas : t.areas = u.areas := done.agrees .areas nofun
    have escalation : t.escalation = u.escalation := done.agrees .escalation nofun
    have into := (acked_cases moves).2
    refine ⟨t, _, next, by rw [alarm?_congr alarms, record], ?_, rfl, rfl, rfl, replied, done.journaled entries,
      fun on => by rw [escalation]; exact calm on, fun wf one => ?_, ?_, fun r hr => by rw [lists']; exact lists r hr, fun j hj => ?_,
      done.desks desks, done.lines, done.kept quiet.kept (by simp)⟩
    · rcases into with lc | lc | lc <;> simp [Alarm.settled, Alarm.departed, Alarm.entered, AlarmDyn.enter, lc]
    · rw [isListed_congr alarms lists' areas]; exact unlists.gone wf one
    · obtain ⟨wrapped, follow, told⟩ := items
      have horn : hornNotices (ownerOf s i) s t = hornNotices (ownerOf s i) s u := hornNotices_congr rfl (by rw [lists'])
      simp only [horn]
      exact ⟨wrapped, done.follows follow, fun one bound => done.announced _ (told one bound)⟩
    · rw [alarm?_congr alarms]; exact unmarked_settled (others j hj)
  · have answer := ackAnswer_still (ackResult_noChange present' open' stays) h.op p
    rw [show lifecycleOf (takeFrame h.link s) i = a.dyn.lifecycle from congrArg (·.dyn.lifecycle) (alarmAt_eq present')] at answer
    refine request_done (ps := []) (out := exec (.ack h i) s) (g := false) rfl hp
      ((atConsole_console hl _ _).trans ((judged_of_none checked _).trans answer)) (.refl ..) fun t done => ?_
    exact ⟨done.replied, done.lines, done.kept (.refl ..) (by simp)⟩

end Sys2Proof.Machine
end

section
/-! PROOFS. ACK_LIST. -/

namespace Sys2Proof.Machine

/-- R13: an alarm after an acknowledgement that may go ahead. -/
def Alarm.acked (o : Nat) (a : Alarm) : Alarm :=
  if a.dyn.lifecycle = .raised ∨ a.dyn.lifecycle = .returned then
    (a.entered (ackedFrom a.dyn.lifecycle a.defn.cls) (some o)).departed .acknowledged
  else a

theorem ackedFrom_cases {lc : Lifecycle} (h : lc = .raised ∨ lc = .returned) (cls : AlarmClass) :
    (lc = .raised ∧ ackedFrom lc cls = .held) ∨
      (lc = .returned ∧ ackedFrom lc cls = if cls = .safety then .latched else .normal) :=
  h.imp (fun lc => ⟨lc, by rw [lc]; rfl⟩) fun lc => ⟨lc, by rw [lc]; rfl⟩

theorem acked_lifecycle (o : Nat) (a : Alarm) : (a.acked o).dyn.lifecycle = ackedFrom a.dyn.lifecycle a.defn.cls := by
  unfold Alarm.acked
  split
  · rfl
  · rename_i other
    obtain ⟨raised, returned⟩ := not_or.1 other
    rw [ackedFrom] <;> assumption

theorem firstRefusal_alarmChecks {s : State} {o i limit : Nat} {k : GrantKind} {p : Pos} (may : MayAct s o i k limit p) :
    firstRefusal (alarmChecks s o i k limit p) = none := by
  obtain ⟨-, -, -, owned, grant, level⟩ := may
  have area : (areaOwner s (alarmAt s i).defn.area == p ||
      (p == .p0 && holdsFor s.grants o .supervise (alarmAt s i).defn.area .p0)) = true := by simpa [ownerOf] using owned
  simp [alarmChecks, areaCheck, grantCheck, levelCheck, area, grant, level]

theorem unmarked_fields {a b : Alarm} (h : a.unmarked = b.unmarked) :
    a.defn = b.defn ∧ a.dyn.lifecycle = b.dyn.lifecycle ∧ a.dyn.shelved = b.dyn.shelved ∧ a.dyn.reminders = b.dyn.reminders ∧
      a.dyn.acknowledger = b.dyn.acknowledger := by
  have same := congrArg (fun x : Alarm => (x.defn, x.dyn.lifecycle, x.dyn.shelved, x.dyn.reminders, x.dyn.acknowledger)) h
  simp only [Prod.mk.injEq] at same
  exact same

/-- R110: the element of an alarm that may be acknowledged. -/
def ackElement (i : Nat) (acked : Bool) (lc : Lifecycle) : List Byte :=
  be16 i ++ be8 (if acked then 0 else 255) ++ be8 (lifecycleCode lc)

/-- R110: one named index that the operator may acknowledge. -/
theorem ackOne_passes {o i : Nat} {p : Pos} {u : State} {es : List (List Byte)}
    (may : MayAct u o i .operate (ackLevelOf u i) p) (result : ackResult u i = .acked ∨ ackResult u i = .noChange) :
    ackOne o p (u, es) i = (acknowledge o p i u,
      es ++ [ackElement i (ackResult u i == .acked) (lifecycleOf (acknowledge o p i u) i)]) := by
  have defined : isDefined u i = true := may.2.1
  rw [ackOne, if_pos (by exact defined)]
  simp only [firstRefusal_alarmChecks may]
  rcases result with h | h <;> simp only [ackRefusal, ackOutcome, h] <;> rfl

/-- R110: what the indices named so far have left of the state. -/
structure AckedSoFar (o : Nat) (p : Pos) (done : List Nat) (s u : State) : Prop where
  records : ∀ j, (alarm? u j).map Alarm.unmarked =
    (alarm? s j).map fun a => (if j ∈ done then a.acked o else a).unmarked
  quiet : Quiet [.alarms, .lists, .escalation, .positions, .journal, .links, .free] s u
  desks : DesksKept s u

namespace AckedSoFar
variable {o i : Nat} {p : Pos} {done : List Nat} {s u : State} (h : AckedSoFar o p done s u)
include h

theorem record {j : Nat} {a : Alarm} (present : alarm? s j = some a) :
    ∃ b, alarm? u j = some b ∧ b.unmarked = (if j ∈ done then a.acked o else a).unmarked := by
  have same := h.records j
  rw [present] at same
  exact Option.map_eq_some_iff.1 same

theorem defn {j : Nat} {a : Alarm} (present : alarm? s j = some a) : (alarmAt u j).defn = a.defn := by
  obtain ⟨b, hb, same⟩ := h.record present
  rw [alarmAt_eq hb]
  refine (congrArg Alarm.defn same).trans ?_
  change (if j ∈ done then a.acked o else a).defn = a.defn
  split
  · unfold Alarm.acked; split <;> rfl
  · rfl

theorem ownerOf {j : Nat} {a : Alarm} (present : alarm? s j = some a) : ownerOf u j = ownerOf s j := by
  have areas : u.areas = s.areas := h.quiet.kept.agrees .areas (by simp)
  rw [Machine.ownerOf, Machine.ownerOf, h.defn present, alarmAt_eq present, areaOwner, areaOwner, areas]

theorem lifecycleOf {j : Nat} {a : Alarm} (present : alarm? s j = some a) :
    lifecycleOf u j = if j ∈ done then ackedFrom a.dyn.lifecycle a.defn.cls else a.dyn.lifecycle := by
  obtain ⟨b, hb, same⟩ := h.record present
  obtain ⟨-, lc, -⟩ := unmarked_fields same
  rw [Machine.lifecycleOf, alarmAt_eq hb, lc]
  split
  · exact acked_lifecycle o a
  · rfl

theorem isWithheld {j : Nat} {a : Alarm} (present : alarm? s j = some a) : isWithheld u j = isWithheld s j := by
  obtain ⟨b, hb, same⟩ := h.record present
  obtain ⟨-, -, shelved, -⟩ := unmarked_fields same
  have mask : u.mask = s.mask := h.quiet.kept.agrees .mask (by simp)
  rw [isWithheld_eq hb, isWithheld_eq present, isSuppressed, isSuppressed, h.defn present, alarmAt_eq present, mask, shelved]
  split
  · unfold Alarm.acked; split <;> rfl
  · rfl

theorem mayAct {a : Alarm} (present : alarm? s i = some a) (may : MayAct s o i .operate a.defn.ackLevel p) :
    MayAct u o i .operate (ackLevelOf u i) p := by
  obtain ⟨index, -, held, owned, grant, level⟩ := may
  obtain ⟨b, hb, -⟩ := h.record present
  have operators : u.operators = s.operators := h.quiet.kept.agrees .operators (by simp)
  have grants : u.grants = s.grants := h.quiet.kept.agrees .grants (by simp)
  refine ⟨index, by rw [isDefined, hb]; rfl, ?_, ?_, ?_, ?_⟩
  · simp only [Holds, engagementOf, operator?, operators]; exact held
  · rw [h.ownerOf present, h.defn present, grants]; rw [alarmAt_eq present] at owned; exact owned
  · rw [h.defn present, grants]; rw [alarmAt_eq present] at grant; exact grant
  · rw [ackLevelOf, h.defn present]; simp only [levelOf, operator?, operators]; exact level

theorem ackResult {a : Alarm} (present : alarm? s i = some a) (open' : Machine.isWithheld s i = false)
    (other : a.dyn.lifecycle ≠ .outOfService) : ackResult u i =
      if (a.dyn.lifecycle = .raised ∨ a.dyn.lifecycle = .returned) ∧ i ∉ done then .acked else .noChange := by
  obtain ⟨b, hb, -⟩ := h.record present
  have lifecycle := h.lifecycleOf present
  rw [Machine.lifecycleOf, alarmAt_eq hb] at lifecycle
  have listed : Machine.isWithheld u i = false := (h.isWithheld present).trans open'
  by_cases again : i ∈ done
  · rw [if_neg fun c => c.2 again]
    rw [if_pos again] at lifecycle
    refine ackResult_noChange hb listed ?_
    rw [lifecycle]
    cases lc : a.dyn.lifecycle <;> simp_all [ackedFrom]
    split <;> simp_all
  · rw [if_neg again] at lifecycle
    by_cases unack : a.dyn.lifecycle = .raised ∨ a.dyn.lifecycle = .returned
    · rw [if_pos ⟨unack, again⟩]
      exact ackResult_acked (after := ackedFrom b.dyn.lifecycle b.defn.cls) hb listed (ackedFrom_cases (by rw [lifecycle]; exact unack) _)
    · rw [if_neg fun c => unack c.1]
      refine ackResult_noChange hb listed ?_
      rw [lifecycle]
      cases lc : a.dyn.lifecycle <;> simp_all

/-- R110: one more named index. -/
theorem next {a : Alarm} (present : alarm? s i = some a) (open' : Machine.isWithheld s i = false)
    (other : a.dyn.lifecycle ≠ .outOfService) (q : Pos) : AckedSoFar o p (done ++ [i]) s (acknowledge o q i u) ∧
      Journaled (if (a.dyn.lifecycle = .raised ∨ a.dyn.lifecycle = .returned) ∧ i ∉ done then
        [⟨.acknowledged, some (Machine.ownerOf s i), some o, some i,
          q.num * 256 + lifecycleCode (ackedFrom a.dyn.lifecycle a.defn.cls)⟩] else []) u (acknowledge o q i u) := by
  obtain ⟨b, hb, same⟩ := h.record present
  have result := h.ackResult present open' other
  by_cases changes : (a.dyn.lifecycle = .raised ∨ a.dyn.lifecycle = .returned) ∧ i ∉ done
  · obtain ⟨unack, first⟩ := changes
    rw [if_neg first] at same
    obtain ⟨defn, lifecycle, -⟩ := unmarked_fields same
    obtain ⟨record, entries, -, -, -, others, -, desks⟩ := acknowledge_spec hb o q ((h.isWithheld present).trans open')
      (ackedFrom_cases (by rw [lifecycle]; exact unack) b.defn.cls)
    rw [lifecycle, defn] at record entries
    rw [if_pos ⟨unack, first⟩, ← h.ownerOf present]
    refine ⟨⟨fun j => ?_, h.quiet.trans (quiet_acknowledge ..), fun r => (desks r).trans (h.desks r)⟩, entries⟩
    by_cases hj : j = i
    · subst hj
      rw [record, present, Option.map_some, Option.map_some, if_pos (by simp)]
      refine congrArg some ?_
      rw [Alarm.acked, if_pos unack]
      have rest := congrArg (fun x : Alarm => (x.entered (ackedFrom a.dyn.lifecycle a.defn.cls) (some o)).departed .acknowledged) same
      exact congrArg Alarm.unmarked rest
    · rw [others j hj, h.records j]
      simp [hj]
  · rw [if_neg changes] at result ⊢
    have still : acknowledge o q i u = u := by simp only [acknowledge, result]
    rw [still]
    refine ⟨⟨fun j => ?_, h.quiet, h.desks⟩, rfl, rfl⟩
    rw [h.records j]
    by_cases hj : j = i
    · subst hj
      rw [present, Option.map_some, Option.map_some, if_pos (show j ∈ done ++ [j] by simp)]
      by_cases again : j ∈ done
      · rw [if_pos again]
      · have stays : ¬(a.dyn.lifecycle = .raised ∨ a.dyn.lifecycle = .returned) := fun c => changes ⟨c, again⟩
        rw [if_neg again, Alarm.acked, if_neg stays]
    · simp [hj]

end AckedSoFar

/-- R110: an index named at a place of the list is acknowledged there: it is unacknowledged, and named for the first time. -/
def ackedHere (s : State) (is : List Nat) (x : Nat × Nat) : Bool :=
  (lifecycleOf s x.1 == .raised || lifecycleOf s x.1 == .returned) && !(is.take x.2).contains x.1

/-- R109: the lifecycle that an alarm's own ACK gives. -/
def ackedLifecycle (s : State) (i : Nat) : Lifecycle := ackedFrom (lifecycleOf s i) (alarmAt s i).defn.cls

theorem ackedHere_append {s : State} {is : List Nat} {x : Nat × Nat} (h : x ∈ is.zipIdx) (js : List Nat) :
    ackedHere s (is ++ js) x = ackedHere s is x := by
  have short : x.2 ≤ is.length := (List.snd_lt_of_mem_zipIdx h).le
  simp only [ackedHere, List.take_append_of_le_length short]

/-- R110: the entries of an ACK_LIST. -/
def ackListLines (o : Nat) (p : Pos) (s : State) (is : List Nat) : List Line := (is.zipIdx.filter (ackedHere s is)).map fun x =>
  ⟨.acknowledged, some (ownerOf s x.1), some o, some x.1, p.num * 256 + lifecycleCode (ackedLifecycle s x.1)⟩

/-- R110: the elements of an ACK_LIST. -/
def ackListElements (s : State) (is : List Nat) : List (List Byte) :=
  is.zipIdx.map fun x => ackElement x.1 (ackedHere s is x) (ackedLifecycle s x.1)

theorem ackedHere_last (s : State) (is : List Nat) (i : Nat) : ackedHere s (is ++ [i]) (i, is.length) =
    decide ((lifecycleOf s i = .raised ∨ lifecycleOf s i = .returned) ∧ i ∉ is) := by
  have before : (is ++ [i]).take is.length = is := by simp
  simp only [ackedHere, before, Bool.decide_and, Bool.decide_or, decide_not, List.contains_eq_mem]
  rfl

theorem ackListLines_append (o : Nat) (p : Pos) (s : State) (is : List Nat) (i : Nat) : ackListLines o p s (is ++ [i]) =
    ackListLines o p s is ++ (if (lifecycleOf s i = .raised ∨ lifecycleOf s i = .returned) ∧ i ∉ is then
      [⟨.acknowledged, some (ownerOf s i), some o, some i, p.num * 256 + lifecycleCode (ackedLifecycle s i)⟩] else []) := by
  rw [ackListLines, List.zipIdx_append, List.filter_append, List.map_append]
  refine congrArg₂ _ ?_ ?_
  · rw [ackListLines, List.filter_congr fun x hx => ackedHere_append hx [i]]
  · simp only [List.zipIdx_singleton, Nat.zero_add, List.filter_cons, ackedHere_last, decide_eq_true_eq, List.filter_nil]
    split <;> rfl

theorem ackListElements_append (s : State) (is : List Nat) (i : Nat) : ackListElements s (is ++ [i]) =
    ackListElements s is ++ [ackElement i (decide ((lifecycleOf s i = .raised ∨ lifecycleOf s i = .returned) ∧ i ∉ is))
      (ackedLifecycle s i)] := by
  rw [ackListElements, List.zipIdx_append, List.map_append]
  refine congrArg₂ _ (List.map_congr_left fun x hx => by rw [ackedHere_append hx]) ?_
  simp only [List.zipIdx_singleton, Nat.zero_add, List.map_cons, List.map_nil, ackedHere_last]

/-- R110: ACK_LIST works through indices that the operator may acknowledge. -/
theorem ackList_passes {o : Nat} {p : Pos} {s : State} (is : List Nat)
    (all : ∀ i ∈ is, MayAct s o i .operate (alarmAt s i).defn.ackLevel p ∧ isWithheld s i = false ∧ lifecycleOf s i ≠ .outOfService) :
    let r := is.foldl (ackOne o p) (s, [])
    AckedSoFar o p is s r.1 ∧ Journaled (ackListLines o p s is) s r.1 ∧ r.2 = ackListElements s is := by
  induction is using List.reverseRecOn with
  | nil =>
    refine ⟨⟨fun j => ?_, .refl .., fun _ => rfl⟩, ⟨rfl, rfl⟩, rfl⟩
    simp
  | append_singleton is i ih =>
    obtain ⟨before, entries, elements⟩ := ih fun j hj => all j (List.mem_append_left _ hj)
    obtain ⟨may, open', other⟩ := all i (by simp)
    have defined : isDefined s i = true := may.2.1
    obtain ⟨a, present⟩ := Option.isSome_iff_exists.1 defined
    have lifecycle : lifecycleOf s i = a.dyn.lifecycle := congrArg (·.dyn.lifecycle) (alarmAt_eq present)
    have after : ackedLifecycle s i = ackedFrom a.dyn.lifecycle a.defn.cls := by rw [ackedLifecycle, lifecycle, alarmAt_eq present]
    rw [lifecycle] at other
    rw [alarmAt_eq present] at may
    simp only [List.foldl_append, List.foldl_cons, List.foldl_nil]
    generalize is.foldl (ackOne o p) (s, []) = r at before entries elements
    obtain ⟨u, es⟩ := r
    have result := before.ackResult present open' other
    have step := ackOne_passes (es := es) (before.mayAct present may) (by rw [result]; split <;> simp)
    obtain ⟨later, entry⟩ := before.next present open' other p
    rw [step]
    refine ⟨later, ?_, ?_⟩
    · rw [ackListLines_append, lifecycle, after]
      exact entries.trans entry (before.quiet.kept.agrees .clock (by simp)).1
    · change es = ackListElements s is at elements
      change es ++ [ackElement i (ackResult u i == .acked) (lifecycleOf (acknowledge o p i u) i)] = _
      have answer : lifecycleOf (acknowledge o p i u) i = ackedFrom a.dyn.lifecycle a.defn.cls := by
        rw [later.lifecycleOf present, if_pos (by simp)]
      have acked : (ackResult u i == .acked) = decide ((a.dyn.lifecycle = .raised ∨ a.dyn.lifecycle = .returned) ∧ i ∉ is) := by
        rw [result]
        split
        · rename_i yes; rw [decide_eq_true yes]; rfl
        · rename_i no; rw [decide_eq_false no]; rfl
      rw [ackListElements_append, ← elements, answer, after, lifecycle, acked]

/-- R110: an index whose alarm is not defined. -/
theorem ackOne_undefined {o i : Nat} {p : Pos} {s : State} (absent : alarm? s i = none) :
    ackOne o p (s, []) i = (s, [refusedElement i .unknownIndex i]) := by
  have undefined : ¬isDefined s i = true := by rw [isDefined, absent]; nofun
  rw [ackOne, if_neg undefined]
  rfl

/-- R110: an index that the access check refuses. -/
theorem ackOne_barred {o i : Nat} {p : Pos} {s : State} {c : Cause} {v : Nat} (defined : isDefined s i = true)
    (refused : firstRefusal (alarmChecks s o i .operate (ackLevelOf s i) p) = some (c, v)) :
    ackOne o p (s, []) i = (accessRefused p o .ackList (some i) c v s, [refusedElement i c v]) := by
  rw [ackOne, if_pos defined]
  simp only [refused]
  rfl

/-- R110: an index that the ATU refuses. -/
theorem ackOne_refused {o i : Nat} {p : Pos} {s : State} {c : Cause} {v : Nat}
    (may : MayAct s o i .operate (ackLevelOf s i) p) (refused : ackRefusal s i = some (c, v)) :
    ackOne o p (s, []) i = (s, [refusedElement i c v]) := by
  have defined : isDefined s i = true := may.2.1
  rw [ackOne, if_pos defined]
  simp only [firstRefusal_alarmChecks may, refused]
  rfl

/-- R110: what an ACK_LIST by the holder of the position answers. -/
theorem ackList_served {h : Header} {p : Pos} {indices : List Nat} {s : State} (hp : Passes .ackList h s) (hl : h.link = .console p)
    (some' : 1 ≤ indices.length) (few : indices.length ≤ 8) (long : 2 + 2 * indices.length ≤ h.len) (holds : Holds s h.op p)
    (small : ∀ i ∈ indices, i ≤ 2047) {u : State} {es : List (List Byte)}
    (work : indices.foldl (ackOne h.op p) (takeFrame h.link s, []) = (u, es)) :
    ∃ t, exec (.ackList h indices.length indices) s = .next t ∧ Served .ackList h (.done es false) s u t := by
  have range : indices.all (decide <| · ≤ Config.maxAlarmIndex) = true := by
    simpa [Config.maxAlarmIndex] using small
  have checked : firstRefusal (ackListChecks h.len indices.length indices ++
      [definedCheck (takeFrame h.link s) h.op, holderCheck (takeFrame h.link s) h.op p]) = none := by
    have held : engagementOf (takeFrame h.link s) h.op = some (p, .holder) := holds
    simp [ackListChecks, definedCheck, holderCheck, some', few, long, range, held, isSome_operator?_of_engaged held]
  have quiet := quiet_foldl_fst (quiet_ackOne h.op p) (takeFrame h.link s, []) indices
  rw [work] at quiet
  have body : (let r := indices.foldl (ackOne h.op p) (takeFrame h.link s, []); ((r.1, .done r.2 false) : State × Answer)) =
      (u, .done es false) := by rw [work]
  exact request_done (out := exec (.ackList h indices.length indices) s) (P := Served .ackList h _ s _) (g := false) rfl hp
    ((atConsole_console hl _ _).trans ((judged_of_none checked _).trans body)) quiet fun _ d => d

/-- The lifecycle after an ACK, in the words of the obligation. -/
theorem ackedLifecycle_eq (s : State) (i : Nat) : ackedLifecycle s i = match lifecycleOf s i with
    | .raised => .held
    | .returned => if (alarmAt s i).defn.cls = .safety then .latched else .normal
    | lc => lc := by
  unfold ackedLifecycle ackedFrom
  split <;> simp_all

/-- Settles O43. -/
theorem ackListAcknowledgesEachAlarm : Obligations.AckListAcknowledgesEachAlarm := by
  refine ⟨fun h p indices s hp hl some' few long holds all => ?_, fun h p i s hp hl long small holds => ⟨fun absent => ?_, fun a present =>
    ⟨fun foreign unsupervised => ?_, fun own without => ?_, fun own granted low => ?_, fun may out => ?_, fun may inside clear masked => ?_⟩⟩⟩
  · intro after acked
    have after_eq (i : Nat) : ackedLifecycle s i = after i := ackedLifecycle_eq s i
    have small : ∀ i ∈ indices, i ≤ 2047 := fun i hi => (all i hi).1.1
    obtain ⟨soFar, entries, elements⟩ := ackList_passes (s := takeFrame h.link s) (o := h.op) (p := p) indices all
    generalize hr : indices.foldl (ackOne h.op p) (takeFrame h.link s, []) = r at soFar entries elements
    obtain ⟨u, es⟩ := r
    obtain ⟨t, next, done⟩ := ackList_served hp hl some' few long holds small hr
    have alarms : t.alarms = u.alarms := done.agrees .alarms nofun
    have record (j : Nat) : alarm? t j = alarm? u j := alarm?_congr alarms j
    have lines : ackListLines h.op p (takeFrame h.link s) indices = acked.map fun x =>
        ⟨.acknowledged, some (ownerOf s x.1), some h.op, some x.1, p.num * 256 + lifecycleCode (after x.1)⟩ :=
      List.map_congr_left fun x _ => by rw [← after_eq]; rfl
    refine ⟨t, es, next, ?_, done.replied, lines ▸ done.journaled entries, fun i hi => ?_, fun i hi raised => ?_, fun j hj => ?_,
      done.desks soFar.desks, done.lines, done.kept soFar.quiet.kept (by simp)⟩
    · refine elements.trans (List.map_congr_left fun x hx => ?_)
      have mem : ackedHere (takeFrame h.link s) indices x = decide (x ∈ acked) := by
        rw [Bool.eq_iff_iff, decide_eq_true_iff, List.mem_filter]
        exact ⟨fun yes => ⟨hx, yes⟩, And.right⟩
      rw [ackElement, mem, ← after_eq]
      simp only [decide_eq_true_eq]
      rfl
    · have defined : isDefined s i = true := (all i hi).1.2.1
      obtain ⟨a, present⟩ := Option.isSome_iff_exists.1 defined
      rw [lifecycleOf, alarmAt, record, ← after_eq, ackedLifecycle, lifecycleOf, alarmAt_eq present]
      exact (soFar.lifecycleOf (j := i) present).trans (if_pos hi)
    · have defined : isDefined s i = true := (all i hi).1.2.1
      obtain ⟨a, present⟩ := Option.isSome_iff_exists.1 defined
      have lc : a.dyn.lifecycle = .raised := by rw [lifecycleOf, alarmAt_eq present] at raised; exact raised
      obtain ⟨b, hb, same⟩ := soFar.record (j := i) present
      obtain ⟨-, -, -, reminders, acknowledger⟩ := unmarked_fields same
      rw [alarmAt, record, hb, Option.getD_some, reminders, acknowledger, if_pos hi, Alarm.acked, if_pos (.inl lc), lc]
      exact ⟨rfl, rfl⟩
    · rw [record]
      have same := soFar.records j
      simp only [if_neg hj] at same
      exact unmarked_settled same
  all_goals
    have one {u : State} {es : List (List Byte)} (work : ackOne h.op p (takeFrame h.link s, []) i = (u, es)) :=
      ackList_served hp hl (indices := [i]) (Nat.le_refl 1) (by simp) long holds (by simpa using small) work
  · obtain ⟨t, next, done⟩ := one (ackOne_undefined absent)
    exact ⟨t, next, done.replied, done.lines, done.kept (.refl ..) (by simp)⟩
  all_goals
    have present' : alarm? (takeFrame h.link s) i = some a := present
    have defined : isDefined (takeFrame h.link s) i = true := by rw [isDefined, present']; rfl
    have area : (alarmAt (takeFrame h.link s) i).defn.area = a.defn.area := congrArg (·.defn.area) (alarmAt_eq present')
    have level : ackLevelOf (takeFrame h.link s) i = a.defn.ackLevel := congrArg (·.defn.ackLevel) (alarmAt_eq present')
    have owner : areaOwner (takeFrame h.link s) a.defn.area = ownerOf s i := by rw [ownerOf, alarmAt_eq present]; rfl
  · have refused : firstRefusal (alarmChecks (takeFrame h.link s) h.op i .operate (ackLevelOf (takeFrame h.link s) i) p) =
        some (.areaNotOwned, a.defn.area) := by
      have off : (areaOwner (takeFrame h.link s) a.defn.area == p ||
          (p == .p0 && holdsFor (takeFrame h.link s).grants h.op .supervise a.defn.area .p0)) = false := by
        rw [owner, Bool.or_eq_false_iff, beq_eq_false_iff_ne]
        refine ⟨foreign, ?_⟩
        rw [Bool.and_eq_false_iff, beq_eq_false_iff_ne]
        by_cases at_0 : p = .p0
        · exact .inr (Bool.eq_false_iff.2 fun supervise => unsupervised ⟨at_0, supervise⟩)
        · exact .inl at_0
      simp only [alarmChecks, areaCheck, area, off]
      rfl
    obtain ⟨t, next, done⟩ := one (ackOne_barred defined refused)
    exact ⟨t, next, done.replied, done.lines, done.kept (.refl ..) (by simp)⟩
  · have refused : firstRefusal (alarmChecks (takeFrame h.link s) h.op i .operate (ackLevelOf (takeFrame h.link s) i) p) =
        some (.noGrant, a.defn.area) := by
      have off : holdsFor (takeFrame h.link s).grants h.op .operate a.defn.area p = false := without
      simp only [alarmChecks, areaCheck, grantCheck, area, owner, own, beq_self_eq_true, Bool.true_or, off]
      rfl
    obtain ⟨t, next, done⟩ := one (ackOne_barred defined refused)
    have quiet := quiet_accessRefused (s := takeFrame h.link s) p h.op .ackList (some i) .noGrant a.defn.area
    exact ⟨t, next, done.replied, done.journaled ⟨rfl, rfl⟩, done.lines, done.kept (quiet.kept.mono (by simp)) (by simp)⟩
  · have refused : firstRefusal (alarmChecks (takeFrame h.link s) h.op i .operate (ackLevelOf (takeFrame h.link s) i) p) =
        some (.level, i) := by
      have on : holdsFor (takeFrame h.link s).grants h.op .operate a.defn.area p = true := granted
      have off : decide (levelOf (takeFrame h.link s) h.op ≤ a.defn.ackLevel) = false := decide_eq_false (Nat.not_le.2 low)
      simp only [alarmChecks, areaCheck, grantCheck, levelCheck, area, level, owner, own, beq_self_eq_true, Bool.true_or, on, off]
      rfl
    obtain ⟨t, next, done⟩ := one (ackOne_barred defined refused)
    have quiet := quiet_accessRefused (s := takeFrame h.link s) p h.op .ackList (some i) .level i
    exact ⟨t, next, done.replied, done.journaled ⟨rfl, rfl⟩, done.lines, done.kept (quiet.kept.mono (by simp)) (by simp)⟩
  · have refused : ackRefusal (takeFrame h.link s) i = some (.badState, i) := by
      have result : ackResult (takeFrame h.link s) i = .badState := by
        rw [ackResult, alarmAt_eq present']
        rcases out with lc | shelved
        · simp [lc]
        · simp [shelved]
      rw [ackRefusal, result]
    obtain ⟨t, next, done⟩ := one (ackOne_refused (level ▸ may) refused)
    exact ⟨t, next, done.replied, done.lines, done.kept (.refl ..) (by simp)⟩
  · have refused : ackRefusal (takeFrame h.link s) i = some (.suppressed, i) := by
      have result : ackResult (takeFrame h.link s) i = .suppressed := by
        have on : isSuppressed (takeFrame h.link s) i = true := masked
        rw [ackResult, alarmAt_eq present']
        simp [inside, clear, on]
      rw [ackRefusal, result]
    obtain ⟨t, next, done⟩ := one (ackOne_refused (level ▸ may) refused)
    exact ⟨t, next, done.replied, done.lines, done.kept (.refl ..) (by simp)⟩

end Sys2Proof.Machine
end

section
/-! PROOFS. Departures that depend on whether the alarm stands anywhere; SHELVE, OUT_OF_SERVICE and RETURN_TO_SERVICE. -/

namespace Sys2Proof.Machine

/-- R15, R112: an alarm leaves its places, where it is listed or escalated. -/
abbrev removedWhere (i : Nat) (reason : Reason) (m : State) : State :=
  if isListed m i || (alarmAt m i).dyn.escalated then removeReport i reason m else m

theorem quiet_removedWhere (i : Nat) (reason : Reason) (m : State) :
    Quiet [.alarms, .lists, .escalation, .positions, .links] m (removedWhere i reason m) := .when (quiet_removeReport ..)

theorem atPos_removedWhere (i : Nat) (reason : Reason) (m : State) : AtPos (ownerOf m i) m (removedWhere i reason m) :=
  .when (atPos_removeReport _ _ i reason rfl)

theorem departed_settled (reason : Reason) (a : Alarm) : (a.departed reason).settled = a.settled := rfl

namespace Prepared
variable {i : Nat} {a b : Alarm} {s m : State} (h : Prepared i a b s m) {reason : Reason}
include h

/-- R32, R42: the alarm after a departure that follows. -/
theorem leaves_record (other : reason ≠ .acknowledged) : let t := removedWhere i reason m
    (∃ c, alarm? t i = some c ∧ c.settled = b.settled ∧ c.dyn.escalated = false ∧ c.dyn.reminders = b.dyn.reminders ∧
      (Machine.isListed s i = true → c.dyn.annTime = none)) ∧ (a.dyn.escalated = true → ∀ e ∈ t.escalation, e.alarm ≠ i) := by
  intro t
  by_cases stands : (Machine.isListed m i || (alarmAt m i).dyn.escalated) = true
  · have work : t = removeReport i reason m := if_pos stands
    rw [work]
    exact ⟨⟨_, removeReport_record h.self reason, departed_settled .., rfl, if_neg other, fun _ => rfl⟩,
      fun on => not_mem_escalation h.self reason (h.escalated.trans on)⟩
  · have work : t = m := if_neg stands
    rw [Bool.not_eq_true, Bool.or_eq_false_iff, h.isListed, alarmAt_eq h.self] at stands
    obtain ⟨unlisted, calm⟩ := stands
    rw [work]
    exact ⟨⟨b, h.self, rfl, calm, rfl, fun on => absurd (unlisted.symm.trans on) nofun⟩,
      fun on => absurd (calm.symm.trans (h.escalated.trans on)) nofun⟩

theorem leaves_others {j : Nat} (other : j ≠ i) :
    (alarm? (removedWhere i reason m) j).map Alarm.unmarked = (alarm? s j).map Alarm.unmarked := by
  rw [← h.others j other]
  unfold removedWhere
  split
  · exact removeReport_others other reason m
  · rfl

theorem leaves_places : Unlists i s (removedWhere i reason m) := by
  by_cases stands : (Machine.isListed m i || (alarmAt m i).dyn.escalated) = true
  · have work : removedWhere i reason m = removeReport i reason m := if_pos stands
    rw [work]
    exact .after h.shuffles (unlists_removeReport ..)
  · have work : removedWhere i reason m = m := if_neg stands
    rw [Bool.not_eq_true, Bool.or_eq_false_iff] at stands
    rw [work]
    exact ⟨h.wf, fun _ j _ => h.isListed j, fun wf j _ => h.shuffles.onePlace wf j, fun _ _ => stands.1⟩

/-- R32, R33, R42, R43, R131: the items and the notices of a departure that follows. -/
theorem leaves_items : let p := Machine.ownerOf s i; let t := removedWhere i reason m
    let work := (itemsRemoved a.defn.priority).onlyIf (Machine.isListed s i)
    ItemsFollow p work m t ∧ (OnePlace s i → (s.lists.get p).ann.length ≤ 128 → Told (fun l =>
      atDesk p (Machine.departureNotices p i reason s ++ Machine.hornNotices p s t) l ++
        atDesk .p0 (Machine.leftEscalation i reason s) l ++ atDesk p (itemNotices p work m) l) m t) := by
  intro p t work
  by_cases stands : (Machine.isListed m i || (alarmAt m i).dyn.escalated) = true
  · have way : t = removeReport i reason m := if_pos stands
    clear_value t
    subst way
    obtain ⟨follow, told⟩ := removeReport_items h.self reason
    simp only [h.ownerOf, h.isListed, h.priority, h.leftEscalation, h.hornNotices, h.ann] at follow told
    refine ⟨follow, fun one bound => ?_⟩
    have tells := told bound
    rw [h.departureNotices one] at tells
    exact tells
  · have way : t = m := if_neg stands
    rw [Bool.not_eq_true, Bool.or_eq_false_iff, h.isListed] at stands
    obtain ⟨unlisted, calm⟩ := stands
    have off : Machine.onAnn s p i = false := by
      rw [isListed_eq, standsAt, Bool.or_eq_false_iff, Bool.or_eq_false_iff] at unlisted
      exact unlisted.1.1
    have none : work = noItems := by simp only [work, unlisted, ItemWork.onlyIf_false]
    have quiet : Machine.departureNotices p i reason s = [] := by rw [Machine.departureNotices, off]; rfl
    have horn : Machine.hornNotices p s t = [] := by rw [way, ← h.hornNotices]; exact if_pos rfl
    have left : Machine.leftEscalation i reason s = [] := by rw [← h.leftEscalation, Machine.leftEscalation, calm]; rfl
    rw [none, way]
    refine ⟨ItemsFollow.refl p m, fun _ _ => (Told.refl m).congr fun l => ?_⟩
    rw [quiet, ← way, horn, left, itemNotices_noItems]
    simp [atDesk]

end Prepared

/-! ### SHELVE -/

theorem heldPlaces_changed {items : List Item} (numbered : Numbered items) {x it : Item} (hx : x ∈ items)
    (number : it.number = x.number) (kind : it.kind = x.kind) :
    hasFreePlace (ItemChange.apply items (.changed it)) = hasFreePlace items := by
  have kinds : (items.map fun y => if y.number = it.number then it else y).map (·.kind) = items.map (·.kind) := by
    rw [List.map_map]
    refine List.map_congr_left fun y hy => ?_
    simp only [Function.comp_apply]
    split
    · rw [kind, Numbered.eq_of_number numbered hx hy (number.symm.trans (Eq.symm ‹_›))]
    · rfl
  simp only [hasFreePlace, ItemChange.apply, heldPlaces_eq_of_kinds kinds, List.length_map]

/-- R129, R131: a summary item that falls frees and takes no place. -/
theorem hasFreePlace_removed {items : List Item} (numbered : Numbered items) (priority : Nat) (c : Bool) :
    hasFreePlace (((itemsRemoved priority).onlyIf c).result items) = hasFreePlace items := by
  cases c with
  | false => rfl
  | true =>
    rw [ItemWork.onlyIf_true, ItemWork.result, itemsRemoved, summaryFalls]
    split
    · rename_i it found
      exact heldPlaces_changed numbered (List.mem_of_find?_eq_some found) rfl rfl
    · rfl

section shelve
variable {i : Nat} {a : Alarm} {s : State} (present : alarm? s i = some a) (o effective : Nat)
include present

/-- R112: a first SHELVE is the flag, the shelf entry and the journal's entry, then the departure, then the report to the PCU. -/
theorem firstShelve_eq : ∃ m, Prepared i a { a with dyn := { a.dyn with shelved := true } } s m ∧
    Journaled [⟨.shelved, some (ownerOf s i), some o, some i, effective⟩] s m ∧ m.positions = s.positions ∧ m.links = s.links ∧
    m.millTime = s.millTime ∧ (∀ q, (m.lists.get q).shelf = if q = ownerOf s i then
      insertBy shelfBefore ⟨i, o, s.millTime, effective, effective⟩ (s.lists.get q).shelf else (s.lists.get q).shelf) ∧
    firstShelve o i effective s = shelvedReport (ownerOf s i) i effective false (removedWhere i .shelved m) := by
  have written := recorded_modDyn present fun d => { d with shelved := true }
  generalize hu : modDyn i (fun d => { d with shelved := true }) s = u at written
  have wf : s.alarms.wf = true → u.alarms.wf = true := fun h => hu ▸ wf_modDyn h ..
  have entry : shelfRecord u o i effective = ⟨i, o, s.millTime, effective, effective⟩ := by rw [shelfRecord, written.time]
  have lists (q : Pos) : (putShelf (ownerOf s i) o i effective u).lists.get q = if q = ownerOf s i then { s.lists.get (ownerOf s i) with
      shelf := insertBy shelfBefore ⟨i, o, s.millTime, effective, effective⟩ (s.lists.get (ownerOf s i)).shelf } else
        s.lists.get q := by
    rw [putShelf, modLists_get, written.lists, entry]
  refine ⟨append .shelved (some (ownerOf s i)) (some o) (some i) effective (putShelf (ownerOf s i) o i effective u),
    ⟨present, written.self, rfl, rfl, rfl, written.others, fun q => ?_, written.loads, written.areas, written.escalation, wf⟩, ?_,
    written.positions, written.links, written.time, fun q => ?_, ?_⟩
  · change (putShelf (ownerOf s i) o i effective u).lists.get q =
      { s.lists.get q with shelf := ((putShelf (ownerOf s i) o i effective u).lists.get q).shelf }
    rw [lists]
    split
    · rename_i hq; subst hq; rfl
    · rfl
  · exact written.entries.trans (u := append _ _ _ _ _ (putShelf (ownerOf s i) o i effective u)) ⟨rfl, rfl⟩ written.time
  · change ((putShelf (ownerOf s i) o i effective u).lists.get q).shelf = _
    rw [lists]
    split
    · rename_i hq; subst hq; rfl
    · rfl
  · rw [firstShelve, hu]

/-- R112: what a first SHELVE leaves. -/
theorem firstShelve_spec : let t := firstShelve o i effective s; let p := ownerOf s i
    (∃ c, alarm? t i = some c ∧ c.settled = (a.defn, a.dyn.input, a.dyn.lifecycle, a.dyn.acknowledger, true) ∧
      c.dyn.escalated = false ∧ c.dyn.reminders = a.dyn.reminders ∧ (isListed s i = true → c.dyn.annTime = none)) ∧
    (a.dyn.escalated = true → ∀ e ∈ t.escalation, e.alarm ≠ i) ∧ (s.alarms.wf = true → OnePlace s i → isListed t i = false) ∧
    (t.lists.get p).shelf = insertBy shelfBefore ⟨i, o, s.millTime, effective, effective⟩ (s.lists.get p).shelf ∧
    Journaled [⟨.shelved, some p, some o, some i, effective⟩] s t ∧
    (HasRoom s p → Numbered (s.positions.get p).items →
      let work := ((itemsRemoved a.defn.priority).onlyIf (isListed s i)).andThen (itemsShelved i effective)
      ItemsFollow p work s t ∧ (OnePlace s i → (s.lists.get p).ann.length ≤ 128 → Told (fun l =>
        atDesk p (departureNotices p i .shelved s ++ hornNotices p s t) l ++ atDesk .p0 (leftEscalation i .shelved s) l ++
          atDesk p (itemNotices p work s) l) s t)) ∧
    (∀ q, q ≠ p → t.lists.get q = s.lists.get q) ∧ OtherAlarmsSettled i s t ∧ DesksKept s t := by
  intro t p
  have same : p = ownerOf s i := rfl
  clear_value p
  subst same
  obtain ⟨m, ready, entries, positions, links, time, shelf, work⟩ := firstShelve_eq present o effective
  change t = _ at work
  clear_value t
  have record := ready.leaves_record (reason := .shelved) nofun
  have places := ready.leaves_places (reason := .shelved)
  have others {j : Nat} (hj : j ≠ i) := ready.leaves_others (reason := .shelved) hj
  have items := ready.leaves_items (reason := .shelved)
  have quiet := quiet_removedWhere i .shelved m
  have place := atPos_removedWhere i .shelved m
  rw [ready.ownerOf] at place
  change t = shelvedReport (ownerOf s i) i effective false _ at work
  generalize removedWhere i .shelved m = r at *
  have last : Kept [.positions, .links] r t := work ▸ (quiet_shelvedReport ..).kept
  have report : AtPos (ownerOf s i) r t := work ▸ atPos_shelvedReport ..
  have alarms : t.alarms = r.alarms := last.agrees .alarms (by simp)
  have lists : t.lists = r.lists := last.agrees .lists (by simp)
  have areas : t.areas = r.areas := last.agrees .areas (by simp)
  have escalation : t.escalation = r.escalation := last.agrees .escalation (by simp)
  have state (q : Pos) : (r.positions.get q).state = (s.positions.get q).state := by rw [place.desks.state q, positions]
  obtain ⟨⟨c, hc, settled, calm, reminders, time'⟩, gone⟩ := record
  refine ⟨⟨c, by rw [alarm?_congr alarms, hc], settled, calm, reminders, time'⟩, fun on => by rw [escalation]; exact gone on,
    fun wf one => (isListed_congr alarms lists areas).trans (places.gone wf one), ?_, ?_, fun room numbered => ?_, fun q hq => ?_,
    fun j hj => ?_, fun q => ?_⟩
  · rw [lists, place.shelf, shelf, if_pos rfl]
  · have later : Journaled [] m t := (Journaled.of_kept quiet.kept (by simp)).after (.of_kept last (by simp))
      (quiet.kept.agrees .clock (by simp)).1
    exact entries.before later time
  · obtain ⟨follow, told⟩ := items
    have follow' := follow.congr positions rfl
    have room' : HasRoom r (ownerOf s i) := fun review => by
      rw [state (ownerOf s i)] at review
      rw [follow' (ownerOf s i), if_pos ⟨rfl, review⟩, hasFreePlace_removed numbered]
      exact room review
    obtain ⟨later, tells⟩ := shelvedReport_spec_first (ownerOf s i) i effective r room'
    rw [← work] at later tells
    have horn : hornNotices (ownerOf s i) s r = hornNotices (ownerOf s i) s t := hornNotices_congr rfl (by rw [lists])
    refine ⟨follow'.andThen (state (ownerOf s i)) later, fun one bound => ?_⟩
    have first := told one bound
    rw [horn, itemNotices_congr _ _ positions] at first
    refine ((first.from_links links).trans tells).congr fun l => ?_
    rw [itemNotices_andThen follow' (state (ownerOf s i))]
    simp only [atDesk_append, List.append_assoc]
  · have same : m.lists.get q = s.lists.get q := by rw [ready.lists, shelf, if_neg hq]
    rw [lists, place.lists q hq, same]
  · rw [alarm?_congr alarms]; exact unmarked_settled (others hj)
  · rw [report.desks q, place.desks q, positions]

end shelve

theorem find?_alarm_mem {shelf : List ShelfEntry} {i : Nat} (h : ∃ e ∈ shelf, e.alarm = i) :
    (shelf.find? fun e => e.alarm == i).isSome = true := by
  obtain ⟨e, he, same⟩ := h
  exact List.find?_isSome.2 ⟨e, he, by simpa using same⟩

/-- R113: the lists after a renewal. -/
theorem renewShelf_lists {p : Pos} {i : Nat} {s : State} (stands : ∃ e ∈ (s.lists.get p).shelf, e.alarm = i) (o effective : Nat) (q : Pos) :
    (renewShelf p o i effective s).lists.get q = if q = p then { s.lists.get p with
      shelf := insertBy shelfBefore ⟨i, o, s.millTime, effective, effective⟩ ((s.lists.get p).shelf.filter fun e => e.alarm != i) }
      else s.lists.get q := by
  rw [renewShelf, if_pos (by exact find?_alarm_mem stands), putShelf, modLists_get, modLists_get_self, modLists_get]
  split <;> rfl

/-- R113: what a renewing SHELVE leaves. -/
theorem renewShelve_spec {i : Nat} {s : State} (stands : ∃ e ∈ (s.lists.get (ownerOf s i)).shelf, e.alarm = i) (o effective : Nat) :
    let t := renewShelve o i effective s; let p := ownerOf s i
    (∀ q, t.lists.get q = if q = p then { s.lists.get p with
      shelf := insertBy shelfBefore ⟨i, o, s.millTime, effective, effective⟩ ((s.lists.get p).shelf.filter fun e => e.alarm != i) }
      else s.lists.get q) ∧
    Journaled [⟨.shelved, some p, some o, some i, effective⟩] s t ∧ ItemsFollow p (itemsRenewed i effective) s t ∧
    Told (atDesk p (itemNotices p (itemsRenewed i effective) s)) s t ∧ DesksKept s t ∧
    Quiet [.lists, .positions, .journal, .links] s t := by
  intro t p
  generalize hm : append .shelved (some p) (some o) (some i) effective (renewShelf p o i effective s) = m
  have work : t = shelvedReport p i effective true m := by rw [← hm]; rfl
  clear_value t
  subst work
  have quiet : Quiet [.lists] s (renewShelf p o i effective s) := quiet_renewShelf ..
  have lists := renewShelf_lists stands o effective
  have written : m.lists = (renewShelf p o i effective s).lists ∧ m.positions = s.positions ∧ m.links = s.links ∧
      Quiet [.lists, .journal] s m ∧ Journaled [⟨.shelved, some p, some o, some i, effective⟩] s m := by
    have positions : (renewShelf p o i effective s).positions = s.positions := quiet.kept.agrees .positions (by simp)
    have links : (renewShelf p o i effective s).links = s.links := quiet.kept.agrees .links (by simp)
    have time : (renewShelf p o i effective s).millTime = s.millTime := (quiet.kept.agrees .clock (by simp)).1
    exact hm ▸ ⟨rfl, positions, links, (quiet.mono (by simp)).trans ((quiet_append ..).mono (by simp)),
      (Journaled.of_kept quiet.kept (by simp)).after (journaled_append ..) time⟩
  obtain ⟨lists', positions, links, quiet', entries⟩ := written
  have last : Kept [.positions, .links] m (shelvedReport p i effective true m) := (quiet_shelvedReport ..).kept
  obtain ⟨follow, told⟩ := shelvedReport_spec_renewed p i effective m
  rw [itemNotices_congr p _ positions] at told
  refine ⟨fun q => ?_, entries.before (.of_kept last (by simp)) (quiet'.kept.agrees .clock (by simp)).1, follow.congr positions rfl,
    told.from_links links, fun q => ?_, (quiet'.mono (by simp)).trans ((quiet_shelvedReport ..).mono (by simp))⟩
  · rw [show (shelvedReport p i effective true m).lists = m.lists from last.agrees .lists (by simp), lists']; exact lists q
  · rw [(atPos_shelvedReport ..).desks q, positions]

theorem effectiveDuration_eq {i : Nat} {a : Alarm} {s : State} (present : alarm? s i = some a) (duration : Nat) :
    effectiveDuration s i duration =
      if duration < 60 then 60 else if a.defn.maxShelve < duration then a.defn.maxShelve else duration := by
  rw [effectiveDuration, alarmAt_eq present]; rfl

/-- Settles O44. -/
theorem shelveEntersOrRenewsTheShelf : Obligations.ShelveEntersOrRenewsTheShelf := by
  refine ⟨fun h p i duration a s hp hl present may shelvable inside unmasked unshelved shelfRoom room => ?_,
    fun h p i duration a s hp hl present may shelvable inside unmasked shelved stands => ?_⟩
  all_goals
    have present' : alarm? (takeFrame h.link s) i = some a := present
    have level : ackLevelOf (takeFrame h.link s) i = a.defn.ackLevel := congrArg (·.defn.ackLevel) (alarmAt_eq present')
    have lifecycle : lifecycleOf (takeFrame h.link s) i = a.dyn.lifecycle := congrArg (·.dyn.lifecycle) (alarmAt_eq present')
    have effective := effectiveDuration_eq present' duration
    have quiet := quiet_shelve (s := takeFrame h.link s) h.op i duration
    have masked : isSuppressed (takeFrame h.link s) i = false := unmasked
    have out : (a.dyn.lifecycle != .outOfService) = true := bne_iff_ne.2 inside
    have checked (fits : a.dyn.shelved = true ∨ (s.lists.get (ownerOf s i)).shelf.length < 32 ∧ HasRoom s (ownerOf s i)) :
        firstRefusal (alarmActionChecks (takeFrame h.link s) h.op i .shelve (ackLevelOf (takeFrame h.link s) i) p ++
          shelveChecks (takeFrame h.link s) i) = none := by
      have room : a.dyn.shelved = true ∨ (s.lists.get (ownerOf s i)).shelf.length < 32 ∧ roomForItem s (ownerOf s i) = true := by
        refine fits.imp_right fun ⟨short, free⟩ => ⟨short, ?_⟩
        rw [roomForItem, Bool.or_eq_true, bne_iff_ne]
        exact or_iff_not_imp_left.2 fun review => free (not_not.1 review)
      rw [firstRefusal_append (firstRefusal_alarmActionChecks (level ▸ may))]
      simp only [shelveChecks, alarmAt_eq present', shelvable, masked, out]
      rcases room with on | ⟨short, free⟩
      · simp [on]
      · have short' : decide (((takeFrame h.link s).lists.get (ownerOf (takeFrame h.link s) i)).shelf.length < Config.shelfCapacity) =
            true := decide_eq_true short
        have free' : roomForItem (takeFrame h.link s) (ownerOf (takeFrame h.link s) i) = true := free
        simp only [short', free', Bool.or_true]
        rfl
  · have work : shelve h.op i duration (takeFrame h.link s) =
        (firstShelve h.op i (effectiveDuration (takeFrame h.link s) i duration) (takeFrame h.link s),
          shelvedAnswer (takeFrame h.link s) i duration (effectiveDuration (takeFrame h.link s) i duration)) := by
      simp only [shelve, alarmAt_eq present', unshelved]; rfl
    have spec := firstShelve_spec present' h.op (effectiveDuration (takeFrame h.link s) i duration)
    rw [work] at quiet
    obtain ⟨t, next, done⟩ := request_done (out := exec (.shelve h i duration) s) (P := Served .shelve h _ s _) (g := false) rfl hp
      ((atConsole_console hl _ _).trans ((judged_of_none (checked (.inr ⟨shelfRoom, room⟩)) _).trans work)) quiet fun _ d => d
    have replied := done.replied
    rw [lifecycle] at replied
    obtain ⟨⟨c, record, settled, calm, reminders, time⟩, gone, unlisted, shelf, entries, items, lists, others, desks⟩ := spec
    generalize firstShelve h.op i (effectiveDuration (takeFrame h.link s) i duration) (takeFrame h.link s) = u at *
    have alarms : t.alarms = u.alarms := done.agrees .alarms nofun
    have lists' : t.lists = u.lists := done.agrees .lists nofun
    have areas : t.areas = u.areas := done.agrees .areas nofun
    have escalation : t.escalation = u.escalation := done.agrees .escalation nofun
    have horn : hornNotices (ownerOf s i) s t = hornNotices (ownerOf s i) s u := hornNotices_congr rfl (by rw [lists'])
    have shelf' : (t.lists.get (ownerOf s i)).shelf = _ := (congrArg (fun l => (l.get (ownerOf s i)).shelf) lists').trans shelf
    refine ⟨t, c, _, next, effective, by rw [alarm?_congr alarms, record], settled, calm, reminders, time,
      fun on => by rw [escalation]; exact gone on, fun wf one => (isListed_congr alarms lists' areas).trans (unlisted wf one),
      by rw [shelf']; exact length_insertBy .., by rw [shelf']; exact mem_insertBy.2 (.inl rfl), replied, done.journaled entries,
      fun numbered => ?_, fun q hq => by rw [lists']; exact lists q hq, fun j hj => by rw [alarm?_congr alarms]; exact others j hj,
      done.desks desks, done.lines, done.kept quiet.kept (by simp)⟩
    obtain ⟨follow, told⟩ := items room numbered
    simp only [horn]
    exact ⟨done.follows follow, fun one bound => done.announced _ (told one bound)⟩
  · have work : shelve h.op i duration (takeFrame h.link s) =
        (renewShelve h.op i (effectiveDuration (takeFrame h.link s) i duration) (takeFrame h.link s),
          renewedAnswer duration (effectiveDuration (takeFrame h.link s) i duration)) := by
      simp only [shelve, alarmAt_eq present', shelved]; rfl
    have spec := renewShelve_spec (s := takeFrame h.link s) stands h.op (effectiveDuration (takeFrame h.link s) i duration)
    obtain ⟨lists, entries, follow, told, desks, still⟩ := spec
    obtain ⟨t, next, done⟩ := request_done (out := exec (.shelve h i duration) s) (P := Served .shelve h _ s _) (g := false) rfl hp
      ((atConsole_console hl _ _).trans ((judged_of_none (checked (.inl shelved)) _).trans work)) still fun _ d => d
    generalize renewShelve h.op i (effectiveDuration (takeFrame h.link s) i duration) (takeFrame h.link s) = u at *
    have lists' : t.lists = u.lists := done.agrees .lists nofun
    have at_p : t.lists.get (ownerOf s i) = _ := (congrArg (fun l => l.get (ownerOf s i)) lists').trans ((lists _).trans (if_pos rfl))
    refine ⟨t, _, next, effective, ?_⟩
    rw [at_p]
    refine ⟨fun e he same => ?_, ⟨_, mem_insertBy.2 (.inl rfl), rfl⟩, fun e other => ?_, rfl, rfl, done.replied, done.journaled entries,
      done.follows follow, done.announced _ told, fun q hq => ?_, done.desks desks, done.lines, done.kept still.kept (by simp)⟩
    · rcases mem_insertBy.1 he with here | there
      · exact here
      · exact absurd same (bne_iff_ne.1 (List.mem_filter.1 there).2)
    · refine ⟨fun he => ?_, fun he => mem_insertBy.2 (.inr (List.mem_filter.2 ⟨he, bne_iff_ne.2 other⟩))⟩
      rcases mem_insertBy.1 he with here | there
      · exact absurd (congrArg ShelfEntry.alarm here) other
      · exact (List.mem_filter.1 there).1
    · rw [lists', lists]; exact if_neg hq

end Sys2Proof.Machine
end

section
/-! PROOFS. OUT_OF_SERVICE and RETURN_TO_SERVICE. -/

namespace Sys2Proof.Machine

/-- R15: the record of an alarm out of service, before it leaves the lists. -/
def Alarm.retired (a : Alarm) : Alarm :=
  { defn := { a.defn with inService := false }, dyn := { a.dyn.enter .outOfService none with shelved := false } }

/-- R16: the record of an alarm that has returned to service. -/
def Alarm.returnedTo (new : Lifecycle) (a : Alarm) : Alarm :=
  { defn := { a.defn with inService := true }, dyn := a.dyn.enter new none }

/-- R15: the lifecycle and the in-service field of an alarm are written. -/
abbrev serviceSet (i : Nat) (b : Bool) (new : Lifecycle) (s : State) : State := setService i b (modDyn i (AlarmDyn.enter new none) s)

theorem recorded_served {i : Nat} {a : Alarm} {s : State} (present : alarm? s i = some a) (b : Bool) (new : Lifecycle) :
    Recorded i a { defn := { a.defn with inService := b }, dyn := a.dyn.enter new none } [] s (serviceSet i b new s) :=
  (recorded_modDyn present (AlarmDyn.enter new none)).modAlarm (fun a => { a with defn := { a.defn with inService := b } }) rfl

theorem wf_served {s : State} (h : s.alarms.wf = true) (i : Nat) (b : Bool) (new : Lifecycle) :
    (serviceSet i b new s).alarms.wf = true := Table.wf_modify (wf_modDyn h i (AlarmDyn.enter new none)) ..

/-- R116: the shelf entry of an alarm out of service is gone. -/
abbrev unshelvedWhere (c : Bool) (p : Pos) (i : Nat) (s : State) : State := if c then shelfEndedReport p i (leaveShelf p i s) else s

section retire
variable {i : Nat} {a : Alarm} {s : State} (present : alarm? s i = some a)
include present

/-- R116: work on the shelf of an alarm out of service. -/
theorem prepared_retired (p : Pos) : let u := serviceSet i false .outOfService s; let m := unshelvedWhere a.dyn.shelved p i u
    Prepared i a a.retired s m ∧ m.journal = s.journal ∧ m.nextSeq = s.nextSeq ∧ m.millTime = s.millTime ∧
      ItemsFollow p ((itemResolved .shelf i).onlyIf a.dyn.shelved) s m ∧ DesksKept s m ∧
      (∀ q, (m.lists.get q).shelf = if a.dyn.shelved = true ∧ q = p then (s.lists.get q).shelf.filter (fun e => e.alarm != i)
        else (s.lists.get q).shelf) ∧ Kept [.alarms, .lists, .positions, .journal, .links] s m := by
  intro u m
  have written := recorded_served present false .outOfService
  have wf : s.alarms.wf = true → u.alarms.wf = true := fun h => wf_served h i false .outOfService
  change Recorded i a _ [] s u at written
  clear_value u
  have journal := written.entries
  cases shelved : a.dyn.shelved with
  | false =>
    have work : m = u := if_neg (by rw [shelved]; nofun)
    rw [work]
    have record : ({ defn := { a.defn with inService := false }, dyn := a.dyn.enter .outOfService none } : Alarm) = a.retired := by
      rw [Alarm.retired, AlarmDyn.enter, shelved]
    rw [record] at written
    refine ⟨written.prepared rfl rfl wf, journal.1, journal.2, written.time, itemsFollow_of_positions p written.positions,
      fun q => by rw [written.positions], fun q => ?_, written.kept.mono (by simp)⟩
    rw [if_neg (fun h => nomatch h.1), written.lists]
  | true =>
    have work : m = shelfEndedReport p i (leaveShelf p i u) := if_pos shelved
    generalize hl : modLists p (fun v => { v with shelf := v.shelf.filter fun e => e.alarm != i }) u = l at work
    have left : alarm? l i = alarm? u i ∧ l.journal = u.journal ∧ l.nextSeq = u.nextSeq ∧ Kept [.lists] u l ∧
        (∀ q, l.lists.get q = if q = p then { u.lists.get p with shelf := (u.lists.get p).shelf.filter fun e => e.alarm != i } else
          u.lists.get q) := hl ▸ ⟨rfl, rfl, rfl, (quiet_modLists ..).kept, fun q => modLists_get ..⟩
    obtain ⟨same, journal', next', kept, shelf⟩ := left
    have off := recorded_modDyn (same.trans written.self) fun d => { d with shelved := false }
    have entry : leaveShelf p i u = modDyn i (fun d => { d with shelved := false }) l := by rw [leaveShelf, hl]
    have wf' : u.alarms.wf = true → (leaveShelf p i u).alarms.wf = true := fun h => by
      rw [entry]; exact wf_modDyn (by rw [show l.alarms = u.alarms from kept.agrees .alarms (by simp)]; exact h) i _
    rw [← entry] at off
    generalize leaveShelf p i u = v at *
    have last : Kept [.positions, .links] v m := work ▸ (quiet_shelfEndedReport ..).kept
    have alarms : m.alarms = v.alarms := last.agrees .alarms (by simp)
    have lists : m.lists = l.lists := Eq.trans (last.agrees .lists (by simp)) off.lists
    have positions : v.positions = s.positions := off.positions.trans (Eq.trans (kept.agrees .positions (by simp)) written.positions)
    obtain ⟨journal'', next''⟩ : m.journal = v.journal ∧ m.nextSeq = v.nextSeq := last.agrees .journal (by simp)
    refine ⟨⟨present, by rw [alarm?_congr alarms, off.self]; rfl, rfl, rfl, rfl, fun j hj => ?_, fun q => ?_, ?_, ?_, ?_, fun h => ?_⟩,
      ?_, ?_, ?_, ?_, fun q => ?_, fun q => ?_, ?_⟩
    · rw [alarm?_congr alarms, off.others j hj, alarm?_congr (kept.agrees .alarms (by simp)), written.others j hj]
    · rw [lists, shelf, written.lists]; split
      · rename_i hq; subst hq; rfl
      · rfl
    · exact Eq.trans (last.agrees .loads (by simp)) (off.loads.trans (Eq.trans (kept.agrees .loads (by simp)) written.loads))
    · exact Eq.trans (last.agrees .areas (by simp)) (off.areas.trans (Eq.trans (kept.agrees .areas (by simp)) written.areas))
    · exact Eq.trans (last.agrees .escalation (by simp))
        (off.escalation.trans (Eq.trans (kept.agrees .escalation (by simp)) written.escalation))
    · rw [alarms]; exact wf' (wf h)
    · exact journal''.trans (off.entries.1.trans (journal'.trans journal.1))
    · exact next''.trans (off.entries.2.trans (next'.trans journal.2))
    · exact Eq.trans (last.agrees .clock (by simp)).1 (off.time.trans (Eq.trans (kept.agrees .clock (by simp)).1 written.time))
    · exact (work ▸ (shelfEndedReport_spec p i v).1 : ItemsFollow p (itemResolved .shelf i) v m).congr positions rfl
    · rw [work, (atPos_shelfEndedReport ..).desks q, positions]
    · rw [lists, shelf, written.lists]
      by_cases hq : q = p
      · subst hq; simp
      · simp [hq]
    · exact ((written.kept.mono (by simp)).trans (kept.mono (by simp))).trans ((off.kept.mono (by simp)).trans (last.mono (by simp)))

/-- R15: what OUT_OF_SERVICE leaves. -/
theorem takeOutOfService_spec : let t := takeOutOfService i s
    (∃ c, alarm? t i = some c ∧ c.settled = ({ a.defn with inService := false }, a.dyn.input, .outOfService, none, false) ∧
      c.dyn.escalated = false ∧ c.dyn.reminders = 0 ∧ (isListed s i = true → c.dyn.annTime = none)) ∧
    (a.dyn.escalated = true → ∀ e ∈ t.escalation, e.alarm ≠ i) ∧ (s.alarms.wf = true → OnePlace s i → isListed t i = false) ∧
    (a.dyn.shelved = true → ∀ e ∈ (t.lists.get (ownerOf s i)).shelf, e.alarm ≠ i) ∧
    Journaled [⟨.outOfService, some (ownerOf s i), none, some i, lifecycleCode a.dyn.lifecycle⟩] s t ∧
    (∃ wrapped, ItemsFollow (ownerOf s i) ((((itemResolved .shelf i).onlyIf a.dyn.shelved).andThen
      ((itemsRemoved a.defn.priority).onlyIf (isListed s i))).andThen
        (itemsLifecycle wrapped (ownerOf s i) i a.dyn.lifecycle .outOfService)) s t) ∧
    (∀ q, q ≠ ownerOf s i → t.lists.get q = s.lists.get q) ∧ OtherAlarmsSettled i s t ∧ DesksKept s t ∧
    Kept [.alarms, .lists, .escalation, .positions, .journal, .links, .free] s t := by
  intro t
  obtain ⟨ready, journal, next, time, follow, desks, shelf, frame⟩ := prepared_retired present (ownerOf s i)
  generalize hm : unshelvedWhere a.dyn.shelved (ownerOf s i) i (serviceSet i false .outOfService s) = m at *
  generalize hn : append .outOfService (some (ownerOf s i)) none (some i) (lifecycleCode a.dyn.lifecycle) m = n
  have written : Prepared i a a.retired s n ∧ n.positions = m.positions ∧ n.lists = m.lists ∧ n.millTime = m.millTime ∧
      Kept [.journal] m n ∧ Journaled [⟨.outOfService, some (ownerOf s i), none, some i, lifecycleCode a.dyn.lifecycle⟩] m n :=
    hn ▸ ⟨⟨ready.before, ready.self, ready.lasting, ready.escalated, ready.overflow, ready.others, ready.lists, ready.loads, ready.areas,
      ready.escalation, ready.wf⟩, rfl, rfl, rfl, (quiet_append ..).kept, rfl, rfl⟩
  obtain ⟨ready', positions, lists', time', frame', entry⟩ := written
  have work : t = lifecycleReport i a.dyn.lifecycle .outOfService (removedWhere i .outOfService n) := by
    have escalated : (alarmAt n i).dyn.escalated = a.dyn.escalated := by rw [alarmAt_eq ready'.self]; rfl
    simp only [t, takeOutOfService, removedWhere, escalated, alarmAt_eq present]
    rw [← hn, ← hm]
  clear_value t
  have record := ready'.leaves_record (reason := .outOfService) nofun
  have places := ready'.leaves_places (reason := .outOfService)
  have others {j : Nat} (hj : j ≠ i) := ready'.leaves_others (reason := .outOfService) hj
  have items := (ready'.leaves_items (reason := .outOfService)).1
  have quiet := quiet_removedWhere i .outOfService n
  have place := atPos_removedWhere i .outOfService n
  rw [ready'.ownerOf] at place
  generalize removedWhere i .outOfService n = r at *
  have last : Kept [.positions, .links, .free] r t := work ▸ kept_lifecycleReport ..
  have alarms : t.alarms = r.alarms := last.agrees .alarms (by simp)
  have lists : t.lists = r.lists := last.agrees .lists (by simp)
  have areas : t.areas = r.areas := last.agrees .areas (by simp)
  have escalation : t.escalation = r.escalation := last.agrees .escalation (by simp)
  have desks' : DesksKept s n := desks.congr rfl positions
  have state (q : Pos) : (n.positions.get q).state = (s.positions.get q).state := desks'.state q
  obtain ⟨⟨c, hc, settled, calm, reminders, annTime⟩, gone⟩ := record
  refine ⟨⟨c, by rw [alarm?_congr alarms, hc], settled, calm, reminders, annTime⟩, fun on => by rw [escalation]; exact gone on,
    fun wf one => (isListed_congr alarms lists areas).trans (places.gone wf one), fun on e he => ?_, ?_, ?_, fun q hq => ?_,
    fun j hj => ?_, fun q => ?_, ?_⟩
  · rw [lists, place.shelf, lists', shelf, if_pos ⟨on, rfl⟩] at he
    exact bne_iff_ne.1 (List.mem_filter.1 he).2
  · have later : Journaled [] n t := (Journaled.of_kept quiet.kept (by simp)).after (.of_kept last (by simp))
      (quiet.kept.agrees .clock (by simp)).1
    have earlier : Journaled [] s m := ⟨journal, next⟩
    exact (earlier.after entry time).before later (time'.trans time)
  · have owner : ownerOf r i = ownerOf s i := (place.ownerOf i).trans (ready'.ownerOf i)
    have before : ItemsFollow (ownerOf s i) ((itemResolved .shelf i).onlyIf a.dyn.shelved) s n := follow.congr rfl positions
    have both := before.andThen (state (ownerOf s i)) items
    obtain ⟨wrapped, all, -⟩ := lifecycleReport_after (a := fun _ => []) a.dyn.lifecycle .outOfService owner both
      (fun q => (place.desks q).trans (desks' q))
    exact ⟨wrapped, work ▸ all⟩
  · have same : n.lists.get q = s.lists.get q := by rw [ready'.lists, lists', shelf, if_neg fun h => hq h.2]
    rw [lists, place.lists q hq, same]
  · rw [alarm?_congr alarms]; exact unmarked_settled (others hj)
  · rw [work, (desks_lifecycleReport (s := r) i a.dyn.lifecycle .outOfService).desks q, place.desks q, desks' q]
  · exact ((frame.mono (by simp)).trans (frame'.mono (by simp))).trans ((quiet.kept.mono (by simp)).trans (last.mono (by simp)))

end retire

/-! ### RETURN_TO_SERVICE -/

/-- R16: the lifecycle that the recorded input gives. -/
abbrev Alarm.resumes (a : Alarm) : Lifecycle := if a.dyn.input = .active then .raised else .normal

section resume
variable {i : Nat} {a : Alarm} {s : State} (present : alarm? s i = some a)
include present

theorem returnAlarm_eq : ∃ m, Recorded i a (a.returnedTo a.resumes)
      [⟨.returnedToService, some (ownerOf s i), none, some i, if a.dyn.input = .active then 1 else 0⟩] s m ∧
    returnAlarm i s = lifecycleReport i .outOfService a.resumes
      (placedIf (a.dyn.input == .active && !isSuppressed s i) i m) := by
  have written := (recorded_served present true a.resumes).append .returnedToService (some (ownerOf s i)) none (some i)
    (if a.dyn.input = .active then 1 else 0)
  have owner := (recorded_served present true a.resumes).ownerOf i
  have suppressed := written.isSuppressed i
  refine ⟨_, written, ?_⟩
  have code : lifecycleCode a.resumes = if a.dyn.input = .active then 1 else 0 := by
    unfold Alarm.resumes; split <;> rfl
  simp only [returnAlarm, alarmAt_eq present]
  change lifecycleReport i .outOfService a.resumes (if a.resumes = .raised ∧ isSuppressed (append .returnedToService
    (some (ownerOf (serviceSet i true a.resumes s) i)) none (some i) (lifecycleCode a.resumes) (serviceSet i true a.resumes s)) i = false
      then placeReport i true _ else _) = _
  rw [owner, code, suppressed]
  refine congrArg _ ?_
  have same : (a.resumes = .raised ∧ isSuppressed s i = false) ↔ (a.dyn.input == .active && !isSuppressed s i) = true := by
    simp [Alarm.resumes]
  exact if_congr same rfl rfl

/-- R16: what RETURN_TO_SERVICE leaves. -/
theorem returnAlarm_spec : let t := returnAlarm i s; let placed := a.dyn.input == .active && !isSuppressed s i
    (∃ b, alarm? t i = some b ∧ b.settled = ({ a.defn with inService := true }, a.dyn.input, a.resumes, none, a.dyn.shelved) ∧
      (placed = true → b.dyn.annTime = some s.millTime ∧ isListed t i = true ∧ (t.loads.get (ownerOf s i)).load =
        min 65535 ((s.loads.get (ownerOf s i)).load + arrivalWeight a.defn.priority))) ∧
    JournaledFirst [⟨.returnedToService, some (ownerOf s i), none, some i, if a.dyn.input = .active then 1 else 0⟩] s t ∧
    (placed = false → t.loads = s.loads ∧ t.lists = s.lists) ∧
    (a.defn.Sound → ∃ wrapped, ItemsFollow (ownerOf s i) (((itemsFlood (ownerOf s i) s t).andThen
      ((itemsPlaced wrapped a.defn.priority i).onlyIf placed)).andThen
        (itemsLifecycle wrapped (ownerOf s i) i .outOfService a.resumes)) s t) ∧
    OtherAlarmsSettled i s t ∧ DesksKept s t := by
  intro t placed
  obtain ⟨m, written, work⟩ := returnAlarm_eq present
  change t = lifecycleReport i .outOfService a.resumes (placedIf placed i m) at work
  clear_value t placed
  have owner : ownerOf m i = ownerOf s i := written.ownerOf i
  obtain ⟨yes, no, ls, entries⟩ := placedIf_spec placed written.self
  have items := placedIf_items placed written.self
  have place := atPos_placedIf placed i m
  have quiet := quiet_placedIf placed i m
  rw [owner] at place
  generalize placedIf placed i m = r at *
  have last : Kept [.positions, .links, .free] r t := work ▸ kept_lifecycleReport ..
  have alarms : t.alarms = r.alarms := last.agrees .alarms (by simp)
  have lists : t.lists = r.lists := last.agrees .lists (by simp)
  have loads : t.loads = r.loads := last.agrees .loads (by simp)
  have areas : t.areas = r.areas := last.agrees .areas (by simp)
  have time : r.millTime = m.millTime := (quiet.kept.agrees .clock (by simp)).1
  have settled := place.settled i
  rw [written.self] at settled
  obtain ⟨b, hb, same⟩ := Option.map_eq_some_iff.1 settled
  have shown : b.settled = ({ a.defn with inService := true }, a.dyn.input, a.resumes, none, a.dyn.shelved) := by
    rw [same]
    simp only [Alarm.returnedTo, Alarm.settled, AlarmDyn.enter, Alarm.resumes]
    split <;> rfl
  refine ⟨⟨b, by rw [alarm?_congr alarms, hb], shown, fun on => ?_⟩, ⟨ls, ?_⟩, fun off => ?_, fun sound => ?_, fun j hj => ?_, fun q => ?_⟩
  · obtain ⟨⟨x, record⟩, stands, load⟩ := yes on
    rw [hb] at record
    refine ⟨by rw [Option.some.inj record]; exact congrArg some written.time, ?_, ?_⟩
    · rw [isListed_congr alarms lists areas, isListed_eq, place.ownerOf]; exact stands
    · rw [owner, written.loads] at load
      rw [loads, load]
      exact PosLoad.added_load ..
  · exact (written.entries.trans entries written.time).before (.of_kept last (by simp)) (time.trans written.time)
  · rw [loads, lists, no off]; exact ⟨written.loads, written.lists⟩
  · obtain ⟨wrapped, follow, -⟩ := items sound
    rw [owner] at follow
    have item : itemsFlood (ownerOf s i) m r = itemsFlood (ownerOf s i) s t := itemsFlood_congr (by rw [written.loads]) (by rw [loads])
    rw [item] at follow
    obtain ⟨v, all, -⟩ := lifecycleReport_after (a := fun _ => []) .outOfService a.resumes ((place.ownerOf i).trans owner)
      (follow.congr written.positions rfl) (DesksKept.congr place.desks written.positions rfl)
    rw [itemsLifecycle_wrapped (new := a.resumes) (by unfold Alarm.resumes; split <;> nofun) v wrapped, ← work] at all
    exact ⟨wrapped, all⟩
  · rw [alarm?_congr alarms, place.settled j, written.others j hj]
  · rw [work, (desks_lifecycleReport (s := r) i .outOfService a.resumes).desks q, place.desks q, written.positions]

end resume

/-- Settles O36. -/
theorem serviceStateFollowsTheGateway : Obligations.ServiceStateFollowsTheGateway := by
  refine ⟨fun h i a s hp present inside => ?_, fun h i a s hp present out => ?_, fun h i a s hp present out => ?_,
    fun h i a s hp present inside => ?_⟩
  all_goals
    have present' : alarm? (takeFrame h.link s) i = some a := present
    have checked : firstRefusal [definedIndexCheck (takeFrame h.link s) i] = none := by simp [definedIndexCheck, isDefined, present']
    have lifecycle : lifecycleOf (takeFrame h.link s) i = a.dyn.lifecycle := congrArg (·.dyn.lifecycle) (alarmAt_eq present')
  · have spec := takeOutOfService_spec present'
    have work : (if lifecycleOf (takeFrame h.link s) i = .outOfService then
        (takeFrame h.link s, doneWith (be8 (resultCode .noChange)))
      else (takeOutOfService i (takeFrame h.link s), doneWith (be8 (resultCode .changed)))) =
        (takeOutOfService i (takeFrame h.link s), doneWith (be8 1)) := if_neg (by rw [lifecycle]; exact inside)
    have quiet := quiet_takeOutOfService (s := takeFrame h.link s) i
    obtain ⟨t, next, done⟩ := request_done (out := exec (.outOfService h i) s) (P := Served .outOfService h _ s _) (g := false) rfl hp
      ((judged_of_none checked _).trans work) quiet fun _ d => d
    obtain ⟨⟨c, record, settled, calm, reminders, time⟩, gone, unlisted, shelf, entries, ⟨wrapped, follow⟩, lists, others, desks, frame⟩ :=
      spec
    generalize takeOutOfService i (takeFrame h.link s) = u at *
    have alarms : t.alarms = u.alarms := done.agrees .alarms nofun
    have lists' : t.lists = u.lists := done.agrees .lists nofun
    have areas : t.areas = u.areas := done.agrees .areas nofun
    have escalation : t.escalation = u.escalation := done.agrees .escalation nofun
    exact ⟨t, c, next, by rw [alarm?_congr alarms, record], settled, calm, reminders, time, done.replied, done.journaled entries,
      fun on => by rw [lists']; exact shelf on, ⟨wrapped, done.follows follow⟩, fun on => by rw [escalation]; exact gone on,
      fun wf one => (isListed_congr alarms lists' areas).trans (unlisted wf one), fun q hq => by rw [lists']; exact lists q hq,
      fun j hj => by rw [alarm?_congr alarms]; exact others j hj, done.desks desks, done.lines, done.kept frame (by simp)⟩
  · have spec := returnAlarm_spec present'
    have quiet := quiet_returnAlarm (s := takeFrame h.link s) i
    obtain ⟨⟨b, record, settled, placed⟩, ⟨ls, entries⟩, still, items, others, desks⟩ := spec
    have code : lifecycleCode (lifecycleOf (returnAlarm i (takeFrame h.link s)) i) = if a.dyn.input = .active then 1 else 0 := by
      have resumed : b.dyn.lifecycle = a.resumes := congrArg (fun x => x.2.2.1) settled
      rw [lifecycleOf, alarmAt_eq record, resumed, Alarm.resumes]
      split <;> rfl
    have work : (if lifecycleOf (takeFrame h.link s) i = .outOfService then
        let t := returnAlarm i (takeFrame h.link s)
        (t, doneWith (be8 (resultCode .changed) ++ be8 (lifecycleCode (lifecycleOf t i))))
      else (takeFrame h.link s, doneWith (be8 (resultCode .noChange)))) =
        (returnAlarm i (takeFrame h.link s), doneWith (be8 1 ++ be8 (if a.dyn.input = .active then 1 else 0))) := by
      rw [if_pos (lifecycle.trans out), ← code]; rfl
    obtain ⟨t, next, done⟩ := request_done (out := exec (.returnToService h i) s) (P := Served .returnToService h _ s _) (g := false)
      rfl hp ((judged_of_none checked _).trans work) quiet fun _ d => d
    generalize returnAlarm i (takeFrame h.link s) = u at *
    have alarms : t.alarms = u.alarms := done.agrees .alarms nofun
    have lists : t.lists = u.lists := done.agrees .lists nofun
    have loads : t.loads = u.loads := done.agrees .loads nofun
    have areas : t.areas = u.areas := done.agrees .areas nofun
    refine ⟨t, b, next, by rw [alarm?_congr alarms, record], settled, done.replied, ⟨ls, done.journaled entries⟩, fun off => ?_,
      fun sound => ?_, fun active listed => ?_, fun j hj => by rw [alarm?_congr alarms]; exact others j hj, done.desks desks, done.lines,
      done.kept (quiet.kept.mono (by simp)) (by simp)⟩
    · have no : (a.dyn.input == .active && !isSuppressed (takeFrame h.link s) i) = false := by
        rw [Bool.and_eq_false_iff, beq_eq_false_iff_ne, Bool.not_eq_false']; exact off
      obtain ⟨sameLoads, sameLists⟩ := still no
      exact ⟨loads.trans sameLoads, lists.trans sameLists⟩
    · obtain ⟨wrapped, follow⟩ := items sound
      have item : itemsFlood (ownerOf s i) s t = itemsFlood (ownerOf s i) s u := itemsFlood_congr rfl (by rw [loads])
      rw [item]
      exact ⟨wrapped, done.follows follow⟩
    · have yes : (a.dyn.input == .active && !isSuppressed (takeFrame h.link s) i) = true := by
        rw [Bool.and_eq_true, beq_iff_eq, Bool.not_eq_true']; exact ⟨active, listed⟩
      obtain ⟨time, stands, load⟩ := placed yes
      exact ⟨time, (isListed_congr alarms lists areas).trans stands, by rw [loads]; exact load⟩
  · have work : (if lifecycleOf (takeFrame h.link s) i = .outOfService then
        (takeFrame h.link s, doneWith (be8 (resultCode .noChange)))
      else (takeOutOfService i (takeFrame h.link s), doneWith (be8 (resultCode .changed)))) =
        (takeFrame h.link s, doneWith (be8 255)) := if_pos (lifecycle.trans out)
    refine request_done (ps := []) (out := exec (.outOfService h i) s) (g := false) rfl hp ((judged_of_none checked _).trans work)
      (.refl ..) fun t done => ?_
    exact ⟨done.replied, done.lines, done.kept (.refl ..) (by simp)⟩
  · have work : (if lifecycleOf (takeFrame h.link s) i = .outOfService then
        let t := returnAlarm i (takeFrame h.link s)
        (t, doneWith (be8 (resultCode .changed) ++ be8 (lifecycleCode (lifecycleOf t i))))
      else (takeFrame h.link s, doneWith (be8 (resultCode .noChange)))) = (takeFrame h.link s, doneWith (be8 255)) :=
      if_neg (by rw [lifecycle]; exact inside)
    refine request_done (ps := []) (out := exec (.returnToService h i) s) (g := false) rfl hp ((judged_of_none checked _).trans work)
      (.refl ..) fun t done => ?_
    exact ⟨done.replied, done.lines, done.kept (.refl ..) (by simp)⟩

end Sys2Proof.Machine
end

section
/-! PROOFS. GROUP_MASK with action MASK: the alarms of the groups that are masked leave their places one after another. -/

namespace Sys2Proof.Machine

/-- Work that takes the alarms of a kind off the lists of their owners, and no other. -/
structure Empties (goes : Nat → Prop) (s t : State) : Prop where
  wf : s.alarms.wf = true → t.alarms.wf = true
  listed : s.alarms.wf = true → ∀ j, ¬goes j → isListed t j = isListed s j
  onePlace : s.alarms.wf = true → ∀ j, OnePlace s j → OnePlace t j
  gone : s.alarms.wf = true → ∀ j, goes j → OnePlace s j → isListed t j = false

theorem onePlace_of_unlisted {s : State} {j : Nat} (h : isListed s j = false) : OnePlace s j := by
  rw [isListed_eq, standsAt, Bool.or_eq_false_iff, Bool.or_eq_false_iff] at h
  obtain ⟨⟨ann, deferred⟩, -⟩ := h
  exact ⟨fun on => absurd (ann.symm.trans on) nofun, fun on => absurd (deferred.symm.trans on) nofun⟩

theorem Shuffles.empties {s t : State} (h : Shuffles s t) {goes : Nat → Prop} (none : ∀ j, ¬goes j) : Empties goes s t :=
  ⟨h.wf, fun wf j _ => h.listed wf j, h.onePlace, fun _ j go => absurd go (none j)⟩

theorem Unlists.empties {i : Nat} {s t : State} (h : Unlists i s t) : Empties (fun j => j = i) s t := by
  refine ⟨h.wf, h.listed, fun wf j one => ?_, fun wf j go one => ?_⟩
  · by_cases hj : j = i
    · subst hj; exact onePlace_of_unlisted (h.gone wf one)
    · exact h.onePlace wf j hj one
  · subst go; exact h.gone wf one

theorem Empties.trans {D E : Nat → Prop} {s t u : State} (h : Empties D s t) (k : Empties E t u) :
    Empties (fun j => D j ∨ E j) s u := by
  refine ⟨fun wf => k.wf (h.wf wf), fun wf j stays => ?_, fun wf j one => k.onePlace (h.wf wf) j (h.onePlace wf j one),
    fun wf j goes one => ?_⟩
  · obtain ⟨first, second⟩ := not_or.1 stays
    exact (k.listed (h.wf wf) j second).trans (h.listed wf j first)
  · by_cases second : E j
    · exact k.gone (h.wf wf) j second (h.onePlace wf j one)
    · exact (k.listed (h.wf wf) j second).trans (h.gone wf j (goes.resolve_right second) one)

theorem Empties.congr {D E : Nat → Prop} {s t : State} (h : Empties D s t) (same : ∀ j, E j ↔ D j) : Empties E s t :=
  ⟨h.wf, fun wf j stays => h.listed wf j fun go => stays ((same j).2 go), h.onePlace, fun wf j go => h.gone wf j ((same j).1 go)⟩

/-- R18: an alarm of a group that has been masked. -/
def Alarm.masked (a : Alarm) : Alarm :=
  match a.dyn.lifecycle, a.dyn.shelved with
  | .raised, false => a.departed .suppressed
  | .returned, false => (a.entered .normal none).departed .normal
  | .returned, true => a.entered .normal none
  | _, _ => a

/-- R18: masking has acted on one alarm, which leaves its places where `gone` holds. -/
structure MasksOne (i : Nat) (b x : Alarm) (gone : Bool) (u r : State) : Prop where
  record : alarm? r i = some x
  others : ∀ j, j ≠ i → (alarm? r j).map Alarm.unmarked = (alarm? u j).map Alarm.unmarked
  fewer : ∀ e ∈ r.escalation, e ∈ u.escalation
  calm : gone = true → b.dyn.escalated = true → ∀ e ∈ r.escalation, e.alarm ≠ i
  places : Empties (fun j => j = i ∧ gone = true) u r
  entries : Journaled [] u r
  quiet : Quiet [.alarms, .lists, .escalation, .positions, .links, .free] u r
  desks : DesksKept u r

theorem MasksOne.refl {i : Nat} {b : Alarm} {u : State} (present : alarm? u i = some b) : MasksOne i b b false u u :=
  ⟨present, fun _ _ => rfl, fun _ he => he, nofun, (Shuffles.refl u).empties (by simp), ⟨rfl, rfl⟩, .refl .., fun _ => rfl⟩

theorem fewer_removeReport {i : Nat} {b : Alarm} {u : State} (present : alarm? u i = some b) (reason : Reason) :
    ∀ e ∈ (removeReport i reason u).escalation, e ∈ u.escalation := fun e he => by
  rw [removeReport_escalation present] at he
  split at he
  · exact (List.mem_filter.1 he).1
  · exact he

section one
variable {i : Nat} {b : Alarm} {u : State} (present : alarm? u i = some b)
include present

theorem masksOne_raised : MasksOne i b (b.departed .suppressed) true u (removeReport i .suppressed u) where
  record := removeReport_record present .suppressed
  others _ hj := removeReport_others hj .suppressed u
  fewer := fewer_removeReport present .suppressed
  calm _ on := not_mem_escalation present .suppressed on
  places := (unlists_removeReport ..).empties.congr (by simp)
  entries := .of_kept (quiet_removeReport ..).kept (by simp)
  quiet := (quiet_removeReport ..).mono (by simp)
  desks := (desks_removeReport ..).desks

/-- R18: a RETURNED alarm of a masked group goes to NORMAL. -/
theorem prepared_normal : Prepared i b (b.entered .normal none) u (modDyn i (AlarmDyn.enter .normal none) u) :=
  (recorded_modDyn present (AlarmDyn.enter .normal none)).prepared rfl rfl fun wf => wf_modDyn wf ..

theorem masksOne_returned : MasksOne i b ((b.entered .normal none).departed .normal) true u
    (lifecycleReport i .returned .normal (removeReport i .normal (modDyn i (AlarmDyn.enter .normal none) u))) := by
  have ready := prepared_normal present
  have written : Quiet [.alarms] u (modDyn i (AlarmDyn.enter .normal none) u) := quiet_modDyn ..
  have first : SameDesks u (modDyn i (AlarmDyn.enter .normal none) u) := desks_modDyn ..
  generalize modDyn i (AlarmDyn.enter .normal none) u = m at *
  have removed := quiet_removeReport (s := m) i .normal
  have last := kept_lifecycleReport i .returned .normal (removeReport i .normal m)
  have alarms : (lifecycleReport i .returned .normal (removeReport i .normal m)).alarms = _ := last.agrees .alarms (by simp)
  have escalation : (lifecycleReport i .returned .normal (removeReport i .normal m)).escalation = _ :=
    last.agrees .escalation (by simp)
  refine ⟨by rw [alarm?_congr alarms, removeReport_record ready.self], fun j hj => ?_, fun e he => ?_, fun _ on e he => ?_,
    ((Unlists.after ready.shuffles (unlists_removeReport ..)).then (.of_kept last (by simp) (by simp) (by simp))).empties.congr (by simp),
    ?_, ?_, ((first.trans (desks_removeReport ..)).trans (desks_lifecycleReport ..)).desks⟩
  · rw [alarm?_congr alarms, removeReport_others hj, ready.others j hj]
  · rw [escalation] at he
    exact ready.escalation ▸ fewer_removeReport ready.self .normal e he
  · rw [escalation] at he
    exact not_mem_escalation ready.self .normal (ready.escalated.trans on) e he
  · have kept : Kept [.alarms, .lists, .escalation, .positions, .links, .free] u
        (lifecycleReport i .returned .normal (removeReport i .normal m)) :=
      ((written.kept.mono (by simp)).trans (removed.kept.mono (by simp))).trans (last.mono (by simp))
    exact .of_kept kept (by simp)
  · exact ((written.mono (by simp)).trans (removed.mono (by simp))).trans ((quiet_lifecycleReport ..).mono (by simp))

theorem masksOne_shelved : MasksOne i b (b.entered .normal none) false u
    (lifecycleReport i .returned .normal (modDyn i (AlarmDyn.enter .normal none) u)) := by
  have ready := prepared_normal present
  have written : Quiet [.alarms] u (modDyn i (AlarmDyn.enter .normal none) u) := quiet_modDyn ..
  have first : SameDesks u (modDyn i (AlarmDyn.enter .normal none) u) := desks_modDyn ..
  generalize modDyn i (AlarmDyn.enter .normal none) u = m at *
  have last := kept_lifecycleReport i .returned .normal m
  have alarms : (lifecycleReport i .returned .normal m).alarms = m.alarms := last.agrees .alarms (by simp)
  have escalation : (lifecycleReport i .returned .normal m).escalation = m.escalation := last.agrees .escalation (by simp)
  refine ⟨by rw [alarm?_congr alarms]; exact ready.self, fun j hj => by rw [alarm?_congr alarms, ready.others j hj],
    fun e he => by rw [escalation, ready.escalation] at he; exact he, nofun,
    (ready.shuffles.trans (.of_kept last (by simp) (by simp) (by simp))).empties (by simp), ?_, ?_,
    (first.trans (desks_lifecycleReport ..)).desks⟩
  · have kept : Kept [.alarms, .positions, .links, .free] u (lifecycleReport i .returned .normal m) :=
      (written.kept.mono (by simp)).trans (last.mono (by simp))
    exact .of_kept kept (by simp)
  · exact (written.mono (by simp)).trans ((quiet_lifecycleReport ..).mono (by simp))

/-- R18: masking acts on one alarm of the table. -/
theorem maskAlarm_spec (changed : Word) (n : Nat) : let c := changed.getLsbD b.defn.group; let r := maskAlarm changed (u, n) i
    r.2 = n + (if c && b.isOpen then (isListed u i).toNat else 0) ∧ MasksOne i b (if c then b.masked else b) (c && b.isOpen) u r.1 := by
  intro c r
  by_cases on : c = true
  · have on' : changed.getLsbD b.defn.group = true := on
    simp only [r, maskAlarm, alarmAt_eq present, on', if_true, on, Bool.true_and]
    cases lc : b.dyn.lifecycle <;> cases shelved : b.dyn.shelved <;>
      simp only [Alarm.masked, Alarm.isOpen, lc, shelved]
    case raised.false => exact ⟨rfl, masksOne_raised present⟩
    case returned.false => exact ⟨rfl, masksOne_returned present⟩
    case returned.true => exact ⟨rfl, masksOne_shelved present⟩
    all_goals exact ⟨rfl, MasksOne.refl present⟩
  · have off : changed.getLsbD b.defn.group = false := Bool.eq_false_iff.2 on
    have none : c = false := off
    simp only [r, maskAlarm, alarmAt_eq present, off, none, Bool.false_and]
    exact ⟨rfl, MasksOne.refl present⟩

end one

/-- R18: an alarm leaves its places when its group is masked. -/
def departs (changed : Word) (s : State) (i : Nat) : Bool := changed.getLsbD (alarmAt s i).defn.group && (alarmAt s i).isOpen

/-- R18: the record of an alarm whose group is masked, where the group is one that changed. -/
def Alarm.maskedBy (changed : Word) (a : Alarm) : Alarm := if changed.getLsbD a.defn.group then a.masked else a

theorem masked_twice (changed : Word) (a : Alarm) :
    ((a.maskedBy changed).maskedBy changed).unmarked = (a.maskedBy changed).unmarked := by
  unfold Alarm.maskedBy
  by_cases on : changed.getLsbD a.defn.group = true
  · rw [if_pos on]
    cases lc : a.dyn.lifecycle <;> cases shelved : a.dyn.shelved <;>
      simp [Alarm.masked, Alarm.departed, Alarm.entered, AlarmDyn.enter, Alarm.unmarked, lc, shelved]
  · simp [on]

theorem unmarked_maskedBy (changed : Word) (a : Alarm) :
    (a.maskedBy changed).unmarked = (a.unmarked.maskedBy changed).unmarked := by
  unfold Alarm.maskedBy
  change (if changed.getLsbD a.defn.group then a.masked else a).unmarked =
    (if changed.getLsbD a.defn.group then a.unmarked.masked else a.unmarked).unmarked
  split
  · cases lc : a.dyn.lifecycle <;> cases shelved : a.dyn.shelved <;>
      simp [Alarm.masked, Alarm.departed, Alarm.entered, AlarmDyn.enter, Alarm.unmarked, lc, shelved]
  · rfl

/-- R18: what the alarms worked through so far have left of the state. -/
structure MaskedSoFar (changed : Word) (done : List Nat) (s u : State) : Prop where
  records : ∀ j, (alarm? u j).map Alarm.unmarked =
    (alarm? s j).map fun a => (if j ∈ done then a.maskedBy changed else a).unmarked
  fewer : ∀ e ∈ u.escalation, e ∈ s.escalation
  calm : ∀ j ∈ done, departs changed s j = true → (alarmAt s j).dyn.escalated = true → ∀ e ∈ u.escalation, e.alarm ≠ j
  places : Empties (fun j => j ∈ done ∧ departs changed s j = true) s u
  entries : Journaled [] s u
  quiet : Quiet [.alarms, .lists, .escalation, .positions, .links, .free] s u
  desks : DesksKept s u

theorem MaskedSoFar.nil (changed : Word) (s : State) : MaskedSoFar changed [] s s :=
  ⟨fun _ => by simp, fun _ he => he, nofun, (Shuffles.refl s).empties (by simp), ⟨rfl, rfl⟩, .refl .., fun _ => rfl⟩

section next
variable {changed : Word} {done : List Nat} {i n : Nat} {a : Alarm} {s u : State} (h : MaskedSoFar changed done s u)
  (present : alarm? s i = some a)
include h present

theorem MaskedSoFar.record :
    ∃ b, alarm? u i = some b ∧ b.unmarked = (if i ∈ done then a.maskedBy changed else a).unmarked := by
  have same := h.records i
  rw [present] at same
  exact Option.map_eq_some_iff.1 same

/-- R18: one more alarm. -/
theorem MaskedSoFar.next : MaskedSoFar changed (done ++ [i]) s (maskAlarm changed (u, n) i).1 := by
  obtain ⟨b, hb, alike⟩ := h.record present
  obtain ⟨-, one⟩ := maskAlarm_spec hb changed n
  generalize (maskAlarm changed (u, n) i).1 = r at one
  have group : b.defn.group = a.defn.group := by
    rw [(unmarked_fields alike).1]
    unfold Alarm.maskedBy Alarm.masked
    split
    · split
      · split <;> rfl
      · rfl
    · rfl
  have open' : i ∉ done → (changed.getLsbD b.defn.group && b.isOpen) = departs changed s i := fun fresh => by
    rw [if_neg fresh] at alike
    obtain ⟨-, lifecycle, shelved, -⟩ := unmarked_fields alike
    rw [departs, alarmAt_eq present, group, Alarm.isOpen, Alarm.isOpen, lifecycle, shelved]
  have escalated : i ∉ done → b.dyn.escalated = a.dyn.escalated := fun fresh => by
    rw [if_neg fresh] at alike
    have same := congrArg (fun x : Alarm => x.dyn.escalated) alike
    exact same
  have later : ∀ e ∈ r.escalation, e ∈ u.escalation := one.fewer
  have reopened : i ∈ done → changed.getLsbD b.defn.group = true → b.isOpen = true → departs changed s i = true := fun again on opened => by
    rw [if_pos again] at alike
    obtain ⟨-, lifecycle, shelved, -⟩ := unmarked_fields alike
    rw [group] at on
    rw [Alarm.isOpen, lifecycle, shelved, Alarm.maskedBy, if_pos on] at opened
    rw [departs, alarmAt_eq present, on, Bool.true_and, Alarm.isOpen]
    revert opened
    cases lc : a.dyn.lifecycle <;> cases sh : a.dyn.shelved <;>
      simp [Alarm.masked, Alarm.departed, Alarm.entered, AlarmDyn.enter, lc, sh]
  refine ⟨fun j => ?_, fun e he => h.fewer e (later e he), fun j hj goes on e he => ?_, ?_,
    h.entries.before one.entries (h.quiet.kept.agrees .clock (by simp)).1, h.quiet.trans one.quiet,
    fun q => (one.desks q).trans (h.desks q)⟩
  · by_cases hj : j = i
    · subst hj
      rw [one.record, present, Option.map_some, Option.map_some]
      refine congrArg some ?_
      rw [if_pos (show j ∈ done ++ [j] by simp)]
      have step : (if changed.getLsbD b.defn.group then b.masked else b).unmarked = (b.maskedBy changed).unmarked := rfl
      rw [step, unmarked_maskedBy, alike, ← unmarked_maskedBy]
      split
      · rw [masked_twice]
      · rfl
    · rw [one.others j hj, h.records j]
      simp [hj]
  · by_cases first : j ∈ done
    · exact h.calm j first goes on e (later e he)
    · have hj' : j = i := by simpa [first] using hj
      subst hj'
      refine one.calm (by rw [open' first]; exact goes) ?_ e he
      rw [escalated first]
      rw [alarmAt_eq present] at on
      exact on
  · refine (h.places.trans one.places).congr fun j => ?_
    rw [List.mem_append, List.mem_singleton]
    refine ⟨fun ⟨mem, goes⟩ => ?_, fun either => ?_⟩
    · by_cases first : j ∈ done
      · exact .inl ⟨first, goes⟩
      · have hj : j = i := mem.resolve_left first
        subst hj
        exact .inr ⟨rfl, by rw [open' first]; exact goes⟩
    · rcases either with ⟨mem, goes⟩ | ⟨rfl, goes⟩
      · exact ⟨.inl mem, goes⟩
      · refine ⟨.inr rfl, ?_⟩
        by_cases first : j ∈ done
        · rw [Bool.and_eq_true] at goes
          exact reopened first goes.1 goes.2
        · rw [← open' first]; exact goes

/-- R17: the alarm counts where it is listed and leaves. -/
theorem MaskedSoFar.count (wf : s.alarms.wf = true) (fresh : i ∉ done) : (maskAlarm changed (u, n) i).2 =
    n + (departs changed s i && isListed s i).toNat := by
  obtain ⟨b, hb, alike⟩ := h.record present
  rw [if_neg fresh] at alike
  obtain ⟨defn, lifecycle, shelved, -⟩ := unmarked_fields alike
  obtain ⟨count, -⟩ := maskAlarm_spec hb changed n
  have listed : isListed u i = isListed s i := h.places.listed wf i fun goes => fresh goes.1
  have open' : (changed.getLsbD b.defn.group && b.isOpen) = departs changed s i := by
    rw [departs, alarmAt_eq present, defn, Alarm.isOpen, Alarm.isOpen, lifecycle, shelved]
  rw [count, open', listed]
  cases departs changed s i <;> simp

end next

/-- R18, R20: masking works through alarms of the table. -/
theorem masked_fold (changed : Word) (s : State) (is : List Nat) (defined : ∀ i ∈ is, (alarm? s i).isSome = true) :
    let r := is.foldl (maskAlarm changed) (s, 0)
    MaskedSoFar changed is s r.1 ∧ (s.alarms.wf = true → is.Nodup → r.2 = is.countP fun i => departs changed s i && isListed s i) := by
  induction is using List.reverseRecOn with
  | nil => exact ⟨.nil changed s, fun _ _ => rfl⟩
  | append_singleton is i ih =>
    obtain ⟨soFar, count⟩ := ih fun j hj => defined j (List.mem_append_left _ hj)
    obtain ⟨a, present⟩ := Option.isSome_iff_exists.1 (defined i (by simp))
    simp only [List.foldl_append, List.foldl_cons, List.foldl_nil]
    generalize is.foldl (maskAlarm changed) (s, 0) = r at soFar count
    obtain ⟨u, n⟩ := r
    refine ⟨soFar.next present, fun wf once => ?_⟩
    obtain ⟨before, fresh⟩ := List.nodup_append_comm.1 once |> List.nodup_cons.1 |>.symm
    rw [soFar.count present wf fresh, List.countP_append, ← count wf before, List.countP_singleton]
    cases departs changed s i && isListed s i <;> rfl

/-- R17: the mask is written, with the entry of a request that changed a group. -/
theorem suppressionEntry_spec (action : Nat) (changed w : Word) (s : State) :
    let m := suppressionEntry action changed { s with mask := w }
    Quiet [.mask, .journal] s m ∧ m.mask = w ∧ Journaled (if changed = 0 then [] else
      [⟨.suppressionChanged, none, none, none, action * 256 + groupCount changed⟩]) s m := by
  intro m
  have written : Quiet [.mask] s { s with mask := w } := quiet_mask s w
  by_cases none : changed = 0
  · have work : m = { s with mask := w } := if_pos none
    rw [work, if_pos none]
    exact ⟨written.mono (by simp), rfl, rfl, rfl⟩
  · have work : m = append .suppressionChanged Option.none Option.none Option.none (action * 256 + groupCount changed)
        { s with mask := w } := if_neg none
    rw [work, if_neg none]
    exact ⟨(written.mono (by simp)).trans ((quiet_append ..).mono (by simp)), rfl, rfl, rfl⟩

theorem maskAlarm_zero (r : State × Nat) (i : Nat) : maskAlarm 0 r i = r := by
  simp [maskAlarm]

theorem foldl_maskAlarm_zero (is : List Nat) (r : State × Nat) : is.foldl (maskAlarm 0) r = r := by
  induction is with
  | nil => rfl
  | cons i is ih => rw [List.foldl_cons, maskAlarm_zero, ih]

/-- A table has a record of exactly the numbers that are its keys. -/
theorem isSome_get?_iff {α : Type} {t : Table α} {i : Nat} : (t.get? i).isSome = true ↔ i ∈ t.map Prod.fst := by
  induction t with
  | nil => simp [Table.get?]
  | cons e t ih =>
    obtain ⟨j, x⟩ := e
    by_cases h : j = i
    · simp [Table.get?, h]
    · simp [Table.get?, h, ih, Ne.symm h]

theorem masked_settled (changed : Word) (a : Alarm) : (a.maskedBy changed).settled = (a.defn, a.dyn.input,
    (if a.dyn.lifecycle = .returned ∧ changed.getLsbD a.defn.group = true then .normal else a.dyn.lifecycle),
    (if a.dyn.lifecycle = .returned ∧ changed.getLsbD a.defn.group = true then none else a.dyn.acknowledger), a.dyn.shelved) := by
  unfold Alarm.maskedBy
  by_cases on : changed.getLsbD a.defn.group = true
  · rw [if_pos on]
    cases lc : a.dyn.lifecycle <;> cases shelved : a.dyn.shelved <;>
      simp [Alarm.masked, Alarm.departed, Alarm.entered, AlarmDyn.enter, Alarm.settled, lc, shelved, on]
  · simp [on, Alarm.settled]

/-- R18: an alarm that leaves its places has no annunciation time and is not escalated. -/
theorem masked_open {changed : Word} {a : Alarm} (on : changed.getLsbD a.defn.group = true) (open' : a.isOpen = true) :
    (a.maskedBy changed).dyn.annTime = none ∧ (a.maskedBy changed).dyn.escalated = false := by
  rw [Alarm.maskedBy, if_pos on]
  simp only [Alarm.isOpen, Bool.and_eq_true, Bool.or_eq_true, beq_iff_eq, Bool.not_eq_true'] at open'
  obtain ⟨lc | lc, shelved⟩ := open' <;> simp only [Alarm.masked, lc, shelved] <;> exact ⟨rfl, rfl⟩

/-- Settles O37. -/
theorem maskingSuppressesTheGroups : Obligations.MaskingSuppressesTheGroups := by
  intro h groups s hp nonempty low
  generalize hc : groups &&& ~~~s.mask = changed
  obtain ⟨quietly, mask, entry⟩ := suppressionEntry_spec 1 changed (s.mask ||| groups) (takeFrame h.link s)
  generalize hm : suppressionEntry 1 changed { takeFrame h.link s with mask := s.mask ||| groups } = m at quietly mask entry
  have frame := quietly.kept
  have alarms : m.alarms = s.alarms := frame.agrees .alarms (by simp)
  have lists : m.lists = s.lists := frame.agrees .lists (by simp)
  have areas : m.areas = s.areas := frame.agrees .areas (by simp)
  have escalation : m.escalation = s.escalation := frame.agrees .escalation (by simp)
  have positions : m.positions = s.positions := frame.agrees .positions (by simp)
  have time : m.millTime = s.millTime := (frame.agrees .clock (by simp)).1
  have record (i : Nat) : alarmAt m i = alarmAt s i := by rw [alarmAt, alarmAt, alarm?_congr alarms]
  have goes (i : Nat) : departs changed m i = departs changed s i := by rw [departs, departs, record]
  have listed (i : Nat) : isListed m i = isListed s i := isListed_congr alarms lists areas
  have one (i : Nat) (here : OnePlace s i) : OnePlace m i := by
    simp only [OnePlace, onAnn, onDeferred, ownerOf, areaOwner, record, lists, areas]; exact here
  obtain ⟨soFar, count⟩ := masked_fold changed m (definedIndices m) fun i hi => isSome_get?_iff.2 hi
  generalize hr : (definedIndices m).foldl (maskAlarm changed) (m, 0) = r at soFar count
  obtain ⟨u, n⟩ := r
  have mask' : u.mask = s.mask ||| groups := Eq.trans (soFar.quiet.kept.agrees .mask (by simp)) mask
  have checked : firstRefusal [⟨(1 : Nat) == 1, .malformed, 1⟩, groupSetCheck groups] = none := by
    have some' : (groups != 0) = true := bne_iff_ne.2 nonempty
    simp only [groupSetCheck, some', low]
    rfl
  have quiet : Quiet [.mask, .alarms, .lists, .escalation, .positions, .journal, .links, .free] (takeFrame h.link s) u :=
    (quietly.mono (by simp)).trans (soFar.quiet.mono (by simp))
  have work : (let changed := groups &&& ~~~(takeFrame h.link s).mask
      let s' := suppressionEntry 1 changed { takeFrame h.link s with mask := (takeFrame h.link s).mask ||| groups }
      let r := (definedIndices s').foldl (maskAlarm changed) (s', 0)
      ((r.1, doneWith (beWord r.1.mask ++ be16 r.2 ++ be16 0)) : State × Answer)) =
        (u, doneWith (beWord u.mask ++ be16 n ++ be16 0)) := by
    have changed' : groups &&& ~~~(takeFrame h.link s).mask = changed := hc
    have m' : suppressionEntry 1 changed { takeFrame h.link s with mask := (takeFrame h.link s).mask ||| groups } = m := hm
    simp only [changed', m', hr]
  obtain ⟨t, next, done⟩ := request_done (out := exec (.groupMaskMask h 1 groups) s) (P := Served .groupMask h _ s _) (g := false) rfl hp
    ((judged_of_none checked _).trans work) quiet fun _ d => d
  have alarms' : t.alarms = u.alarms := done.agrees .alarms nofun
  have lists' : t.lists = u.lists := done.agrees .lists nofun
  have areas' : t.areas = u.areas := done.agrees .areas nofun
  have escalation' : t.escalation = u.escalation := done.agrees .escalation nofun
  have tmask : t.mask = u.mask := done.agrees .mask nofun
  have journal := entry.before soFar.entries time
  refine ⟨t, n, next, tmask.trans mask', by rw [tmask]; exact done.replied, fun i a present => ?_, fun wf => ?_, fun none => ?_,
    fun some' => ?_, done.desks (DesksKept.congr soFar.desks positions rfl), done.lines, done.kept quiet.kept (by simp)⟩
  · have present' : alarm? m i = some a := by rw [alarm?_congr alarms, present]
    have mem : i ∈ definedIndices m := isSome_get?_iff.1 (by rw [show m.alarms.get? i = some a from present']; rfl)
    obtain ⟨b, hb, alike⟩ := soFar.record present'
    rw [if_pos mem] at alike
    have settled := congrArg Alarm.settled alike
    refine ⟨b, by rw [alarm?_congr alarms', hb], Eq.trans settled (masked_settled changed a), fun on open' => ?_⟩
    have leaves : departs changed m i = true := by rw [departs, alarmAt_eq present', on, open']; rfl
    obtain ⟨time', calm⟩ := masked_open on open'
    have fields := congrArg (fun x : Alarm => (x.dyn.annTime, x.dyn.escalated)) alike
    obtain ⟨annTime, escalated⟩ := Prod.mk.inj fields
    refine ⟨Eq.trans annTime time', Eq.trans escalated calm, fun was e he => ?_, fun wf here => ?_⟩
    · rw [escalation'] at he
      exact soFar.calm i mem leaves (by rw [alarmAt_eq present']; exact was) e he
    · exact (isListed_congr alarms' lists' areas').trans (soFar.places.gone (by rw [alarms]; exact wf) i ⟨mem, leaves⟩ (one i here))
  · have once : (definedIndices m).Nodup := by
      rw [definedIndices, alarms]
      exact (((Table.wf_iff _).1 wf).imp fun h => Nat.ne_of_lt h)
    rw [show n = _ from count (by rw [alarms]; exact wf) once, definedIndices, alarms, List.countP_map]
    refine List.countP_congr fun e he => ?_
    have present : alarm? s e.1 = some e.2 := Table.get?_of_mem wf he
    rw [Function.comp, goes, listed, departs, alarmAt_eq present]
  · rw [if_pos none] at journal
    have still : (u, n) = (m, 0) := by rw [← hr, none, foldl_maskAlarm_zero]
    have same : u = m := congrArg Prod.fst still
    exact ⟨done.journaled journal, by rw [lists', same, lists], by rw [alarms', same, alarms]⟩
  · rw [if_neg some'] at journal
    exact done.journaled journal

end Sys2Proof.Machine
end

section
/-! PROOFS. GROUP_MASK with action UNMASK: what the obligation claims fails where lists and owners disagree. -/

namespace Sys2Proof.Machine

/-- A RAISED alarm of group 3 in an area. -/
def maskedAlarm (area priority : Nat) : Alarm :=
  { defn := { area := area, priority := priority, cls := .process, ackLevel := 3, group := 3, shelvable := false, maxShelve := 60,
              reminder := 30, escalation := 0, inService := true },
    dyn := { input := .active, lifecycle := .raised, acknowledger := none, shelved := false, escalated := false, overflow := false,
             annTime := none, reminders := 0 } }

/-- A state in which alarm 1 stands on a list that its owner does not keep. P1 owns alarm 1; it is in flood mode, and its deferred
list is full, so that alarm 1, of priority 4, can be placed in overflow alone. P2 owns alarm 2, and its annunciation list is full with
alarm 1 as its lowest entry. -/
def misplaced : State :=
  { State.reset with
    runState := .running
    alarms := [(1, maskedAlarm 0 4), (2, maskedAlarm 1 1)]
    mask := 8
    areas := [.p1, .p2]
    loads := { PerPos.all PosLoad.cold with p1 := { PosLoad.cold with load := 24000, flood := true } }
    lists := { PerPos.all PosLists.cold with
      p1 := { PosLists.cold with deferred := List.replicate 256 ⟨0, 0⟩ }
      p2 := { PosLists.cold with ann := List.replicate 127 ⟨0, 0, false, none⟩ ++ [⟨1, 0, false, none⟩] } } }

/-- What the model gives for alarm 1 when group 3 is unmasked: alarm 2 takes the place of alarm 1 on P2's list, alarm 1 goes to P2's
deferred list, and so it loses the overflow flag by which it stood at its owner. -/
theorem unmasked_unlisted : (match exec (.groupMaskUnmask ⟨.plant, 0, 6, 0⟩ 8) misplaced with
    | .next t => isListed t 1
    | _ => true) = false := by decide +kernel

/-- Refutes O38: an alarm that is placed in overflow at its owner loses its place when it stands, unsoundly, on the full annunciation
list of another position, and an alarm placed there displaces it. -/
theorem not_unmaskingPlacesTheAlarms : ¬ Obligations.UnmaskingPlacesTheAlarms := by
  intro claim
  obtain ⟨t, n, next, -, -, records, -⟩ := claim ⟨.plant, 0, 6, 0⟩ 8 misplaced ⟨by decide, rfl, rfl⟩ (by decide) rfl
  obtain ⟨b, -, -, placed⟩ := records 1 (maskedAlarm 0 4) rfl
  obtain ⟨-, listed⟩ := placed (by decide) (.inl rfl) rfl
  have unlisted := unmasked_unlisted
  rw [next] at unlisted
  exact absurd (listed.symm.trans unlisted) nofun

end Sys2Proof.Machine
end

section
/-! PROOFS. The expiry of a reminder (R39, R41). -/

namespace Sys2Proof.Machine

/-! ### The escalation list -/

/-- R41: an ESCALATE notice goes to P0's console. -/
theorem told_escalateNotice (i : Nat) (left : Option Reason) (s : State) :
    Told (atDesk .p0 [.escalate i (priorityOf s i) (alarmAt s i).defn.area (ownerOf s i) left]) s (escalateNotice i left s) :=
  told_notify_desk .p0 _ s

theorem area_of_atPos {p : Pos} {s t : State} (place : AtPos p s t) (i : Nat) : (alarmAt t i).defn.area = (alarmAt s i).defn.area :=
  congrArg (fun x => x.1.area) (place.alarmAt i)

/-- R41: what an entry on the escalation list leaves and tells. -/
theorem enterEscalation_spec {i : Nat} {c : Alarm} {s : State} (present : alarm? s i = some c) : let t := enterEscalation i s
    alarm? t i = some { c with dyn := { c.dyn with escalated := true } } ∧ (∀ j, j ≠ i → alarm? t j = alarm? s j) ∧
      t.escalation = insertBy (entryBefore s) ⟨i, c.dyn.annTime.getD 0⟩ s.escalation ∧
      Journaled [⟨.escalated, some (ownerOf s i), none, some i, c.dyn.reminders⟩] s t ∧
      Told (atDesk .p0 [.escalate i c.defn.priority c.defn.area (ownerOf s i) none]) s t := by
  generalize hu : modDyn i (fun d => { d with escalated := true })
    { s with escalation := insertBy (entryBefore s) ⟨i, c.dyn.annTime.getD 0⟩ s.escalation } = u
  have written : AtPos .p0 s u ∧ alarm? u i = some { c with dyn := { c.dyn with escalated := true } } ∧
      (∀ j, j ≠ i → alarm? u j = alarm? s j) ∧
      u.escalation = insertBy (entryBefore s) ⟨i, c.dyn.annTime.getD 0⟩ s.escalation ∧ u.links = s.links ∧
      u.millTime = s.millTime ∧ u.journal = s.journal ∧ u.nextSeq = s.nextSeq := by
    rw [← hu]
    have record : alarm? { s with escalation := insertBy (entryBefore s) ⟨i, c.dyn.annTime.getD 0⟩ s.escalation } i = some c := present
    exact ⟨(atPos_escalation .p0 s _).trans (atPos_modDyn .p0 _ i _), alarm?_modDyn_self record _,
      fun j hj => alarm?_modDyn_ne hj _ _, rfl, rfl, rfl, rfl, rfl⟩
  obtain ⟨place, record, others, list, links, time, journal, next⟩ := written
  have work : enterEscalation i s =
      escalateNotice i none (append .escalated (some (ownerOf u i)) none (some i) c.dyn.reminders u) := by
    rw [enterEscalation, alarmAt_eq present, hu]
  have told := told_escalateNotice i none (append .escalated (some (ownerOf u i)) none (some i) c.dyn.reminders u)
  have fields : priorityOf (append .escalated (some (ownerOf u i)) none (some i) c.dyn.reminders u) i = c.defn.priority ∧
      (alarmAt (append .escalated (some (ownerOf u i)) none (some i) c.dyn.reminders u) i).defn.area = c.defn.area ∧
      ownerOf (append .escalated (some (ownerOf u i)) none (some i) c.dyn.reminders u) i = ownerOf u i :=
    ⟨congrArg (·.defn.priority) (alarmAt_eq record), congrArg (·.defn.area) (alarmAt_eq record), rfl⟩
  rw [fields.1, fields.2.1, fields.2.2, place.ownerOf] at told
  intro t
  change t = _ at work
  clear_value t
  subst work
  rw [place.ownerOf]
  exact ⟨record, others, list, (Journaled.after ⟨journal, next⟩ (journaled_append ..) time).before ⟨rfl, rfl⟩ time,
    Told.from_links told links⟩

/-- R42: what it leaves and tells when an alarm is displaced from the escalation list. -/
theorem displacedEscalation_spec (z : Nat) (s : State) :
    let t := leaveEscalation z .displaced (modDyn z (fun d => { d with reminders := 0 }) s)
    (∀ x, alarm? s z = some x → alarm? t z = some { x with dyn := { x.dyn with reminders := 0, escalated := false } }) ∧
      (∀ j, j ≠ z → alarm? t j = alarm? s j) ∧ t.escalation = s.escalation.filter (fun e => e.alarm != z) ∧
      AtPos .p0 s t ∧ Journaled [] s t ∧
      Told (atDesk .p0 [.escalate z (priorityOf s z) (alarmAt s z).defn.area (ownerOf s z) (some .displaced)]) s t := by
  generalize hu : modDyn z (fun d => { d with reminders := 0 }) s = u
  have written : AtPos .p0 s u ∧ (∀ x, alarm? s z = some x → alarm? u z = some { x with dyn := { x.dyn with reminders := 0 } }) ∧
      (∀ j, j ≠ z → alarm? u j = alarm? s j) ∧ u.escalation = s.escalation ∧ u.links = s.links ∧ u.journal = s.journal ∧
      u.nextSeq = s.nextSeq := by
    rw [← hu]
    exact ⟨atPos_modDyn .p0 s z _, fun x hx => alarm?_modDyn_self hx _, fun j hj => alarm?_modDyn_ne hj _ _, rfl, rfl, rfl, rfl⟩
  obtain ⟨place, record, others, list, links, journal, next⟩ := written
  generalize hv : modDyn z (fun d => { d with escalated := false }) { u with
    escalation := u.escalation.filter fun e => e.alarm != z } = v
  have left : AtPos .p0 u v ∧ (∀ x, alarm? u z = some x → alarm? v z = some { x with dyn := { x.dyn with escalated := false } }) ∧
      (∀ j, j ≠ z → alarm? v j = alarm? u j) ∧ v.escalation = u.escalation.filter (fun e => e.alarm != z) ∧ v.links = u.links ∧
      v.journal = u.journal ∧ v.nextSeq = u.nextSeq := by
    rw [← hv]
    refine ⟨(atPos_escalation .p0 u _).trans (atPos_modDyn .p0 _ z _), fun x hx => ?_, fun j hj => alarm?_modDyn_ne hj _ _, rfl, rfl, rfl, rfl⟩
    have record : alarm? { u with escalation := u.escalation.filter fun e => e.alarm != z } z = some x := hx
    exact alarm?_modDyn_self record _
  obtain ⟨place', record', others', list', links', journal', next'⟩ := left
  have both := place.trans place'
  have work : leaveEscalation z .displaced u = escalateNotice z (some .displaced) v := by rw [leaveEscalation, hv]
  have told := told_escalateNotice z (some .displaced) v
  rw [both.priorityOf, both.ownerOf, area_of_atPos both] at told
  intro t
  change t = _ at work
  clear_value t
  subst work
  exact ⟨fun x hx => record' _ (record x hx), fun j hj => (others' j hj).trans (others j hj), list'.trans (by rw [list]),
    both.trans (atPos_escalateNotice ..), ⟨journal'.trans journal, next'.trans next⟩, Told.from_links told (links'.trans links)⟩

/-! ### The count and the escalation -/

/-- R39, R41: a reminder has been counted and the alarm judged for escalation: `b` is its record, `ns` what P0's console is told, and
`ls` the entries. -/
structure Counted (i : Nat) (a b : Alarm) (ns : List Notice) (ls : List Line) (s m : State) : Prop where
  record : alarm? m i = some b
  settled : b.settled = a.settled
  place : AtPos (ownerOf s i) s m
  quiet : Quiet [.escalation, .alarms, .journal, .links] s m
  entries : Journaled ls s m
  told : Told (fun l => atDesk (ownerOf s i) [.remind i (min 15 (a.dyn.reminders + 1))] l ++ atDesk .p0 ns l) s m

/-- R39: the record of an alarm whose reminder has been counted. -/
def Alarm.counted (a : Alarm) : Alarm := { a with dyn := { a.dyn with reminders := min 15 (a.dyn.reminders + 1) } }

/-- R39: the count has risen, and REMIND has gone out. -/
abbrev counted (i : Nat) (s : State) : State :=
  let m := modDyn i (fun d => { d with reminders := min 15 (d.reminders + 1) }) s
  notify (.console (ownerOf s i)) (.remind i (alarmAt m i).dyn.reminders) m

/-- R39: the work that comes before the weight. -/
abbrev judgedReminder (i : Nat) (s : State) : State := if escalationDue (counted i s) i then escalate i (counted i s) else counted i s

/-- R41: an alarm that enters the escalation list after other work on it. -/
theorem Counted.enters {i : Nat} {a b : Alarm} {s : State} {ns : List Notice} {m : State} (h : Counted i a b ns [] s m) :
    Counted i a { b with dyn := { b.dyn with escalated := true } } (ns ++ [.escalate i a.defn.priority a.defn.area (ownerOf s i) none])
      [⟨.escalated, some (ownerOf s i), none, some i, b.dyn.reminders⟩] s (enterEscalation i m) ∧
    (enterEscalation i m).escalation = insertBy (entryBefore m) ⟨i, b.dyn.annTime.getD 0⟩ m.escalation ∧
    ∀ j, j ≠ i → alarm? (enterEscalation i m) j = alarm? m j := by
  obtain ⟨record, others, list, entry, told⟩ := enterEscalation_spec h.record
  have defn : b.defn = a.defn := congrArg (·.1) h.settled
  rw [h.place.ownerOf] at entry told
  rw [defn] at told
  refine ⟨⟨record, h.settled, h.place.trans (atPos_enterEscalation ..), h.quiet.trans ((quiet_enterEscalation ..).mono (by simp)),
    h.entries.trans entry (h.quiet.kept.agrees .clock (by simp)).1, (h.told.trans told).congr fun l => ?_⟩, list, others⟩
  rw [atDesk_append, List.append_assoc]

section count
variable {i : Nat} {a : Alarm} {s : State} (present : alarm? s i = some a)
include present

theorem counted_spec : Counted i a a.counted [] [] s (counted i s) ∧ (counted i s).escalation = s.escalation ∧
    ∀ j, j ≠ i → alarm? (counted i s) j = alarm? s j := by
  generalize hm : modDyn i (fun d => { d with reminders := min 15 (d.reminders + 1) }) s = m
  have written := recorded_modDyn present fun d => { d with reminders := min 15 (d.reminders + 1) }
  have place : AtPos (ownerOf s i) s m := hm ▸ atPos_modDyn (ownerOf s i) s i _
  have quiet : Quiet [.alarms] s m := hm ▸ quiet_modDyn ..
  rw [hm] at written
  have work : counted i s = notify (.console (ownerOf s i)) (.remind i (min 15 (a.dyn.reminders + 1))) m := by
    simp only [counted, hm, alarmAt_eq written.self]
  have told := told_notify_desk (ownerOf s i) (.remind i (min 15 (a.dyn.reminders + 1))) m
  rw [work]
  refine ⟨⟨written.self, rfl, place.trans (atPos_notify ..), (quiet.mono (by simp)).trans ((quiet_notify ..).mono (by simp)),
    written.entries.before ⟨rfl, rfl⟩ written.time, (Told.from_links told written.links).congr fun l => ?_⟩, written.escalation, written.others⟩
  rw [show atDesk .p0 [] l = [] by simp [atDesk], List.append_nil]

/-- R41: whether the alarm escalates. -/
theorem escalationDue_counted : escalationDue (counted i s) i = (a.defn.escalation != 0 &&
    decide (a.defn.escalation ≤ min 15 (a.dyn.reminders + 1)) && !a.dyn.escalated) := by
  rw [escalationDue, alarmAt_eq (counted_spec present).1.record]
  rfl

theorem counted_rank (t : Word) : rankOf (counted i s) i t = rankOf s i t := by
  rw [rankOf, rankOf, (counted_spec present).1.place.priorityOf]

/-- R39: an alarm that is not due to escalate. -/
theorem judgedReminder_calm (calm : a.defn.escalation = 0 ∨ min 15 (a.dyn.reminders + 1) < a.defn.escalation ∨ a.dyn.escalated = true) :
    judgedReminder i s = counted i s := by
  refine if_neg ?_
  rw [escalationDue_counted present]
  rcases calm with none | few | on
  · simp [none]
  · simp [Nat.not_le.2 few]
  · simp [on]

section due
variable (some' : a.defn.escalation ≠ 0) (many : a.defn.escalation ≤ min 15 (a.dyn.reminders + 1)) (off : a.dyn.escalated = false)
include some' many off

theorem judgedReminder_due : judgedReminder i s = escalate i (counted i s) := by
  refine if_pos ?_
  rw [escalationDue_counted present, bne_iff_ne.2 some', decide_eq_true many, off]
  rfl

/-- R41: an alarm that escalates into room. -/
theorem judgedReminder_room (room : s.escalation.length < 64) : Counted i a { a.counted with dyn := { a.counted.dyn with escalated := true } }
      [.escalate i a.defn.priority a.defn.area (ownerOf s i) none]
      [⟨.escalated, some (ownerOf s i), none, some i, min 15 (a.dyn.reminders + 1)⟩] s (judgedReminder i s) ∧
    (judgedReminder i s).escalation = insertBy (entryBefore (counted i s)) ⟨i, a.dyn.annTime.getD 0⟩ s.escalation ∧
    ∀ j, j ≠ i → alarm? (judgedReminder i s) j = alarm? s j := by
  obtain ⟨first, same, others⟩ := counted_spec present
  have work : judgedReminder i s = enterEscalation i (counted i s) := by
    rw [judgedReminder_due present some' many off]
    exact if_pos (by rw [same]; exact room)
  obtain ⟨spec, list, others'⟩ := first.enters
  rw [work]
  exact ⟨spec, by rw [list, same]; rfl, fun j hj => (others' j hj).trans (others j hj)⟩

variable {low : ListEntry} (full : 64 ≤ s.escalation.length) (last : s.escalation.getLast? = some low)
include full last

/-- R41: an alarm that the lowest entry outranks. -/
theorem judgedReminder_yields (lower : outranks (rankOf s i (a.dyn.annTime.getD 0)) (rankOf s low.alarm low.time) = false) :
    Counted i a { a.counted with dyn := { a.counted.dyn with reminders := 0 } } [] [] s (judgedReminder i s) ∧
    (judgedReminder i s).escalation = s.escalation := by
  obtain ⟨first, same, -⟩ := counted_spec present
  have rank : outranks (rankOf (counted i s) i ((alarmAt (counted i s) i).dyn.annTime.getD 0))
      (rankOf (counted i s) low.alarm low.time) = false := by
    rw [alarmAt_eq first.record, counted_rank present, show rankOf (counted i s) low.alarm low.time = rankOf s low.alarm low.time by
      rw [rankOf, rankOf, first.place.priorityOf]]
    exact lower
  have work : judgedReminder i s = modDyn i (fun d => { d with reminders := 0 }) (counted i s) := by
    rw [judgedReminder_due present some' many off, escalate, if_neg (by rw [same]; exact Nat.not_lt.2 full)]
    simp only [same, last, rank, Bool.false_eq_true, if_false]
  generalize hm : modDyn i (fun d => { d with reminders := 0 }) (counted i s) = m at work
  have written := recorded_modDyn first.record fun d => { d with reminders := 0 }
  have place : AtPos (ownerOf s i) (counted i s) m := hm ▸ atPos_modDyn (ownerOf s i) _ i _
  have quiet : Quiet [.alarms] (counted i s) m := hm ▸ quiet_modDyn ..
  rw [hm] at written
  rw [work]
  refine ⟨⟨written.self, rfl, first.place.trans place, first.quiet.trans (quiet.mono (by simp)),
    first.entries.before written.entries (first.quiet.kept.agrees .clock (by simp)).1, ?_⟩, written.escalation.trans same⟩
  exact (first.told.trans (Told.of_links written.links)).congr fun l => by rw [List.append_nil]

/-- R41: the lowest entry has left the list for an alarm that outranks it. -/
theorem judgedReminder_displaces (higher : outranks (rankOf s i (a.dyn.annTime.getD 0)) (rankOf s low.alarm low.time) = true) :
    ∃ m b, Counted i a b [.escalate low.alarm (priorityOf s low.alarm) (alarmAt s low.alarm).defn.area (ownerOf s low.alarm)
      (some .displaced)] [] s m ∧
    judgedReminder i s = enterEscalation i m ∧ m.escalation = s.escalation.filter (fun e => e.alarm != low.alarm) ∧
    (low.alarm ≠ i → b = a.counted ∧ ∀ x, alarm? s low.alarm = some x →
      alarm? m low.alarm = some { x with dyn := { x.dyn with reminders := 0, escalated := false } }) := by
  obtain ⟨first, same, others⟩ := counted_spec present
  have rank : outranks (rankOf (counted i s) i ((alarmAt (counted i s) i).dyn.annTime.getD 0))
      (rankOf (counted i s) low.alarm low.time) = true := by
    rw [alarmAt_eq first.record, counted_rank present, show rankOf (counted i s) low.alarm low.time = rankOf s low.alarm low.time by
      rw [rankOf, rankOf, first.place.priorityOf]]
    exact higher
  obtain ⟨record, others', list, place, entries, told⟩ := displacedEscalation_spec low.alarm (counted i s)
  have quiet : Quiet [.escalation, .alarms, .journal, .links] (counted i s)
      (leaveEscalation low.alarm .displaced (modDyn low.alarm (fun d => { d with reminders := 0 }) (counted i s))) :=
    ((quiet_modDyn ..).mono (by simp)).trans ((quiet_leaveEscalation ..).mono (by simp))
  have gone : AtPos (ownerOf s i) (counted i s)
      (leaveEscalation low.alarm .displaced (modDyn low.alarm (fun d => { d with reminders := 0 }) (counted i s))) :=
    (atPos_modDyn ..).trans (atPos_leaveEscalation ..)
  have work : judgedReminder i s = enterEscalation i
      (leaveEscalation low.alarm .displaced (modDyn low.alarm (fun d => { d with reminders := 0 }) (counted i s))) := by
    rw [judgedReminder_due present some' many off, escalate, if_neg (by rw [same]; exact Nat.not_lt.2 full)]
    simp only [same, last, rank, if_true]
  generalize leaveEscalation low.alarm .displaced (modDyn low.alarm (fun d => { d with reminders := 0 }) (counted i s)) = m at *
  rw [first.place.priorityOf, first.place.ownerOf, area_of_atPos first.place] at told
  have settled := (first.place.trans gone).settled i
  rw [present] at settled
  obtain ⟨b, hb, alike⟩ := Option.map_eq_some_iff.1 settled
  refine ⟨m, b, ⟨hb, alike, first.place.trans gone, first.quiet.trans quiet,
    first.entries.before entries (first.quiet.kept.agrees .clock (by simp)).1, (first.told.trans told).congr fun l => ?_⟩, work,
    by rw [list, same], fun other => ⟨?_, fun x hx => record x ((others _ other).trans hx)⟩⟩
  · rw [show atDesk .p0 [] l = [] by simp [atDesk], List.append_nil]
  · rw [others' i other.symm, first.record] at hb
    exact (Option.some.inj hb).symm

end due

/-- R39, R41: whatever becomes of the escalation, the alarm is counted. -/
theorem judgedReminder_counted : ∃ b ns ls, Counted i a b ns ls s (judgedReminder i s) := by
  by_cases calm : a.defn.escalation = 0 ∨ min 15 (a.dyn.reminders + 1) < a.defn.escalation ∨ a.dyn.escalated = true
  · rw [judgedReminder_calm present calm]
    exact ⟨_, _, _, (counted_spec present).1⟩
  obtain ⟨some', few, on⟩ : a.defn.escalation ≠ 0 ∧ ¬min 15 (a.dyn.reminders + 1) < a.defn.escalation ∧ ¬a.dyn.escalated = true := by
    simpa only [not_or] using calm
  have many := Nat.not_lt.1 few
  have off := Bool.eq_false_iff.2 on
  by_cases room : s.escalation.length < 64
  · exact ⟨_, _, _, (judgedReminder_room present some' many off room).1⟩
  cases last : s.escalation.getLast? with
  | none => rw [List.getLast?_eq_none_iff.1 last] at room; simp at room
  | some low =>
    cases rank : outranks (rankOf s i (a.dyn.annTime.getD 0)) (rankOf s low.alarm low.time) with
    | false => exact ⟨_, _, _, (judgedReminder_yields present some' many off (Nat.not_lt.1 room) last rank).1⟩
    | true =>
      obtain ⟨m, b, spec, work, -⟩ := judgedReminder_displaces present some' many off (Nat.not_lt.1 room) last rank
      rw [work]
      exact ⟨_, _, _, spec.enters.1⟩

end count

/-! ### The weight -/

theorem expireReminder_eq (i : Nat) (s : State) : expireReminder i s = addLoad (ownerOf s i)
    (reminderWeight (priorityOf (judgedReminder i s) i))
    (setReminder (ownerOf s i) i (some (alarmAt (judgedReminder i s) i).defn.reminder) (judgedReminder i s)) := rfl

/-- R39: what a reminder's expiry leaves and tells, from what it has left before the weight. -/
structure Reminded (i : Nat) (a b : Alarm) (ns : List Notice) (ls : List Line) (s t : State) : Prop where
  record : ∃ m, alarm? t i = some { b with dyn := { b.dyn with overflow := m } }
  settled : b.settled = a.settled
  place : AtPos (ownerOf s i) s t
  entries : JournaledFirst ls s t
  follow : ItemsFollow (ownerOf s i) (itemsFlood (ownerOf s i) s t) s t
  load : (t.loads.get (ownerOf s i)).load = min 65535 ((s.loads.get (ownerOf s i)).load + arrivalWeight a.defn.priority / 2)
  fresh : (t.loads.get (ownerOf s i)).flood = (s.loads.get (ownerOf s i)).flood →
    ∀ e ∈ (t.lists.get (ownerOf s i)).ann, e.alarm = i → e.reminder = some a.defn.reminder
  told : (s.loads.get (ownerOf s i)).Sound → Told (fun l => atDesk (ownerOf s i) [.remind i (min 15 (a.dyn.reminders + 1))] l ++
    atDesk .p0 ns l ++ atBoth (ownerOf s i) (loadNotices (ownerOf s i) s t) l ++
      atDesk (ownerOf s i) (itemNotices (ownerOf s i) (itemsFlood (ownerOf s i) s t) s) l) s t

theorem Counted.reminded {i : Nat} {a b : Alarm} {ns : List Notice} {ls : List Line} {s : State}
    (h : Counted i a b ns ls s (judgedReminder i s)) : Reminded i a b ns ls s (expireReminder i s) ∧
      MarksOnly (judgedReminder i s) (expireReminder i s) ∧ (expireReminder i s).escalation = (judgedReminder i s).escalation := by
  have work := expireReminder_eq i s
  generalize expireReminder i s = t at work
  obtain ⟨record, settled, place, quiet, entries, told⟩ := h
  generalize judgedReminder i s = m at *
  have defn : b.defn = a.defn := congrArg (·.1) settled
  rw [priorityOf, alarmAt_eq record, defn] at work
  generalize hp : ownerOf s i = p at *
  generalize hn : setReminder p i (some a.defn.reminder) m = n at work
  have written : Quiet [.lists] m n ∧ AtPos p m n ∧ n.lists.get p = { m.lists.get p with ann := (m.lists.get p).ann.map fun e =>
      if e.alarm == i then { e with reminder := some a.defn.reminder } else e } :=
    hn ▸ ⟨quiet_setReminder .., atPos_setReminder .., modLists_get_self ..⟩
  obtain ⟨quiet', place', ann⟩ := written
  have loads : n.loads = s.loads := Eq.trans (quiet'.kept.agrees .loads (by simp)) (quiet.kept.agrees .loads (by simp))
  have positions : n.positions = s.positions :=
    Eq.trans (quiet'.kept.agrees .positions (by simp)) (quiet.kept.agrees .positions (by simp))
  have links : n.links = m.links := quiet'.kept.agrees .links (by simp)
  have time : m.millTime = s.millTime := (quiet.kept.agrees .clock (by simp)).1
  have time' : n.millTime = m.millTime := (quiet'.kept.agrees .clock (by simp)).1
  obtain ⟨⟨more, lines⟩, follow, marks, -⟩ := addLoad_spec p (reminderWeight a.defn.priority) n
  have last : AtPos p n t := work ▸ atPos_addLoad ..
  have load := addLoad_evaluated p (reminderWeight a.defn.priority) n
  have tells (sound : (s.loads.get p).Sound) := (weighed_told true (p := p) (s := n) (by rw [loads]; exact sound)
    (reminderWeight a.defn.priority)).1
  simp only [weighed, if_true] at tells
  have escalation : t.escalation = n.escalation := work ▸ (quiet_addLoad ..).kept.agrees .escalation (by simp)
  have still (same : (t.loads.get p).flood = (n.loads.get p).flood) : t.lists = n.lists := by
    have added : Kept [.loads] n (modLoad p (PosLoad.added (reminderWeight a.defn.priority)) n) := (quiet_modLoad ..).kept
    have spec := evaluated p added (by rw [modLoad_get_self, PosLoad.added_flood])
    rw [← addLoad_eq, ← work] at spec
    exact (spec.still same).agrees .lists (by simp)
  rw [← work] at lines follow marks load tells
  have item : itemsFlood p n t = itemsFlood p s t := itemsFlood_congr (by rw [loads]) rfl
  have notice : loadNotices p n t = loadNotices p s t := loadNotices_congr (by rw [loads]) rfl
  have marked : MarksOnly m t := (MarksOnly.of_kept quiet'.kept (by simp)).trans marks
  rw [item] at follow tells
  refine ⟨⟨marked.find record, settled, hp ▸ (place.trans place').trans last, ⟨more, ?_⟩, ?_, ?_, fun same e he alarm => ?_, fun sound => ?_⟩,
    marked, Eq.trans escalation (quiet'.kept.agrees .escalation (by simp))⟩
  · exact entries.trans ((Journaled.of_kept quiet'.kept (by simp)).after lines time') time
  · rw [hp]; exact follow.congr positions rfl
  · rw [hp, load, loads]; exact PosLoad.added_load ..
  · rw [hp, still (by rw [loads]; exact hp ▸ same), ann] at he
    obtain ⟨x, -, rfl⟩ := List.mem_map.1 he
    by_cases here : x.alarm = i
    · rw [if_pos (beq_iff_eq.2 here)]
    · rw [if_neg fun h => here (beq_iff_eq.1 h)] at alarm
      exact absurd alarm here
  · rw [hp] at sound ⊢
    have second := tells sound
    rw [notice, itemNotices_congr p _ positions] at second
    refine (told.trans (second.from_links links)).congr fun l => ?_
    simp only [List.append_assoc]

/-- Settles O40. -/
theorem aReminderCountsAndEscalates : Obligations.AReminderCountsAndEscalates := by
  intro i a s present ⟨e, he, same, due⟩
  have expired : reminderDue s i = true := List.any_eq_true.2 ⟨e, he, by rw [due, same, beq_self_eq_true]; rfl⟩
  have quiet := quiet_expireReminder (s := s) i
  obtain ⟨t, next, done⟩ := event_done (out := execReminderExpiry i s) (P := Expired s _) rfl (by simp only [expired, if_true]) quiet
    fun _ d => d
  obtain ⟨_, _, _, counted'⟩ := judgedReminder_counted present
  obtain ⟨all, marks, list⟩ := counted'.reminded
  obtain ⟨⟨m, written⟩, same, place, -, follow, load, fresh, -⟩ := all
  obtain ⟨c, record, settled⟩ : ∃ c, alarm? (expireReminder i s) i = some c ∧ c.settled = a.settled := ⟨_, written, same⟩
  have reminded {b : Alarm} {ns : List Notice} {ls : List Line} (h : Counted i a b ns ls s (judgedReminder i s)) := h.reminded.1
  have alarms : t.alarms = (expireReminder i s).alarms := done.agrees .alarms nofun
  have lists : t.lists = (expireReminder i s).lists := done.agrees .lists nofun
  have loads : t.loads = (expireReminder i s).loads := done.agrees .loads nofun
  have escalation : t.escalation = (judgedReminder i s).escalation := Eq.trans (done.agrees .escalation nofun) list
  have item : itemsFlood (ownerOf s i) s t = itemsFlood (ownerOf s i) s (expireReminder i s) := itemsFlood_congr rfl (by rw [loads])
  have notice : loadNotices (ownerOf s i) s t = loadNotices (ownerOf s i) s (expireReminder i s) := loadNotices_congr rfl (by rw [loads])
  have final {b : Alarm} {ns : List Notice} {ls : List Line} (h : Reminded i a b ns ls s (expireReminder i s)) {c : Alarm}
      (hc : alarm? (expireReminder i s) i = some c) :
      c.dyn.reminders = b.dyn.reminders ∧ c.dyn.escalated = b.dyn.escalated := by
    obtain ⟨x, hx⟩ := h.record
    rw [← Option.some.inj (hx.symm.trans hc)]
    exact ⟨rfl, rfl⟩
  have tells {b : Alarm} {ns : List Notice} {ls : List Line} (h : Reminded i a b ns ls s (expireReminder i s)) := fun fit =>
    done.announced _ (h.told fit)
  have entries {b : Alarm} {ns : List Notice} {ls : List Line} (h : Reminded i a b ns ls s (expireReminder i s)) :
      JournaledFirst ls s t := h.entries.imp fun _ written => done.journaled written
  refine ⟨t, c, next, by rw [alarm?_congr alarms, record], settled, ?_⟩
  simp only [item, notice]
  rw [loads, lists]
  refine ⟨follow.congr rfl (done.agrees .positions nofun), load, fun calm => ?_, fun some' many off room => ?_,
    fun low some' many off full last => ⟨fun higher other => ?_, fun lower => ?_⟩, fresh,
    fun q hq => ⟨place.loads q hq, place.lists q hq⟩, fun j _ => by rw [alarm?_congr alarms]; exact place.settled j,
    DesksKept.congr place.desks rfl (done.agrees .positions nofun), done.lines, done.noReply,
    done.kept (quiet.kept.mono (by simp)) (by simp)⟩
  · have way := judgedReminder_calm present calm
    obtain ⟨first, kept, -⟩ := counted_spec present
    have spec := reminded (way ▸ first)
    obtain ⟨reminders, escalated⟩ := final spec record
    exact ⟨reminders, escalated, by rw [escalation, way, kept], tells spec⟩
  · obtain ⟨here, inserted, -⟩ := judgedReminder_room present some' many off room
    have spec := reminded here
    obtain ⟨reminders, escalated⟩ := final spec record
    rw [escalation, inserted]
    exact ⟨reminders, escalated, length_insertBy .., ⟨_, mem_insertBy.2 (.inl rfl), rfl⟩, entries spec, tells spec⟩
  · obtain ⟨u, b, here, way, gone, facts⟩ := judgedReminder_displaces present some' many off full last higher
    obtain ⟨exact', lowest⟩ := facts other
    subst exact'
    obtain ⟨entered, inserted, others⟩ := here.enters
    rw [← way] at entered inserted others
    have spec := reminded entered
    obtain ⟨reminders, escalated⟩ := final spec record
    rw [escalation, inserted, gone]
    refine ⟨reminders, escalated, mem_insertBy.2 (.inl rfl), fun x hx => ?_, fun x kept hx => ?_, fun x hx => ?_, entries spec, tells spec⟩
    · rcases mem_insertBy.1 hx with rfl | there
      · exact other.symm
      · exact bne_iff_ne.1 (List.mem_filter.1 there).2
    · exact mem_insertBy.2 (.inr (List.mem_filter.2 ⟨hx, bne_iff_ne.2 kept⟩))
    · obtain ⟨y, hy⟩ := marks.find ((others _ other).trans (lowest x hx))
      exact ⟨_, by rw [alarm?_congr alarms, hy], rfl, rfl⟩
  · obtain ⟨here, kept⟩ := judgedReminder_yields present some' many off full last lower
    have spec := reminded here
    obtain ⟨reminders, escalated⟩ := final spec record
    exact ⟨reminders, escalated.trans off, by rw [escalation, kept], tells spec⟩

end Sys2Proof.Machine
end

section
/-! PROOFS. AREA_TRANSFER (R96 to R98) and the MOVE of the listed alarms (R37). -/

namespace Sys2Proof.Machine

/-! ### Alarms that stand at a position keep standing there while another is placed -/

section
variable {s t u : State} {p : Pos} {i j : Nat}

/-- R27, R28: work that takes no defined alarm off the places of a position. -/
structure KeepsDefined (p : Pos) (s t : State) : Prop where
  defined : ∀ j, (alarm? t j).isSome = (alarm? s j).isSome
  stands : ∀ j, (alarm? s j).isSome = true → standsAt s p j = true → standsAt t p j = true

namespace KeepsDefined

/-- An alarm leaves, and what follows puts it back. -/
theorem of_return (place : AtPos p s t)
    (others : ∀ j, j ≠ i → (alarm? s j).isSome = true → standsAt s p j = true → standsAt t p j = true)
    (back : (alarm? s i).isSome = true → standsAt t p i = true) : KeepsDefined p s t := by
  refine ⟨fun j => by simpa using congrArg Option.isSome (place.settled j), fun j some' on => ?_⟩
  by_cases same : j = i
  · exact same ▸ back (same ▸ some')
  · exact others j same some' on

end KeepsDefined

theorem AtPos.isSome_alarm? (h : AtPos p s t) (j : Nat) : (alarm? t j).isSome = (alarm? s j).isSome := by
  simpa using congrArg Option.isSome (h.settled j)

theorem onDeferred_leaveAnn (p q : Pos) (i : Nat) (s : State) (j : Nat) :
    onDeferred (leaveAnn p i s) q j = onDeferred s q j := by
  rw [onDeferred, onDeferred, leaveAnn_lists]
  split
  · rename_i h; subst h; rfl
  · rfl

theorem onAnn_leaveDeferred (p q : Pos) (i : Nat) (s : State) (j : Nat) : onAnn (leaveDeferred p i s) q j = onAnn s q j := by
  rw [onAnn, onAnn, leaveDeferred, modLists_get]
  split
  · rename_i h; subst h; rfl
  · rfl

theorem standsAt_leaveAnn_ne (other : j ≠ i) (on : standsAt s p j = true) : standsAt (leaveAnn p i s) p j = true := by
  rw [standsAt, onAnn_leaveAnn, onDeferred_leaveAnn, if_neg fun h => other h.2]
  exact on

theorem standsAt_leaveDeferred_ne (other : j ≠ i) (on : standsAt s p j = true) :
    standsAt (leaveDeferred p i s) p j = true := by
  rw [standsAt, onDeferred_leaveDeferred, onAnn_leaveDeferred, if_neg fun h => other h.2]
  exact on

theorem standsAt_setOverflow_ne (other : j ≠ i) (b : Bool) (on : standsAt s p j = true) :
    standsAt (setOverflow i b s) p j = true := by
  rw [standsAt, alarmAt_setOverflow_ne other]
  exact on

/-- R28: deferred insertion leaves every other defined alarm of the position in a place. -/
theorem standsAt_insertDeferred_ne (p : Pos) (t : Word) (defined : (alarm? s j).isSome = true) (other : j ≠ i)
    (on : standsAt s p j = true) : standsAt (insertDeferred p i t s) p j = true := by
  simp only [insertDeferred]
  split
  · exact (keepsStanding_joinDeferred ..).stands j on
  · split
    · rename_i low _
      split
      · refine (keepsStanding_joinDeferred ..).stands j ?_
        by_cases gone : j = low.alarm
        · subst gone
          exact standsAt_setOverflow (((atPos_leaveDeferred p s _).isSome_alarm? _).trans defined) p
        · exact standsAt_setOverflow_ne gone _ (standsAt_leaveDeferred_ne gone on)
      · exact standsAt_setOverflow_ne other _ on
    · exact standsAt_setOverflow_ne other _ on

/-- R27: a displacement leaves every defined alarm of the position in a place. -/
theorem keepsDefined_displaced (p : Pos) (low : AnnEntry) (s : State) : KeepsDefined p s (displaced p low s) := by
  have left : AtPos p s (leaveAnn p low.alarm s) := atPos_leaveAnn ..
  refine .of_return (i := low.alarm) ((left.trans (atPos_notify ..)).trans (atPos_insertDeferred ..)) (fun j other defined on => ?_)
    fun defined => standsAt_insertDeferred (s := notify (.console p) (.retract low.alarm .displaced) (leaveAnn p low.alarm s))
      ((left.isSome_alarm? _).trans defined) ..
  exact standsAt_insertDeferred_ne p low.time (s := notify (.console p) (.retract low.alarm .displaced) (leaveAnn p low.alarm s))
    ((left.isSome_alarm? _).trans defined) other (standsAt_leaveAnn_ne (s := s) other on)

theorem standsAt_joinAnn_of (i : Nat) (t : Word) (on : standsAt s p j = true) : standsAt (joinAnn p i t s) p j = true := by
  rw [standsAt_iff] at on ⊢
  rw [joinAnn_ann, joinAnn_fields]
  exact on.imp_left fun ⟨e, he, same⟩ => ⟨e, mem_insertBy.2 (.inr he), same⟩

theorem standsAt_stamped (i : Nat) (t : Word) (s : State) (p : Pos) (j : Nat) :
    standsAt (stamped i t s) p j = standsAt s p j := by
  have marker : (alarmAt (stamped i t s) j).dyn.overflow = (alarmAt s j).dyn.overflow := by
    by_cases same : j = i
    · subst same
      rw [alarmAt_modDyn_self]
      cases h : alarm? s j with
      | none => rw [alarmAt, h]; rfl
      | some a => rfl
    · rw [alarmAt, alarm?_modDyn_ne same, alarmAt]
  rw [standsAt, marker]; rfl

/-- R27: a placement leaves every defined alarm of the position in a place. -/
theorem keepsDefined_placeOnLists (p : Pos) (i : Nat) (t : Word) (s : State) : KeepsDefined p s (placeOnLists p i t s) := by
  have place := atPos_stamped p i t s
  refine .of_return (i := i) (atPos_placeOnLists ..) (fun j other defined on => ?_) fun defined => standsAt_placeOnLists defined p t
  have defined' := (place.isSome_alarm? j).trans defined
  have on' := (standsAt_stamped i t s p j).trans on
  rcases placeOnLists_ways p i t s .normal with ⟨way, -⟩ | ⟨way, -⟩ | ⟨low, -, way, -⟩ <;> rw [way]
  · exact standsAt_insertDeferred_ne p t defined' other on'
  · exact standsAt_joinAnn_of i t on'
  · exact standsAt_joinAnn_of i t ((keepsDefined_displaced p low _).stands j defined' on')

/-- R27: a placement gives its annunciation time to the alarm placed, and to no other. -/
theorem annTime_placeOnLists (p : Pos) (t : Word) (defined : (alarm? s j).isSome = true) :
    (alarmAt (placeOnLists p i t s) j).dyn.annTime = if j = i then some t else (alarmAt s j).dyn.annTime := by
  have same := congrArg (fun x : Alarm => x.dyn.annTime) ((marksOnly_placeOnLists p i t s).alarmAt j)
  refine Eq.trans same ?_
  split
  · subst j
    show ((alarmAt (modDyn _ _ s) _).dyn).annTime = _
    rw [alarmAt_modDyn_self, if_pos defined]
  · show (alarmAt (modDyn _ _ s) j).dyn.annTime = _
    rw [alarmAt, alarm?_modDyn_ne ‹_›, alarmAt]

/-- R37: an alarm stands at a position with an annunciation time. -/
def PlacedAt (s : State) (p : Pos) (i : Nat) (time : Word) : Prop :=
  standsAt s p i = true ∧ (alarmAt s i).dyn.annTime = some time

/-- R37 step 3: every alarm moved in ends in a place at the target, with the annunciation time it held. -/
theorem placedAt_moveIn {time : Word} {moving : List ListEntry} (defined : (alarm? s i).isSome = true)
    (times : ∀ e ∈ moving, e.alarm = i → e.time = time) (h : (∃ e ∈ moving, e.alarm = i) ∨ PlacedAt s p i time) :
    PlacedAt (moving.foldl (moveIn p) s) p i time := by
  induction moving generalizing s with
  | nil => exact h.resolve_left (by simp)
  | cons e es ih =>
    rw [List.foldl_cons]
    have keeps : KeepsDefined p s (moveIn p s e) := keepsDefined_placeOnLists ..
    refine ih ((keeps.defined i).trans defined) (fun x hx => times x (List.mem_cons_of_mem _ hx)) ?_
    have stamp := annTime_placeOnLists (s := s) (i := e.alarm) p e.time defined
    by_cases here : e.alarm = i
    · rw [← times e (List.mem_cons_self ..) here]
      subst here
      exact .inr ⟨standsAt_placeOnLists defined p e.time, by rw [if_pos rfl] at stamp; exact stamp⟩
    · rcases h with ⟨x, hx, same⟩ | ⟨on, at_t⟩
      · rcases List.mem_cons.1 hx with rfl | hx
        · exact absurd same here
        · exact .inl ⟨x, hx, same⟩
      · exact .inr ⟨keeps.stands i defined on, by rw [if_neg (Ne.symm here)] at stamp; exact stamp.trans at_t⟩

end

/-! ### The MOVE report -/

section
variable (source target : Pos) (moving : List ListEntry) (s : State)

theorem atPos_moveOut (e : ListEntry) : AtPos source s (moveOut source s e) :=
  .ite (fun _ => (atPos_leaveAnn ..).trans (atPos_notify ..)) fun _ => (atPos_leaveDeferred ..).trans (atPos_setOverflow ..)

theorem atPos_foldl {f : State → ListEntry → State} (h : ∀ s e, AtPos target s (f s e)) :
    AtPos target s (moving.foldl f s) := by
  induction moving generalizing s with
  | nil => exact .refl ..
  | cons e es ih => exact (h s e).trans (ih _)

/-- R37 steps 1 and 2: the alarms have left the source. -/
abbrev movedOut : State := restoreLists source (moving.foldl (moveOut source) s)

theorem atPos_movedOut : AtPos source s (movedOut source moving s) :=
  (atPos_foldl source moving s (atPos_moveOut source)).trans (atPos_restoreLists ..)

theorem moveLists_spec : let t := moveLists source target moving s
    (∀ i, (alarm? t i).map Alarm.settled = (alarm? s i).map Alarm.settled) ∧
      (∀ q, (t.lists.get q).shelf = (s.lists.get q).shelf) ∧
      (∀ q, q ≠ source → q ≠ target → t.lists.get q = s.lists.get q) ∧ t.areas = s.areas ∧
      ∀ i time, (alarm? s i).isSome = true → (∃ e ∈ moving, e.alarm = i) → (∀ e ∈ moving, e.alarm = i → e.time = time) →
        PlacedAt t target i time := by
  have out := atPos_movedOut source moving s
  have into : AtPos target (movedOut source moving s) (moveLists source target moving s) :=
    (atPos_foldl target moving _ fun s e => atPos_placeOnLists target s e.alarm e.time).trans (atPos_judgeHorn ..)
  refine ⟨fun i => (into.settled i).trans (out.settled i), fun q => (into.shelf q).trans (out.shelf q),
    fun q hs ht => (into.lists q ht).trans (out.lists q hs), into.areas.trans out.areas, fun i time defined moved times => ?_⟩
  obtain ⟨on, at_t⟩ := placedAt_moveIn (p := target) ((out.isSome_alarm? i).trans defined) times (.inl moved)
  have judged := (quiet_judgeHorn (moving.foldl (moveIn target) (movedOut source moving s)) target).kept
  refine ⟨(keepsStanding_judgeHorn ..).stands i on, ?_⟩
  rw [alarmAt, moveLists, alarm?_congr (judged.agrees .alarms (by simp))]
  exact at_t

end

theorem mem_foldl_insertBy {α : Type} {before : α → α → Bool} {m l : List α} {y : α} :
    y ∈ m.foldl (fun l e => insertBy before e l) l ↔ y ∈ l ∨ y ∈ m := by
  induction m generalizing l with
  | nil => simp
  | cons x m ih => rw [List.foldl_cons, ih, mem_insertBy, List.mem_cons, or_comm (a := y = x), or_assoc]

section
variable {s : State} {a : Nat} {source target : Pos} (other : target ≠ source)
include other

/-- R98: the shelf entries of the area move, and nothing else on the lists. -/
theorem moveShelf_spec : let t := moveShelf a source target s
    (t.lists.get source).shelf = (s.lists.get source).shelf.filter (fun e => (alarmAt s e.alarm).defn.area != a) ∧
      (∀ e, e ∈ (t.lists.get target).shelf ↔ e ∈ (s.lists.get target).shelf ∨
        (e ∈ (s.lists.get source).shelf ∧ (alarmAt s e.alarm).defn.area = a)) ∧
      (∀ q, (t.lists.get q).ann = (s.lists.get q).ann ∧ (t.lists.get q).deferred = (s.lists.get q).deferred) ∧
      ∀ q, q ≠ source → q ≠ target → t.lists.get q = s.lists.get q := by
  simp only [moveShelf, modLists_get]
  refine ⟨by rw [if_neg other.symm, if_pos trivial], fun e => ?_, fun q => ?_, fun q hs ht => by rw [if_neg ht, if_neg hs]⟩
  · simp only [if_neg other, if_true, mem_foldl_insertBy, areaShelf, List.mem_filter, beq_iff_eq]
  · by_cases ht : q = target
    · subst ht; simp [other]
    · rw [if_neg ht]
      split
      · subst q; exact ⟨rfl, rfl⟩
      · exact ⟨rfl, rfl⟩

end

/-! ### The listed alarms of the area -/

section
variable {s : State} {a : Nat} {source : Pos}

/-- R37 step 1: the alarms collected are those of the area that are listed at the source, with the annunciation time each holds. -/
theorem mem_collected (wf : s.alarms.wf = true) {e : ListEntry} : e ∈ collected s a source ↔
    ∃ x, alarm? s e.alarm = some x ∧ x.defn.area = a ∧ standsAt s source e.alarm = true ∧ e.time = x.dyn.annTime.getD 0 := by
  simp only [collected, mem_foldl_insertBy, List.not_mem_nil, false_or, List.mem_filterMap]
  constructor
  · rintro ⟨⟨i, x⟩, mem, made⟩
    split at made
    · rename_i way
      obtain ⟨area, listed⟩ := Bool.and_eq_true _ _ ▸ way
      rw [← Option.some.inj made]
      exact ⟨x, Table.get?_of_mem wf mem, beq_iff_eq.1 area, listed, rfl⟩
    · cases made
  · rintro ⟨x, present, area, listed, time⟩
    have way : (x.defn.area == a && listedAt s source e.alarm) = true := by rw [beq_iff_eq.2 area]; exact listed
    exact ⟨(e.alarm, x), Table.mem_of_get? present, by rw [if_pos way, ← time]⟩

theorem length_collected (wf : s.alarms.wf = true) (owner : areaOwner s a = source) :
    (collected s a source).length = s.alarms.countP fun e => e.2.defn.area == a && isListed s e.1 := by
  simp only [collected, length_foldl_insertBy, List.length_nil, Nat.zero_add]
  rw [List.length_filterMap_eq_countP]
  refine List.countP_congr fun ⟨i, x⟩ mem => ?_
  have present : alarm? s i = some x := Table.get?_of_mem wf mem
  by_cases area : x.defn.area = a
  · have at_source : ownerOf s i = source := by rw [ownerOf_eq present, area, owner]
    have listed : isListed s i = listedAt s source i := by rw [isListed_eq, at_source]; rfl
    simp only [area, listed, beq_self_eq_true, Bool.true_and]
    split <;> simp_all
  · simp [area]

end

/-! ### AREA_TRANSFER -/

section
variable {s : State} {a o : Nat} {source target : Pos}

/-- R97: the area belongs to the target, the entry stands, and the shelf entries have moved. -/
abbrev areaGiven (a o : Nat) (source target : Pos) (s : State) : State :=
  moveShelf a source target
    (append .areaTransferred (some target) (some o) (some a) source.num { s with areas := s.areas.set a target })

theorem transferArea_eq (a o : Nat) (source target : Pos) (s : State) : transferArea a source target o s =
    moveLists source target (collected (areaGiven a o source target s) a source) (areaGiven a o source target s) := rfl

theorem areaOwner_set (length : s.areas.length = 16) (inside : a ≤ 15) {t : State} (areas : t.areas = s.areas.set a target) :
    areaOwner t a = target ∧ ∀ b, b ≠ a → areaOwner t b = areaOwner s b := by
  simp only [areaOwner, areas, List.getD, List.getElem?_set]
  exact ⟨by simp [show a < s.areas.length by omega], fun b hb => by rw [if_neg (Ne.symm hb)]⟩

/-- R97, R98, R37: the work of a transfer. -/
theorem transferArea_spec (other : target ≠ source) (wf : s.alarms.wf = true) (owner : areaOwner s a = source) :
    let t := transferArea a source target o s
    t.areas = s.areas.set a target ∧
      (t.lists.get source).shelf = (s.lists.get source).shelf.filter (fun e => (alarmAt s e.alarm).defn.area != a) ∧
      (∀ e, e ∈ (t.lists.get target).shelf ↔ e ∈ (s.lists.get target).shelf ∨
        (e ∈ (s.lists.get source).shelf ∧ (alarmAt s e.alarm).defn.area = a)) ∧
      (∀ i x time, alarm? s i = some x → x.defn.area = a → isListed s i = true → x.dyn.annTime = some time → PlacedAt t target i time) ∧
      (∀ i, (alarm? t i).map Alarm.settled = (alarm? s i).map Alarm.settled) ∧
      Journaled [⟨.areaTransferred, some target, some o, some a, source.num⟩] s t ∧
      ∀ q, q ≠ source → q ≠ target → t.lists.get q = s.lists.get q := by
  obtain ⟨gone, came, lists, others⟩ := moveShelf_spec (s := append .areaTransferred (some target) (some o) (some a) source.num
    { s with areas := s.areas.set a target }) (a := a) other
  obtain ⟨settled, shelf, outside, areas, placed⟩ :=
    moveLists_spec source target (collected (areaGiven a o source target s) a source) (areaGiven a o source target s)
  refine ⟨areas, (shelf source).trans gone, fun e => (shelf target ▸ came e :), fun i x time present area listed at_t => ?_, settled, ?_,
    fun q hs ht => (outside q hs ht).trans (others q hs ht)⟩
  · have here : standsAt (areaGiven a o source target s) source i = true := by
      rw [isListed_eq, ownerOf_eq present, area, owner] at listed
      rw [standsAt, onAnn, onDeferred, (lists source).1, (lists source).2]
      exact listed
    have wf' : (areaGiven a o source target s).alarms.wf = true := wf
    refine placed i time (by rw [show alarm? (areaGiven a o source target s) i = some x from present]; rfl)
      ⟨⟨i, time⟩, (mem_collected wf').2 ⟨x, present, area, here, by rw [at_t]; rfl⟩, rfl⟩ fun e he same => ?_
    obtain ⟨y, present', -, -, held⟩ := (mem_collected wf').1 he
    have same' : y = x := Option.some.inj ((same ▸ present' : alarm? (areaGiven a o source target s) i = some y).symm.trans present)
    rw [held, same', at_t]; rfl
  · have quiet := ((quiet_moveShelf (append .areaTransferred (some target) (some o) (some a) source.num
      { s with areas := s.areas.set a target }) a source target).mono (qs := [.alarms, .lists, .links]) (by simp)).trans
      (quiet_moveLists (areaGiven a o source target s) source target (collected (areaGiven a o source target s) a source))
    have written : Journaled [⟨.areaTransferred, some target, some o, some a, source.num⟩] s
      (append .areaTransferred (some target) (some o) (some a) source.num { s with areas := s.areas.set a target }) := ⟨rfl, rfl⟩
    exact written.before (.of_kept quiet.kept (by simp)) rfl

/-- R96: a transfer that the conditions allow passes its checks. -/
theorem firstRefusal_transfer {holder : Nat} (inside : a ≤ 15) (held : Holds s o .p0)
    (grant : holdsFor s.grants o .supervise a .p0 = true) (other : target ≠ source)
    (offered : (s.positions.get source).state ≠ .offered) (review : (s.positions.get source).state ≠ .review)
    (staffed : (s.positions.get target).state = .staffed) (at_target : (s.positions.get target).holder = some holder)
    (covers : holdsFor s.grants holder .operate a target = true)
    (room : (s.lists.get target).shelf.length + (areaShelf s a source).length ≤ 32) :
    firstRefusal (transferAccess s o a target.num ++ transferChecks s a source target) = none := by
  have held' : engagementOf s o = some (.p0, .holder) := held
  have free : inHandover? s source target = none := by simp [inHandover?, offered, review, staffed]
  have known : (Pos.ofNum? target.num).isSome = true := by cases target <;> rfl
  have holder' : holderOf s target = holder := by rw [holderOf, at_target]; rfl
  simp [transferAccess, transferChecks, positionCheck, definedCheck, holderCheck, grantCheck, held', isSome_operator?_of_engaged held',
    free, known, inside, grant, other, staffed, holder', covers, room, Config.shelfCapacity]

end

theorem length_areaShelf (s : State) (a : Nat) (p : Pos) :
    (areaShelf s a p).length = (s.lists.get p).shelf.countP fun e => (alarmAt s e.alarm).defn.area == a :=
  List.countP_eq_length_filter.symm

/-- Settles O53. -/
theorem areaTransferMovesTheArea : Obligations.AreaTransferMovesTheArea := by
  intro h a holder source target s hp cap inside held grant owner other offered review staffed at_target covers room
  obtain ⟨-, -, -, length, wf, -⟩ := cap
  rw [← length_areaShelf] at room
  subst owner
  have checked : firstRefusal (transferAccess (takeFrame h.link s) h.op a target.num ++
      transferChecks (takeFrame h.link s) a (areaOwner s a) (posOf target.num)) = none := by
    rw [posOf_num]
    exact firstRefusal_transfer (s := takeFrame h.link s) inside held grant other offered review staffed at_target covers room
  have quiet := quiet_transferArea (takeFrame h.link s) a (areaOwner s a) target h.op
  obtain ⟨given, gone, came, placed, settled, entries, others⟩ :=
    transferArea_spec (s := takeFrame h.link s) (o := h.op) other wf rfl
  obtain ⟨t, next, done⟩ := request_done (out := exec (.areaTransfer h a target.num) s) (P := Served .areaTransfer h _ s _) (g := false)
    rfl hp ((judged_of_none checked _).trans (by rw [posOf_num]; rfl)) quiet fun _ d => d
  have areas : t.areas = s.areas.set a target := Eq.trans (done.agrees .areas nofun) given
  have alarms : t.alarms = (transferArea a (areaOwner s a) target h.op (takeFrame h.link s)).alarms := done.agrees .alarms nofun
  have lists : t.lists = (transferArea a (areaOwner s a) target h.op (takeFrame h.link s)).lists := done.agrees .lists nofun
  obtain ⟨now, still⟩ := areaOwner_set length inside areas
  refine ⟨t, next, now, still, by rw [lists]; exact gone, fun e => by rw [lists]; exact came e, fun i x time present area listed at_t => ?_,
    fun i => by rw [alarm?_congr alarms]; exact settled i, ?_, done.journaled entries,
    fun q hs ht => by rw [lists]; exact others q hs ht, done.lines, done.kept (quiet.kept.mono (by simp)) (by simp)⟩
  · obtain ⟨on, at_t'⟩ := placed i x time present area listed at_t
    have record : alarmAt t i = alarmAt (transferArea a (areaOwner s a) target h.op (takeFrame h.link s)) i := by
      rw [alarmAt, alarmAt, alarm?_congr alarms]
    refine ⟨?_, by rw [record]; exact at_t'⟩
    have defn : (alarmAt t i).defn.area = a := by
      have same := settled i
      rw [← alarm?_congr alarms, show alarm? (takeFrame h.link s) i = some x from present] at same
      obtain ⟨y, hy, fields⟩ := Option.map_eq_some_iff.1 same
      rw [alarmAt_eq hy]
      exact (congrArg (fun x => x.1.area) fields).trans area
    have here : ownerOf t i = target := by rw [ownerOf, defn, now]
    rw [isListed_eq, here, standsAt, record, onAnn, onDeferred, lists]
    exact on
  · rw [← length_collected (s := s) wf rfl, ← length_areaShelf]
    exact done.replied

end Sys2Proof.Machine
end

section
/-! PROOFS. RESTART (R182): the handovers that are dropped (R145, R88), and what the links start with (R162). -/

namespace Sys2Proof.Machine

/-! ### The handovers that are dropped -/

/-- R145: the context of a position whose handover, if there was one, is dropped. -/
def PosContext.dropped (c : PosContext) : PosContext :=
  match c.state with
  | .offered => { c with state := .staffed, incoming := none, timer := none }
  | .review => { c with state := .staffed, incoming := none, timer := none, items := [] }
  | _ => c

/-- R88, R75: a temporary grant of the incoming of a position in REVIEW, bound there. -/
def reviewGrant (s : State) (p : Pos) (g : Grant) : Bool :=
  (s.positions.get p).state == .review && boundTemporary ((s.positions.get p).incoming.getD 0) p g

/-- R124: an operator is the incoming of a position in REVIEW. -/
def Reviews (s : State) (p : Pos) (o : Nat) : Prop := (s.positions.get p).state = .review ∧ (s.positions.get p).incoming = some o

/-- R145, R88: the handovers of the positions `ps` have been dropped, in order. -/
structure HandoversDropped (ps : List Pos) (s t : State) : Prop where
  positions : ∀ p, t.positions.get p = if p ∈ ps then (s.positions.get p).dropped else s.positions.get p
  time : t.millTime = s.millTime
  entries : ∃ ls, Journaled ls s t
  plain : (∀ p ∈ ps, (s.positions.get p).state ≠ .review) → Journaled [] s t ∧ t.operators = s.operators ∧ t.grants = s.grants
  bound : s.grants.wf = true →
    (∀ p ∈ ps, (s.positions.get p).state = .review → ∃ o, Reviews s p o ∧ engagementOf s o = some (p, .incoming)) →
      (∀ p ∈ ps, ∀ o, Reviews s p o → operator? t o = (operator? s o).map fun r => { r with engagement := none }) ∧
      (∀ o, (∀ p ∈ ps, ¬ Reviews s p o) → t.operators.get? o = s.operators.get? o) ∧
      t.grants = s.grants.filter (fun e => !ps.any fun p => reviewGrant s p e.2) ∧
      Journaled (ps.flatMap fun p => endedLines (reviewGrant s p) s) s t

section
variable {s t u : State} {p : Pos} {ps : List Pos}

theorem HandoversDropped.nil (s : State) : HandoversDropped [] s s :=
  ⟨fun p => by simp, rfl, ⟨[], .refl s⟩, fun _ => ⟨.refl s, rfl, rfl⟩,
   fun _ _ => ⟨nofun, fun _ _ => rfl, (List.filter_eq_self.2 fun _ _ => rfl).symm, .refl s⟩⟩

theorem endedLines_none {f : Grant → Bool} (h : ∀ g, f g = false) (s : State) :
    endedLines f s = [] := endedLines_plain fun e _ => h e.2

/-- R88: a position that is not in REVIEW has no grants that end. -/
theorem reviewGrant_eq_false (h : (s.positions.get p).state ≠ .review) (g : Grant) : reviewGrant s p g = false := by
  simp [reviewGrant, h]

/-- R88: the engagement and grants after the incoming of a review, if there is one, has been released. -/
abbrev reviewReleased (p : Pos) (s : State) : State :=
  if (s.positions.get p).state = .review then release ((s.positions.get p).incoming.getD 0) s else s

theorem quiet_reviewReleased (p : Pos) (s : State) : Quiet [.operators, .grants, .journal] s (reviewReleased p s) :=
  .when (quiet_release ..)

theorem journaled_reviewReleased (p : Pos) (s : State) : ∃ ls, Journaled ls s (reviewReleased p s) := by
  unfold reviewReleased
  split
  · cases engaged : engagementOf s ((s.positions.get p).incoming.getD 0) with
    | none => exact ⟨[], by rw [release, engaged]; exact .refl s⟩
    | some e =>
      rw [release_eq engaged]
      exact ⟨_, Journaled.after (.of_kept (quiet_setEngagement ..).kept (by simp)) (journaled_endGrants _ (setEngagement _ none s)) rfl⟩
  · exact ⟨[], .refl s⟩

/-- R75: the grants that end at one position are not those of another. -/
theorem endedLines_elsewhere {q : Pos} (other : q ≠ p)
    (grants : t.grants = s.grants.filter fun e => !reviewGrant s p e.2) :
    endedLines (reviewGrant s q) t = endedLines (reviewGrant s q) s := by
  rw [endedLines, endedLines, grants, List.filter_filter]
  refine congrArg (List.map _) (List.filter_congr fun e _ => ?_)
  cases gone : reviewGrant s q e.2 with
  | false => rfl
  | true =>
    simp only [reviewGrant, boundTemporary, Bool.and_eq_true, beq_iff_eq] at gone
    simp [reviewGrant, boundTemporary, gone.2.2, other]

theorem dropHandover_eq (p : Pos) (s : State) : ∃ f, dropHandover s p = modPos p f (reviewReleased p s) ∧
    f (s.positions.get p) = (s.positions.get p).dropped := by
  simp only [dropHandover]
  cases state : (s.positions.get p).state with
  | review =>
    exact ⟨_, by simp only [or_true, if_true, release_modPos, modPos_modPos, reviewReleased, state]; rfl,
      by simp only [PosContext.dropped, state]; rfl⟩
  | offered =>
    exact ⟨fun c => { c with timer := none, state := .staffed, incoming := none }, by simp [reviewReleased, state],
      by simp only [PosContext.dropped, state]⟩
  | vacant => exact ⟨id, by simp [reviewReleased, state, modPos], by simp only [PosContext.dropped, state]; rfl⟩
  | staffed => exact ⟨id, by simp [reviewReleased, state, modPos], by simp only [PosContext.dropped, state]; rfl⟩

/-- R145: one position's handover is dropped. -/
theorem handoversDropped_one (p : Pos) (s : State) : HandoversDropped [p] s (dropHandover s p) := by
  obtain ⟨f, way, dropped⟩ := dropHandover_eq p s
  rw [way]
  have kept := (quiet_reviewReleased p s).kept
  have positions : (reviewReleased p s).positions = s.positions := kept.agrees .positions (by simp)
  have time : (reviewReleased p s).millTime = s.millTime := (kept.agrees .clock (by simp)).1
  have here {ls : List Line} (h : Journaled ls s (reviewReleased p s)) : Journaled ls s (modPos p f (reviewReleased p s)) := h
  refine ⟨fun q => ?_, time, ?_, fun plain => ?_, fun wf engaged => ?_⟩
  · rw [modPos_get, positions]
    by_cases same : q = p
    · subst q; simpa using dropped
    · simp [same]
  · obtain ⟨ls, lines⟩ := journaled_reviewReleased p s
    exact ⟨ls, lines⟩
  · have none := plain p (List.mem_singleton.2 rfl)
    have same : reviewReleased p s = s := if_neg none
    rw [same]
    exact ⟨.refl s, rfl, rfl⟩
  · by_cases review : (s.positions.get p).state = .review
    · obtain ⟨o, ⟨-, named⟩, at_p⟩ := engaged p (List.mem_singleton.2 rfl) review
      have same : reviewReleased p s = release o s := by rw [reviewReleased, if_pos review, named]; rfl
      have gone : reviewGrant s p = boundTemporary o p := by funext g; simp [reviewGrant, review, named]
      obtain ⟨others, -, lines⟩ := release_spec at_p wf
      simp only [same, List.mem_singleton, forall_eq, List.any_cons, List.any_nil, Bool.or_false, List.flatMap_cons, List.flatMap_nil,
        List.append_nil, gone, modPos_operators, modPos_grants]
      refine ⟨fun q hq => ?_, fun q hq => others q fun h => hq (h ▸ ⟨review, named⟩), ?_, lines⟩
      · have same' : q = o := Option.some.inj (hq.2.symm.trans named)
        subst same'
        have operators : (release q s).operators = (setEngagement q none s).operators := by rw [release_eq at_p, endGrants_operators]
        exact (operator?_congr (t := modPos p f (release q s)) operators q).trans (by rw [setEngagement, operator?_modOperator, if_pos rfl])
      · rw [release_eq at_p]
        exact endGrants_grants (s := setEngagement o none s) wf
    · have same : reviewReleased p s = s := if_neg review
      simp only [same, List.mem_singleton, forall_eq, List.any_cons, List.any_nil, Bool.or_false, List.flatMap_cons, List.flatMap_nil,
        List.append_nil, reviewGrant_eq_false review, endedLines_none (reviewGrant_eq_false review)]
      exact ⟨fun o ho => absurd ho.1 review, fun _ _ => rfl, (List.filter_eq_self.2 fun _ _ => rfl).symm, .refl s⟩

theorem HandoversDropped.with_links (h : HandoversDropped ps s t) (k : PerLink LinkState) :
    HandoversDropped ps s { t with links := k } :=
  ⟨h.positions, h.time, h.entries, h.plain, h.bound⟩

/-- R145: the handovers of two runs of positions are dropped one after another. -/
theorem HandoversDropped.cons (h : HandoversDropped [p] s t) (k : HandoversDropped ps t u) (apart : p ∉ ps) :
    HandoversDropped (p :: ps) s u := by
  have other {q : Pos} (hq : q ∈ ps) : q ≠ p := fun same => apart (same ▸ hq)
  have context {q : Pos} (hq : q ∈ ps) : t.positions.get q = s.positions.get q := by
    rw [h.positions, if_neg (by simpa using other hq)]
  have reviews {q : Pos} (hq : q ∈ ps) (o : Nat) : Reviews t q o ↔ Reviews s q o := by rw [Reviews, Reviews, context hq]
  refine ⟨fun q => ?_, k.time.trans h.time, ?_, fun plain => ?_, fun wf engaged => ?_⟩
  · rw [k.positions]
    by_cases hq : q ∈ ps
    · rw [if_pos hq, if_pos (List.mem_cons_of_mem _ hq), context hq]
    · rw [if_neg hq, h.positions]
      by_cases same : q = p
      · simp [same]
      · simp [same, hq]
  · obtain ⟨ls, first⟩ := h.entries
    obtain ⟨ms, rest⟩ := k.entries
    exact ⟨_, first.trans rest h.time⟩
  · obtain ⟨first, operators, grants⟩ := h.plain fun q hq => plain q (List.mem_cons.2 (.inl (List.mem_singleton.1 hq)))
    obtain ⟨rest, operators', grants'⟩ := k.plain fun q hq => by rw [context hq]; exact plain q (List.mem_cons_of_mem _ hq)
    exact ⟨first.trans rest h.time, operators'.trans operators, grants'.trans grants⟩
  · obtain ⟨released, others, grants, lines⟩ :=
      h.bound wf fun q hq => engaged q (List.mem_cons.2 (.inl (List.mem_singleton.1 hq)))
    have apart' {q : Pos} (hq : q ∈ ps) {o : Nat} (ho : Reviews s q o) : ¬ Reviews s p o := fun at_p => by
      obtain ⟨a, ha, at_a⟩ := engaged q (List.mem_cons_of_mem _ hq) ho.1
      obtain ⟨b, hb, at_b⟩ := engaged p List.mem_cons_self at_p.1
      have same : a = o := Option.some.inj (ha.2.symm.trans ho.2)
      have same' : b = o := Option.some.inj (hb.2.symm.trans at_p.2)
      subst same; subst same'
      exact other hq (by simpa using at_a.symm.trans at_b)
    have stands {q : Pos} (hq : q ∈ ps) {o : Nat} (ho : Reviews s q o) : t.operators.get? o = s.operators.get? o :=
      others o (by simpa using apart' hq ho)
    have gone {q : Pos} (hq : q ∈ ps) : reviewGrant t q = reviewGrant s q := by funext g; rw [reviewGrant, reviewGrant, context hq]
    obtain ⟨released', others', grants', lines'⟩ := k.bound (by rw [grants]; exact Table.wf_filter wf _) fun q hq review => by
      obtain ⟨o, ho, at_q⟩ := engaged q (List.mem_cons_of_mem _ hq) (context hq ▸ review)
      refine ⟨o, (reviews hq o).2 ho, ?_⟩
      rw [engagementOf, operator?, stands hq ho]
      exact at_q
    refine ⟨fun q hq o ho => ?_, fun o ho => ?_, ?_, ?_⟩
    · rcases List.mem_cons.1 hq with rfl | hq
      · rw [operator?, others' o fun r hr => mt (reviews hr o).1 fun hr' => apart' hr hr' ho]
        exact released q (List.mem_singleton.2 rfl) o ho
      · rw [released' q hq o ((reviews hq o).2 ho), operator?, operator?, stands hq ho]
    · rw [others' o fun q hq => mt (reviews hq o).1 (ho q (List.mem_cons_of_mem _ hq))]
      exact others o fun q hq => ho q (List.mem_cons.2 (.inl (List.mem_singleton.1 hq)))
    · rw [grants', grants, List.filter_filter]
      refine List.filter_congr fun e _ => ?_
      have later : (ps.any fun q => reviewGrant t q e.2) = ps.any fun q => reviewGrant s q e.2 := by
        rw [Bool.eq_iff_iff, List.any_eq_true, List.any_eq_true]
        exact exists_congr fun q => and_congr_right fun hq => by rw [gone hq]
      rw [later, List.any_cons, List.any_cons, List.any_nil, Bool.or_false, Bool.not_or, Bool.and_comm]
    · rw [List.flatMap_cons]
      refine (by simpa using lines : Journaled (endedLines (reviewGrant s p) s) s t).trans ?_ h.time
      have same : (ps.flatMap fun q => endedLines (reviewGrant t q) t) = ps.flatMap fun q => endedLines (reviewGrant s q) s := by
        refine List.flatMap_congr fun q hq => ?_
        rw [gone hq, endedLines_elsewhere (other hq) (by simpa using grants)]
      rw [← same]
      exact lines'

/-- R145, R88: the handovers of all the positions named are dropped. -/
theorem handoversDropped (distinct : ps.Nodup) (s : State) : HandoversDropped ps s (ps.foldl dropHandover s) := by
  induction ps generalizing s with
  | nil => exact .nil s
  | cons p ps ih =>
    obtain ⟨apart, distinct'⟩ := List.nodup_cons.1 distinct
    exact (handoversDropped_one p s).cons (ih distinct' _) apart

end

/-! ### The links after a restart -/

/-- R162: a link as a warm restart leaves it. -/
structure LinkState.Restarted (l : Link) (k : LinkState) : Prop where
  flow : k.flow = .go
  up : k.up = true
  queue : k.queue = []
  snapshot : k.snapshot = []
  due : k.snapshotDue = (l != .plant)

section
variable {s : State} {l : Link}

/-- R170: without annunciation entries a SNAPSHOT is its summary alone. -/
theorem snapshotFrames_empty {p : Pos} (empty : (s.lists.get p).ann = []) :
    snapshotFrames s p = (snapshotFrame true (snapshotSummary s p), []) := by
  simp [snapshotFrames, empty, groups16]

/-- R162, R168: what a link that a warm restart has left starts first. -/
theorem startNext_restarted (h : (s.links.get l).Restarted l) (empty : ∀ p, (s.lists.get p).ann = []) :
    let k := (startNext l s).links.get l
    k.queue = [] ∧ k.snapshot = [] ∧ ((s.links.get l).sending ≠ none ∨ (s.links.get l).replies ≠ [] → k.snapshotDue = (l != .plant)) ∧
      ∀ p, l = .console p → (s.links.get l).sending = none → (s.links.get l).replies = [] →
        k.sending = some (snapshotFrame true (snapshotSummary s p)) := by
  obtain ⟨flow, up, queue, snapshot, due⟩ := h
  have may : (s.links.get l).mayNotify = true := by simp [LinkState.mayNotify, flow, up]
  rcases startNext_cases l s with busy | ⟨free, ⟨f, rest, hr⟩ | ⟨hr, hn | ⟨-, ⟨f, rest, hs⟩ | ⟨-, ⟨p, rfl, hd⟩ | ⟨hd, hq | ⟨q, rest, hq⟩⟩⟩⟩⟩⟩
  · rw [startNext_busy busy]
    exact ⟨queue, snapshot, fun _ => due, fun _ _ free => by simp [free] at busy⟩
  · rw [startNext_reply free hr, modLink_get_self]
    exact ⟨queue, snapshot, fun _ => due, fun _ _ _ idle => by simp [idle] at hr⟩
  · simp [may] at hn
  · simp [snapshot] at hs
  · rw [startNext_due free hr may snapshot hd, modLink_get_self, snapshotFrames_empty (empty p)]
    exact ⟨by simp [LinkState.sendNotice, LinkState.beginSnapshot, queue], rfl, fun h => absurd h (by simp [free, hr]),
      fun q hq _ _ => by obtain rfl : p = q := by simpa using hq
                         rfl⟩
  · have plant : l = .plant := by rcases hd with h | h <;> simp_all
    subst plant
    rw [startNext_idle free hr snapshot (.inl rfl) hq]
    exact ⟨queue, snapshot, fun _ => due, nofun⟩
  · simp [queue] at hq

theorem overflowSet_congr {t : State} (p : Pos) (alarms : t.alarms = s.alarms) (areas : t.areas = s.areas) :
    overflowSet t p = overflowSet s p := by
  have owner : areaOwner t = areaOwner s := by funext a; rw [areaOwner, areaOwner, areas]
  have before : entryBefore t = entryBefore s := by
    funext a b
    simp only [entryBefore, rankOf, priorityOf, alarmAt, alarm?_congr alarms]
  simp only [overflowSet, alarms, owner, before]

theorem snapshotSummary_congr {t : State} (p : Pos) (h : Kept [.links] s t) : snapshotSummary t p = snapshotSummary s p := by
  have positions : t.positions = s.positions := h.agrees .positions (by simp)
  have loads : t.loads = s.loads := h.agrees .loads (by simp)
  have lists : t.lists = s.lists := h.agrees .lists (by simp)
  rw [snapshotSummary, overflowSet_congr p (h.agrees .alarms (by simp)) (h.agrees .areas (by simp)), positions, loads, lists,
    snapshotSummary]

/-- R162: at the end of a command that restarts the part. -/
theorem settle_restarted (h : (s.links.get l).Restarted l) (empty : ∀ p, (s.lists.get p).ann = []) :
    let k := (settle s).links.get l
    k.flow = .go ∧ k.up = true ∧ k.queue = [] ∧ k.holdTimer = none ∧
      ((s.links.get l).sending ≠ none ∨ (s.links.get l).replies ≠ [] → k.snapshotDue = (l != .plant)) ∧
      ∀ p, l = .console p → (s.links.get l).sending = none → (s.links.get l).replies = [] →
        k.sending = some (snapshotFrame true (snapshotSummary (settle s) p)) := by
  obtain ⟨u, kept, same, ended⟩ := settle_link s l
  have lists : u.lists = s.lists := kept.agrees .lists (by simp)
  obtain ⟨queue, snapshot, due, starts⟩ := startNext_restarted (s := u) (l := l) (same ▸ h) fun p => by rw [lists]; exact empty p
  have line := settle_sameLine s l
  have summary (p : Pos) : snapshotSummary (settle s) p = snapshotSummary u p :=
    (snapshotSummary_congr p (kept_settle s)).trans (snapshotSummary_congr p kept).symm
  have flow := line.flow.trans h.flow
  have stopped : (((startNext l u).links.get l).rest (holdTimeOf s l)).holdTimer = none :=
    LinkState.rest_stopped _ (.inr (by rw [← (LinkState.rest_sameLine _ (holdTimeOf s l)).flow, ← ended]; exact flow))
  rw [same] at due starts
  rw [LinkState.rest_going _ (.inl snapshot)] at stopped ended
  refine ⟨flow, line.up.trans h.up, ?_⟩
  rw [ended]
  exact ⟨queue, stopped, due, fun p hp free idle => by rw [summary]; exact starts p hp free idle⟩

end

/-! ### RESTART -/

/-- R182: the state before the handovers are dropped. -/
abbrev restartCleared (s : State) : State :=
  let n := if s.restarts < 65535 then s.restarts + 1 else 65535
  let s := append .restart none none none n { s with restarts := n, startKind := .warm, runState := .resync }
  { s with
    alarms := s.alarms.map fun e => (e.1, { e.2 with dyn := e.2.dyn.restart }),
    lists := s.lists.map fun _ v => { v with ann := [], deferred := [], horn := false },
    escalation := [],
    loads := s.loads.map fun _ d => { d with load := 0, flood := false, limit := false } }

theorem warmRestart_eq (s : State) : warmRestart s =
    { Pos.all.foldl dropHandover (restartCleared s) with
      links := (Pos.all.foldl dropHandover (restartCleared s)).links.map fun l k => k.restart (l != .plant) } := rfl

theorem Pos.all_nodup : Pos.all.Nodup := by decide

theorem kept_mapLinks (s : State) (f : Link → LinkState → LinkState) : Kept [.links] s { s with links := s.links.map f } :=
  ⟨fun p hp => by cases p <;> simp_all [Agrees]⟩

/-- R182: what the work of a restart leaves in each part, but for the links. -/
theorem warmRestart_spec (s : State) : let t := warmRestart s
    HandoversDropped Pos.all (restartCleared s) t ∧
      Kept [.operators, .grants, .positions, .journal, .links] (restartCleared s) t ∧
      ∀ l, t.links.get l = (s.links.get l).restart (l != .plant) := by
  rw [warmRestart_eq]
  have dropped := handoversDropped Pos.all_nodup (restartCleared s)
  have kept := (quiet_foldl (restartCleared s) quiet_dropHandover Pos.all).kept
  have links : (Pos.all.foldl dropHandover (restartCleared s)).links = s.links := kept.agrees .links (by simp)
  generalize Pos.all.foldl dropHandover (restartCleared s) = u at *
  refine ⟨dropped.with_links _, (kept.mono (by simp)).trans ((kept_mapLinks u _).mono (by simp)), fun l => ?_⟩
  simp only [links, PerLink.get_map]

/-- R23: what a restart makes of an alarm point. -/
theorem alarm?_restartCleared (s : State) (i : Nat) : alarm? (restartCleared s) i = (alarm? s i).map fun a =>
    { defn := a.defn,
      dyn := { input := .unknown, lifecycle := if a.dyn.lifecycle = .outOfService then .outOfService else .normal,
               acknowledger := none, shelved := a.dyn.shelved, escalated := false, overflow := false, annTime := none,
               reminders := 0 } } :=
  Table.get?_map s.alarms (fun a => { a with dyn := a.dyn.restart } : Alarm → Alarm) i

/-- R162: a link that is about to rest after a restart. -/
theorem restarted_link {h : Header} {a : Answer} {s u : State} (l : Link)
    (links : ∀ l, u.links.get l = ((takeFrame h.link s).links.get l).restart (l != .plant)) :
    let k := (reply h .restart a u).links.get l
    k.Restarted l ∧ k.sending = (s.links.get l).sending ∧ k.rate = (s.links.get l).rate ∧
      (l ≠ h.link → k.replies = (s.links.get l).replies) := by
  have taken : ((takeFrame h.link s).links.get l).sending = (s.links.get l).sending ∧
      ((takeFrame h.link s).links.get l).rate = (s.links.get l).rate ∧
      ((takeFrame h.link s).links.get l).replies = (s.links.get l).replies := by
    rw [takeFrame, modLink_get]
    split
    · subst l; exact ⟨rfl, rfl, rfl⟩
    · exact ⟨rfl, rfl, rfl⟩
  obtain ⟨sending, rate, replies⟩ := taken
  rw [reply, modLink_get, links]
  split
  · subst l
    exact ⟨⟨rfl, rfl, rfl, rfl, rfl⟩, sending, rate, fun other => absurd rfl other⟩
  · rw [links]
    exact ⟨⟨rfl, rfl, rfl, rfl, rfl⟩, sending, rate, fun _ => replies⟩

/-- R162, R168: the links at the end of a restart whose reply goes to the plant link. -/
theorem restarted_wires {h : Header} {a : Answer} {s u : State} (plant : h.link = .plant)
    (links : ∀ l, u.links.get l = ((takeFrame h.link s).links.get l).restart (l != .plant)) (empty : ∀ p, (u.lists.get p).ann = []) :
    let t := settle (reply h .restart a u)
    (∀ p, ((s.links.get (.console p)).sending ≠ none ∨ (s.links.get (.console p)).replies ≠ [] →
        (t.links.get (.console p)).snapshotDue = true) ∧
      ((s.links.get (.console p)).sending = none → (s.links.get (.console p)).replies = [] →
        (t.links.get (.console p)).sending = some (snapshotFrame true (snapshotSummary t p)))) ∧
    ∀ l, (t.links.get l).flow = .go ∧ (t.links.get l).up = true ∧ (t.links.get l).queue = [] ∧
      (t.links.get l).holdTimer = none ∧ (t.links.get l).rate = (s.links.get l).rate := by
  have rested (l : Link) := restarted_link (a := a) l links
  have started (l : Link) := settle_restarted (rested l).1 empty
  refine ⟨fun p => ?_, fun l => ?_⟩
  · obtain ⟨-, sending, -, waiting⟩ := rested (.console p)
    obtain ⟨-, -, -, -, due, first⟩ := started (.console p)
    rw [sending, waiting (by rw [plant]; nofun)] at due first
    exact ⟨fun busy => due busy, first p rfl⟩
  · obtain ⟨flow, up, queue, stopped, -⟩ := started l
    exact ⟨flow, up, queue, stopped, (settle_sameLine (reply h .restart a u) l).rate.trans (rested l).2.2.1⟩

/-- Settles O25. -/
theorem restartRestoresTheParts : Obligations.RestartRestoresTheParts := by
  intro h s hp
  have plant : h.link = .plant := by simpa [linkAllowed, linkRule] using hp.2.1
  have still := still_warmRestart (takeFrame h.link s)
  refine request_still rfl hp rfl still fun replied => ?_
  obtain ⟨⟨positions, time, entries, plain, bound⟩, kept, links⟩ := warmRestart_spec (takeFrame h.link s)
  have written : Journaled [⟨.restart, none, none, none, (warmRestart (takeFrame h.link s)).restarts⟩] s
      (restartCleared (takeFrame h.link s)) := by
    rw [show (warmRestart (takeFrame h.link s)).restarts = (restartCleared (takeFrame h.link s)).restarts from
      (kept.agrees .device (by simp)).2.2.1]
    exact ⟨rfl, rfl⟩
  generalize warmRestart (takeFrame h.link s) = u at *
  have lists : u.lists = (restartCleared (takeFrame h.link s)).lists := kept.agrees .lists (by simp)
  obtain ⟨consoles, wires⟩ := restarted_wires (a := doneWith (be16 u.restarts)) plant links fun p => by simp [lists]
  have ended : Kept [.links] u (settle (reply h .restart (doneWith (be16 u.restarts)) u)) := (kept_reply ..).trans (kept_settle _)
  have answered : Replied .restart h (doneWith (be16 u.restarts)) s (settle (reply h .restart (doneWith (be16 u.restarts)) u)) := replied
  clear replied
  show _ ∧ _
  generalize ht : settle (reply h .restart _ u) = t
  have ht' : settle (reply h .restart (doneWith (be16 u.restarts)) u) = t := ht
  rw [ht'] at consoles wires ended answered
  have after {ls : List Line} (k : Journaled ls (restartCleared (takeFrame h.link s)) u) :
      Journaled (⟨.restart, none, none, none, u.restarts⟩ :: ls) s t :=
    (written.trans k rfl).before (.of_kept ended (by simp)) time
  obtain ⟨run, kind, count, relay, hold⟩ := ended.agrees .device (by simp)
  obtain ⟨run', kind', count', relay', hold'⟩ := kept.agrees .device (by simp)
  have operators : t.operators = u.operators := ended.agrees .operators (by simp)
  have grants : t.grants = u.grants := ended.agrees .grants (by simp)
  have alarms : t.alarms = (restartCleared (takeFrame h.link s)).alarms :=
    Eq.trans (ended.agrees .alarms (by simp)) (kept.agrees .alarms (by simp))
  rw [count]
  refine ⟨run.trans run', kind.trans kind', count', relay.trans relay', hold.trans hold', answered, ?_, fun calm => ?_, fun wf engaged => ?_, consoles,
    fun i => ?_, ?_, fun p => ⟨?_, ?_, ?_⟩, wires, ?_⟩
  · obtain ⟨ls, more⟩ := entries
    exact ⟨ls, after more⟩
  · obtain ⟨none, operators', grants'⟩ := plain fun p _ => calm p
    exact ⟨after none, operators.trans operators', grants.trans grants'⟩
  · obtain ⟨released, others, grants', lines⟩ := bound wf fun p _ review => by
      obtain ⟨o, named, at_p⟩ := engaged p review
      exact ⟨o, ⟨review, named⟩, at_p⟩
    refine ⟨fun p o review named => ?_, fun o none => ?_, ?_, after lines⟩
    · rw [operator?_congr operators]
      exact released p (Pos.mem_all p) o ⟨review, named⟩
    · rw [operators]
      exact others o fun p _ ho => none p ho.1 ho.2
    · exact grantsEnded_of_filter wf (grants.trans grants')
  · rw [alarm?_congr alarms]
    exact alarm?_restartCleared ..
  · exact Eq.trans (ended.agrees .escalation (by simp)) (kept.agrees .escalation (by simp))
  · rw [show t.lists = u.lists from ended.agrees .lists (by simp), lists]
    simp
  · rw [show t.loads = (restartCleared (takeFrame h.link s)).loads from
      Eq.trans (ended.agrees .loads (by simp)) (kept.agrees .loads (by simp))]
    simp
  · rw [show t.positions = u.positions from ended.agrees .positions (by simp), positions, if_pos (Pos.mem_all p)]
    rfl
  · exact (((kept_takeFrame ..).mono (by simp)).trans (still.kept.mono (by simp))).trans (ended.mono (by simp))

end Sys2Proof.Machine
end

section
/-! PROOFS. The alarms in their places (R24 to R26): which alarms stand on the lists, in which order and with which annunciation time,
and what each operation of the PLU makes of that. -/

namespace Sys2Proof.Machine

/-! ### Rank order -/

theorem outranks_iff {a b : Nat × Nat × Nat} : outranks a b = true ↔
    a.1 < b.1 ∨ a.1 = b.1 ∧ (a.2.1 < b.2.1 ∨ a.2.1 = b.2.1 ∧ a.2.2 < b.2.2) := by simp [outranks]

theorem outranks_trans {a b c : Nat × Nat × Nat} (h : outranks a b = true) (k : outranks b c = true) :
    outranks a c = true := by
  rw [outranks_iff] at *; omega

/-- Section 0.5.3: of two different alarms one outranks the other. -/
theorem outranks_total {a b : Nat × Nat × Nat} (other : b.2.2 ≠ a.2.2) (h : outranks a b = false) : outranks b a = true := by
  rw [← Bool.not_eq_true, outranks_iff] at h
  rw [outranks_iff]; omega

section insertion
variable {α : Type} {before : α → α → Bool} {x : α} {l : List α}

theorem perm_insertBy (before : α → α → Bool) (x : α) (l : List α) : (insertBy before x l).Perm (x :: l) := by
  induction l with
  | nil => exact .refl _
  | cons y l ih =>
    unfold insertBy
    split
    · exact .refl _
    · exact (ih.cons y).trans (.swap x y l)

/-- R24: an insertion at the place the order gives keeps the order. -/
theorem pairwise_insertBy {R : α → α → Prop} (sorted : l.Pairwise R) (ahead : ∀ y ∈ l, before x y = true → R x y)
    (behind : ∀ y ∈ l, before x y = false → R y x) (trans : ∀ y z, R x y → R y z → R x z) : (insertBy before x l).Pairwise R := by
  induction l with
  | nil => exact List.pairwise_singleton ..
  | cons y l ih =>
    obtain ⟨first, rest⟩ := List.pairwise_cons.1 sorted
    unfold insertBy
    split
    · rename_i here
      have beats := ahead y List.mem_cons_self here
      exact List.pairwise_cons.2 ⟨fun z hz => (List.mem_cons.1 hz).elim (fun same => same ▸ beats) fun hz => trans y z beats (first z hz), sorted⟩
    · rename_i later
      refine List.pairwise_cons.2 ⟨fun z hz => ?_, ih rest (fun z hz => ahead z (List.mem_cons_of_mem _ hz))
        fun z hz => behind z (List.mem_cons_of_mem _ hz)⟩
      rcases mem_insertBy.1 hz with rfl | hz
      · exact behind y List.mem_cons_self (Bool.not_eq_true _ ▸ later)
      · exact first z hz

theorem map_insertBy {β : Type} (f : α → β) (after : β → β → Bool) (h : ∀ a b, before a b = after (f a) (f b)) (x : α) (l : List α) :
    (insertBy before x l).map f = insertBy after (f x) (l.map f) := by
  induction l with
  | nil => rfl
  | cons y l ih =>
    rw [List.map_cons, insertBy, insertBy, h]
    split
    · rfl
    · rw [List.map_cons, ih]

end insertion

theorem InRankOrder.congr {s t : State} {l : List ListEntry} (h : InRankOrder s l)
    (same : ∀ e ∈ l, priorityOf t e.alarm = priorityOf s e.alarm) : InRankOrder t l := by
  refine ⟨h.1.imp_of_mem fun {a b} ha hb r => ?_, h.2⟩
  rw [rankOf, rankOf, same a ha, same b hb]
  exact r

theorem InRankOrder.sublist {s : State} {l m : List ListEntry} (h : InRankOrder s l) (sub : m.Sublist l) : InRankOrder s m :=
  ⟨h.1.sublist sub, h.2.sublist (sub.map _)⟩

theorem InRankOrder.insertBy {s : State} {l : List ListEntry} {e : ListEntry} (h : InRankOrder s l)
    (fresh : ∀ x ∈ l, x.alarm ≠ e.alarm) : InRankOrder s (insertBy (entryBefore s) e l) := by
  refine ⟨pairwise_insertBy h.1 (fun _ _ r => r) (fun x hx r => outranks_total (fresh x hx) r) fun _ _ => outranks_trans, ?_⟩
  refine (((perm_insertBy ..).map _).nodup_iff).2 (List.nodup_cons.2 ⟨fun mem => ?_, h.2⟩)
  obtain ⟨x, hx, same⟩ := List.mem_map.1 mem
  exact fresh x hx same

/-! ### The places -/

/-- Table 2-1: the alarms and annunciation times of an annunciation list. -/
abbrev annEntries (s : State) (p : Pos) : List ListEntry := (s.lists.get p).ann.map (·.listed)

theorem onAnn_iff {s : State} {p : Pos} {i : Nat} : onAnn s p i = true ↔ ∃ e ∈ annEntries s p, e.alarm = i := by
  simp [onAnn, AnnEntry.listed]

theorem onDeferred_iff {s : State} {p : Pos} {i : Nat} :
    onDeferred s p i = true ↔ ∃ e ∈ (s.lists.get p).deferred, e.alarm = i := by
  simp [onDeferred]

/-- R25: the records of an overflow set. -/
theorem overflowSet_record {s : State} (wf : s.alarms.wf = true) {p : Pos} {e : ListEntry} (h : e ∈ overflowSet s p) :
    ∃ a, alarm? s e.alarm = some a ∧ a.dyn.overflow = true ∧ areaOwner s a.defn.area = p ∧ e.time = a.dyn.annTime.getD 0 := by
  simp only [overflowSet, mem_foldl_insertBy, List.not_mem_nil, false_or, List.mem_filterMap] at h
  obtain ⟨⟨i, a⟩, mem, made⟩ := h
  split at made
  · rename_i marked
    simp only [Bool.and_eq_true, beq_iff_eq] at marked
    rw [← Option.some.inj made]
    exact ⟨a, Table.get?_of_mem wf mem, marked.1, marked.2, rfl⟩
  · cases made

/-- What the places of an alarm depend on. -/
def Alarm.sited (a : Alarm) : Nat × Option Word × Bool := (a.defn.priority, a.dyn.annTime, a.dyn.overflow)

/-- R24 to R26: the lists are in order; their entries name defined alarms with the annunciation times they hold; and the alarms
that are wanted, and no others, stand in exactly one of the three places of their homes. -/
structure Sited (want : Nat → Bool) (home : Nat → Pos) (s : State) : Prop where
  wf : s.alarms.wf = true
  ann : ∀ p, InRankOrder s (annEntries s p)
  deferred : ∀ p, InRankOrder s (s.lists.get p).deferred
  named : ∀ p, ∀ e ∈ annEntries s p ++ (s.lists.get p).deferred,
    home e.alarm = p ∧ ∃ a, alarm? s e.alarm = some a ∧ a.dyn.annTime = some e.time
  marked : ∀ i, (alarmAt s i).dyn.overflow = true → (alarmAt s i).dyn.annTime.isSome = true
  places : ∀ i, (onAnn s (home i) i).toNat + (onDeferred s (home i) i).toNat + (alarmAt s i).dyn.overflow.toNat = (want i).toNat

/-- A wish list with one alarm's wish written. -/
abbrev wish (want : Nat → Bool) (i : Nat) (b : Bool) : Nat → Bool := Function.update want i b

namespace Sited
variable {want : Nat → Bool} {home : Nat → Pos} {s t : State} {p : Pos} {i : Nat}

theorem home_of_onAnn (h : Sited want home s) (on : onAnn s p i = true) : home i = p := by
  obtain ⟨e, he, rfl⟩ := onAnn_iff.1 on
  exact (h.named p e (List.mem_append_left _ he)).1

theorem home_of_onDeferred (h : Sited want home s) (on : onDeferred s p i = true) : home i = p := by
  obtain ⟨e, he, rfl⟩ := onDeferred_iff.1 on
  exact (h.named p e (List.mem_append_right _ he)).1

/-- An alarm that is not wanted stands nowhere. -/
theorem absent (h : Sited want home s) (off : want i = false) :
    onAnn s p i = false ∧ onDeferred s p i = false ∧ (alarmAt s i).dyn.overflow = false := by
  have none := h.places i
  rw [off] at none
  have zero (b : Bool) (hb : b.toNat = 0) : b = false := by cases b <;> simp_all
  refine ⟨?_, ?_, zero _ (by rw [Bool.toNat_false] at none; omega)⟩
  · refine Bool.not_eq_true _ ▸ fun on => ?_
    rw [h.home_of_onAnn on, on] at none
    simp at none
  · refine Bool.not_eq_true _ ▸ fun on => ?_
    rw [h.home_of_onDeferred on, on] at none
    simp at none

theorem fresh_ann (h : Sited want home s) (off : want i = false) : ∀ x ∈ annEntries s p, x.alarm ≠ i := fun x hx same =>
  Bool.false_ne_true ((h.absent off).1.symm.trans (onAnn_iff.2 ⟨x, hx, same⟩))

theorem fresh_deferred (h : Sited want home s) (off : want i = false) :
    ∀ x ∈ (s.lists.get p).deferred, x.alarm ≠ i := fun x hx same =>
  Bool.false_ne_true ((h.absent off).2.1.symm.trans (onDeferred_iff.2 ⟨x, hx, same⟩))

/-- The places after work on one alarm. -/
theorem places_wish {b : Bool} (h : Sited want home s)
    (others : ∀ j, j ≠ i → onAnn t (home j) j = onAnn s (home j) j ∧ onDeferred t (home j) j = onDeferred s (home j) j ∧
      (alarmAt t j).dyn.overflow = (alarmAt s j).dyn.overflow)
    (here : (onAnn t (home i) i).toNat + (onDeferred t (home i) i).toNat + (alarmAt t i).dyn.overflow.toNat = b.toNat) (j : Nat) :
    (onAnn t (home j) j).toNat + (onDeferred t (home j) j).toNat + (alarmAt t j).dyn.overflow.toNat = (wish want i b j).toNat := by
  by_cases same : j = i
  · subst same
    rw [wish, Function.update_self]
    exact here
  · obtain ⟨ann, deferred, overflow⟩ := others j same
    rw [wish, Function.update_of_ne same, ann, deferred, overflow]
    exact h.places j

/-- Work that leaves the lists but for reminders and silenced markers, and what the places read of the alarms. -/
theorem same (h : Sited want home s) (wf : t.alarms.wf = true) (ann : ∀ p, annEntries t p = annEntries s p)
    (deferred : ∀ p, (t.lists.get p).deferred = (s.lists.get p).deferred)
    (records : ∀ j, (alarm? t j).map Alarm.sited = (alarm? s j).map Alarm.sited) : Sited want home t := by
  have at_j (j : Nat) : (alarmAt t j).sited = (alarmAt s j).sited := by
    have same := records j
    simp only [alarmAt]
    cases ht : alarm? t j <;> cases hs : alarm? s j <;> simp_all
  have priority (j : Nat) : priorityOf t j = priorityOf s j := congrArg Prod.fst (at_j j)
  have time (j : Nat) : (alarmAt t j).dyn.annTime = (alarmAt s j).dyn.annTime := congrArg (·.2.1) (at_j j)
  have marker (j : Nat) : (alarmAt t j).dyn.overflow = (alarmAt s j).dyn.overflow := congrArg (·.2.2) (at_j j)
  have on (q : Pos) (j : Nat) : onAnn t q j = onAnn s q j := by rw [Bool.eq_iff_iff, onAnn_iff, onAnn_iff, ann]
  have off (q : Pos) (j : Nat) : onDeferred t q j = onDeferred s q j := by rw [onDeferred, onDeferred, deferred]
  refine ⟨wf, fun p => ann p ▸ (h.ann p).congr fun e _ => priority _, fun p => deferred p ▸ (h.deferred p).congr fun e _ => priority _,
    fun p e he => ?_, fun j hj => by rw [time]; exact h.marked j (marker j ▸ hj), fun j => by rw [on, off, marker]; exact h.places j⟩
  rw [ann, deferred] at he
  obtain ⟨at_p, a, present, held⟩ := h.named p e he
  have found := records e.alarm
  rw [present] at found
  obtain ⟨b, hb, fields⟩ := Option.map_eq_some_iff.1 found
  exact ⟨at_p, b, hb, (congrArg (·.2.1) fields).trans held⟩

/-- R32, R33: an alarm leaves an annunciation list. -/
theorem leaveAnn (h : Sited want home s) (on : onAnn s p i = true) : Sited (wish want i false) home (leaveAnn p i s) := by
  have at_p := h.home_of_onAnn on
  have rest (q : Pos) : (annEntries (Machine.leaveAnn p i s) q).Sublist (annEntries s q) := by
    rw [annEntries, leaveAnn_lists]
    split
    · subst q; exact List.filter_sublist.map _
    · exact .refl _
  have deferred (q : Pos) : ((Machine.leaveAnn p i s).lists.get q).deferred = (s.lists.get q).deferred := by
    rw [leaveAnn_lists]; split
    · subst q; rfl
    · rfl
  refine ⟨h.wf, fun q => (h.ann q).sublist (rest q), fun q => deferred q ▸ h.deferred q, fun q e he => h.named q e ?_, h.marked,
    h.places_wish (fun j hj => ⟨?_, onDeferred_leaveAnn .., rfl⟩) ?_⟩
  · rw [deferred] at he
    exact List.mem_append.2 ((List.mem_append.1 he).imp_left ((rest q).subset ·))
  · rw [onAnn_leaveAnn, if_neg fun x => hj x.2]
  · have one := h.places i
    rw [at_p, on] at one
    rw [at_p, onAnn_leaveAnn, if_pos ⟨rfl, rfl⟩, onDeferred_leaveAnn]
    have most := Bool.toNat_le (want i)
    simp only [Bool.toNat_true, Bool.toNat_false] at one ⊢
    show 0 + _ + (alarmAt s i).dyn.overflow.toNat = 0
    omega

/-- R32, R33: an alarm leaves a deferred list. -/
theorem leaveDeferred (h : Sited want home s) (on : onDeferred s p i = true) :
    Sited (wish want i false) home (leaveDeferred p i s) := by
  have at_p := h.home_of_onDeferred on
  have ann (q : Pos) : annEntries (Machine.leaveDeferred p i s) q = annEntries s q := by
    rw [annEntries, Machine.leaveDeferred, modLists_get]; split
    · subst q; rfl
    · rfl
  have rest (q : Pos) : ((Machine.leaveDeferred p i s).lists.get q).deferred.Sublist (s.lists.get q).deferred := by
    rw [Machine.leaveDeferred, modLists_get]
    split
    · subst q; exact List.filter_sublist
    · exact .refl _
  refine ⟨h.wf, fun q => ann q ▸ h.ann q, fun q => (h.deferred q).sublist (rest q), fun q e he => h.named q e ?_, h.marked,
    h.places_wish (fun j hj => ⟨onAnn_leaveDeferred .., ?_, rfl⟩) ?_⟩
  · rw [ann] at he
    exact List.mem_append.2 ((List.mem_append.1 he).imp_right ((rest q).subset ·))
  · rw [onDeferred_leaveDeferred, if_neg fun x => hj x.2]
  · have one := h.places i
    rw [at_p, on] at one
    rw [at_p, onDeferred_leaveDeferred, if_pos ⟨rfl, rfl⟩, onAnn_leaveDeferred]
    have most := Bool.toNat_le (want i)
    simp only [Bool.toNat_true, Bool.toNat_false] at one ⊢
    show _ + 0 + (alarmAt s i).dyn.overflow.toNat = 0
    omega

/-- An alarm's record is written, and it is not on the lists. -/
theorem modDyn {b : Bool} {f : AlarmDyn → AlarmDyn} (h : Sited want home s) (ann : onAnn s (home i) i = false)
    (deferred : onDeferred s (home i) i = false)
    (marker : ∀ a, alarm? s i = some a → (f a.dyn).overflow = b ∧ (b = true → (f a.dyn).annTime.isSome = true))
    (defined : b = true → (alarm? s i).isSome = true) : Sited (wish want i b) home (modDyn i f s) := by
  have nowhere (q : Pos) : ∀ e ∈ annEntries s q ++ (s.lists.get q).deferred, e.alarm ≠ i := fun e he same => by
    have at_q := (h.named q e he).1
    rw [same] at at_q
    rw [at_q] at ann deferred
    rcases List.mem_append.1 he with he | he
    · exact Bool.false_ne_true (ann.symm.trans (onAnn_iff.2 ⟨e, he, same⟩))
    · exact Bool.false_ne_true (deferred.symm.trans (onDeferred_iff.2 ⟨e, he, same⟩))
  have priority (j : Nat) : priorityOf (Machine.modDyn i f s) j = priorityOf s j := by
    rw [priorityOf, priorityOf, alarmAt, alarm?_modDyn, alarmAt]
    split
    · subst j; cases alarm? s i <;> rfl
    · rfl
  have others {j : Nat} (hj : j ≠ i) : alarmAt (Machine.modDyn i f s) j = alarmAt s j := by
    rw [alarmAt, alarm?_modDyn_ne hj, alarmAt]
  have here : (alarmAt (Machine.modDyn i f s) i).dyn.overflow = b ∧
      (b = true → (alarmAt (Machine.modDyn i f s) i).dyn.annTime.isSome = true) := by
    rw [alarmAt_modDyn_self]
    cases present : alarm? s i with
    | none =>
      have off : b = false := Bool.not_eq_true _ ▸ fun on => by simpa [present] using defined on
      subst off
      exact ⟨rfl, nofun⟩
    | some a => simpa [alarmAt_eq present] using marker a present
  refine ⟨wf_modDyn h.wf .., fun q => (h.ann q).congr fun e _ => priority _, fun q => (h.deferred q).congr fun e _ => priority _,
    fun q e he => ?_, fun j hj => ?_, h.places_wish (fun j hj => ⟨rfl, rfl, by rw [others hj]⟩) ?_⟩
  · obtain ⟨at_q, a, present, held⟩ := h.named q e he
    exact ⟨at_q, a, by rw [alarm?_modDyn_ne (nowhere q e he)]; exact present, held⟩
  · by_cases same : j = i
    · subst same; exact here.2 (here.1 ▸ hj)
    · rw [others same] at hj ⊢; exact h.marked j hj
  · rw [here.1]
    show (onAnn s (home i) i).toNat + (onDeferred s (home i) i).toNat + b.toNat = b.toNat
    rw [ann, deferred]; simp

theorem wish_self {b : Bool} (h : want i = b) : wish want i b = want := by rw [← h]; exact Function.update_eq_self ..

theorem wish_wish (want : Nat → Bool) (i : Nat) (b c : Bool) :
    wish (wish want i b) i c = wish want i c := Function.update_idem ..

/-- R27: an alarm in no place is given an annunciation time. -/
theorem stamped (h : Sited want home s) (off : want i = false) (time : Word) : Sited want home (stamped i time s) := by
  obtain ⟨ann, deferred, clear⟩ := h.absent off
  refine wish_self off ▸ h.modDyn (b := false) ann deferred (fun a present => ⟨?_, nofun⟩) nofun
  rw [alarmAt_eq present] at clear
  exact clear

/-- R28: an alarm in no place goes to overflow. -/
theorem overflowed (h : Sited want home s) (off : want i = false) (timed : (alarmAt s i).dyn.annTime.isSome = true)
    (defined : (alarm? s i).isSome = true) : Sited (wish want i true) home (setOverflow i true s) := by
  obtain ⟨ann, deferred, -⟩ := h.absent off
  exact h.modDyn ann deferred (fun a present => ⟨rfl, fun _ => alarmAt_eq present ▸ timed⟩) fun _ => defined

/-- An alarm that is on no list leaves overflow, where it was there. -/
theorem cleared (h : Sited want home s) (ann : onAnn s (home i) i = false) (deferred : onDeferred s (home i) i = false) :
    Sited (wish want i false) home (setOverflow i false s) := h.modDyn ann deferred (fun _ _ => ⟨rfl, nofun⟩) nofun

/-- R28: an alarm in no place enters a deferred list at its place. -/
theorem entersDeferred {time : Word} (h : Sited want home s) (off : want i = false) (at_p : home i = p) {a : Alarm}
    (present : alarm? s i = some a) (held : a.dyn.annTime = some time) :
    Sited (wish want i true) home (modLists p (fun v => { v with deferred := insertBy (entryBefore s) ⟨i, time⟩ v.deferred }) s) := by
  generalize ht : modLists p (fun v => { v with deferred := insertBy (entryBefore s) ⟨i, time⟩ v.deferred }) s = t
  have ann (q : Pos) : annEntries t q = annEntries s q := by
    rw [← ht, annEntries, modLists_get]; split
    · subst q; rfl
    · rfl
  have deferred (q : Pos) : (t.lists.get q).deferred = if q = p then insertBy (entryBefore s) ⟨i, time⟩ (s.lists.get q).deferred
      else (s.lists.get q).deferred := by
    rw [← ht, modLists_get]; split
    · subst q; rfl
    · rfl
  have alarms : t.alarms = s.alarms := ht ▸ rfl
  have record (j : Nat) : alarm? t j = alarm? s j := alarm?_congr alarms j
  have on (q : Pos) (j : Nat) : onAnn t q j = onAnn s q j := by rw [Bool.eq_iff_iff, onAnn_iff, onAnn_iff, ann]
  have waits (q : Pos) (j : Nat) : onDeferred t q j = ((q == p && i == j) || onDeferred s q j) := by
    rw [onDeferred, onDeferred, deferred]
    by_cases hq : q = p
    · subst hq; simp [any_insertBy]
    · simp [hq]
  obtain ⟨ann', deferred', clear⟩ := h.absent off
  refine ⟨alarms ▸ h.wf, fun q => ann q ▸ (h.ann q).congr fun e _ => by rw [priorityOf, priorityOf, alarmAt, alarmAt, record], fun q => ?_,
    fun q e he => ?_, fun j hj => by rw [alarmAt, record] at *; exact h.marked j hj, h.places_wish (fun j hj => ⟨on .., ?_, by rw [alarmAt, alarmAt, record]⟩) ?_⟩
  · rw [deferred]
    have same (l : List ListEntry) (k : InRankOrder s l) : InRankOrder t l := k.congr fun e _ => by
      rw [priorityOf, priorityOf, alarmAt, alarmAt, record]
    split
    · exact same _ ((h.deferred q).insertBy (h.fresh_deferred off))
    · exact same _ (h.deferred q)
  · rw [ann, deferred] at he
    rw [record]
    split at he
    · rename_i hq
      rcases List.mem_append.1 he with he | he
      · exact h.named q e (List.mem_append_left _ he)
      · rcases mem_insertBy.1 he with rfl | he
        · exact ⟨at_p.trans hq.symm, a, present, held⟩
        · exact h.named q e (List.mem_append_right _ he)
    · exact h.named q e he
  · rw [waits]; simp [beq_eq_false_iff_ne.2 (Ne.symm hj)]
  · rw [on, waits, at_p, alarmAt, record, ← alarmAt, clear]
    rw [ann']
    simp

/-- R27: an alarm in no place enters an annunciation list at its place. -/
theorem joinAnn {time : Word} (h : Sited want home s) (off : want i = false) (at_p : home i = p) {a : Alarm}
    (present : alarm? s i = some a) (held : a.dyn.annTime = some time) : Sited (wish want i true) home (joinAnn p i time s) := by
  generalize ht : Machine.joinAnn p i time s = t
  have ann (q : Pos) : annEntries t q = if q = p then insertBy (entryBefore s) ⟨i, time⟩ (annEntries s q) else annEntries s q := by
    rw [← ht, annEntries]
    by_cases hq : q = p
    · subst hq
      rw [joinAnn_ann, if_pos rfl]
      exact map_insertBy (before := annBefore s) AnnEntry.listed (entryBefore s) (fun _ _ => rfl) ..
    · rw [(atPos_joinAnn p s i time).lists q hq, if_neg hq]
  have deferred (q : Pos) : (t.lists.get q).deferred = (s.lists.get q).deferred := by rw [← ht, joinAnn_fields]
  have record (j : Nat) : alarm? t j = alarm? s j := alarm?_congr (ht ▸ rfl) j
  have on (q : Pos) (j : Nat) : onAnn t q j = ((q == p && i == j) || onAnn s q j) := by
    rw [Bool.eq_iff_iff, onAnn_iff, Bool.or_eq_true, onAnn_iff, ann]
    by_cases hq : q = p
    · subst hq; simp [mem_insertBy]
    · simp [hq]
  have waits (q : Pos) (j : Nat) : onDeferred t q j = onDeferred s q j := by rw [onDeferred, onDeferred, deferred]
  have same (l : List ListEntry) (k : InRankOrder s l) : InRankOrder t l := k.congr fun e _ => by
    rw [priorityOf, priorityOf, alarmAt, alarmAt, record]
  obtain ⟨ann', deferred', clear⟩ := h.absent off
  refine ⟨(show t.alarms = s.alarms from ht ▸ rfl) ▸ h.wf, fun q => ?_, fun q => deferred q ▸ same _ (h.deferred q), fun q e he => ?_,
    fun j hj => by rw [alarmAt, record] at *; exact h.marked j hj, h.places_wish (fun j hj => ⟨?_, waits .., by rw [alarmAt, alarmAt, record]⟩) ?_⟩
  · rw [ann]
    split
    · exact same _ ((h.ann q).insertBy (h.fresh_ann off))
    · exact same _ (h.ann q)
  · rw [ann, deferred] at he
    rw [record]
    split at he
    · rename_i hq
      rcases List.mem_append.1 he with he | he
      · rcases mem_insertBy.1 he with rfl | he
        · exact ⟨at_p.trans hq.symm, a, present, held⟩
        · exact h.named q e (List.mem_append_left _ he)
      · exact h.named q e (List.mem_append_right _ he)
    · exact h.named q e he
  · rw [on]; simp [beq_eq_false_iff_ne.2 (Ne.symm hj)]
  · rw [on, waits, at_p, alarmAt, record, ← alarmAt, clear]
    rw [deferred']
    simp

theorem wanted_of_onAnn (h : Sited want home s) (on : onAnn s p i = true) : want i = true :=
  Bool.not_eq_false _ ▸ fun off => Bool.false_ne_true ((h.absent off).1.symm.trans on)

theorem wanted_of_onDeferred (h : Sited want home s) (on : onDeferred s p i = true) : want i = true :=
  Bool.not_eq_false _ ▸ fun off => Bool.false_ne_true ((h.absent off).2.1.symm.trans on)

theorem wanted_of_overflow (h : Sited want home s) (on : (alarmAt s i).dyn.overflow = true) : want i = true :=
  Bool.not_eq_false _ ▸ fun off => Bool.false_ne_true ((h.absent (p := .p0) off).2.2.symm.trans on)

/-- R28: an alarm that is on no list enters a deferred list, from overflow or anew. -/
theorem joinDeferred {time : Word} (h : Sited want home s) (ann : onAnn s (home i) i = false) (deferred : onDeferred s (home i) i = false)
    (at_p : home i = p) {a : Alarm} (present : alarm? s i = some a) (held : a.dyn.annTime = some time) :
    Sited (wish want i true) home (joinDeferred p i time s) := by
  have away := h.cleared ann deferred
  have record : alarm? (setOverflow i false s) i = some { a with dyn := { a.dyn with overflow := false } } := alarm?_modDyn_self present _
  exact wish_wish want i false true ▸ away.entersDeferred (Function.update_self ..) at_p record held

/-- R28: deferred insertion of an alarm that is in no place. -/
theorem insertDeferred {time : Word} (h : Sited want home s) (off : want i = false) (at_p : home i = p) {a : Alarm}
    (present : alarm? s i = some a) (held : a.dyn.annTime = some time) : Sited (wish want i true) home (insertDeferred p i time s) := by
  obtain ⟨ann, deferred, -⟩ := h.absent off
  have marks : Sited (wish want i true) home (setOverflow i true s) :=
    h.overflowed off (by rw [alarmAt_eq present, held]; rfl) (by rw [present]; rfl)
  simp only [Machine.insertDeferred]
  split
  · exact h.joinDeferred ann deferred at_p present held
  · split
    · rename_i low last
      split
      · have mem : low ∈ (s.lists.get p).deferred := List.mem_of_getLast? last
        have on := onDeferred_of_mem mem
        have wanted := h.wanted_of_onDeferred on
        have other : low.alarm ≠ i := fun same => by rw [same, off] at wanted; cases wanted
        obtain ⟨-, b, present', held'⟩ := h.named p low (List.mem_append_right _ mem)
        have gone := h.leaveDeferred on
        have moved : Sited want home (setOverflow low.alarm true (Machine.leaveDeferred p low.alarm s)) := by
          have put := gone.overflowed (Function.update_self ..) (by rw [alarmAt_eq (s := Machine.leaveDeferred p low.alarm s) present', held']; rfl)
            (by rw [show alarm? (Machine.leaveDeferred p low.alarm s) low.alarm = some b from present']; rfl)
          rwa [wish_wish, wish_self wanted] at put
        obtain ⟨ann', deferred', -⟩ := moved.absent off
        refine moved.joinDeferred ann' deferred' at_p (a := a) ?_ held
        rw [setOverflow, alarm?_modDyn_ne (Ne.symm other)]
        exact present
      · exact marks
    · exact marks

/-- R27: the lowest entry of an annunciation list goes to deferred insertion. -/
theorem displaced {low : AnnEntry} (h : Sited want home s) (mem : low ∈ (s.lists.get p).ann) :
    Sited want home (displaced p low s) := by
  have listed : low.listed ∈ annEntries s p := List.mem_map_of_mem mem
  have on : onAnn s p low.alarm = true := onAnn_iff.2 ⟨_, listed, rfl⟩
  obtain ⟨at_p, b, present, held⟩ := h.named p _ (List.mem_append_left _ listed)
  have gone := h.leaveAnn on
  have told : Sited (wish want low.alarm false) home (notify (.console p) (.retract low.alarm .displaced) (Machine.leaveAnn p low.alarm s)) :=
    gone.same gone.wf (fun _ => rfl) (fun _ => rfl) fun _ => rfl
  have put := told.insertDeferred (Function.update_self ..) at_p (a := b) present held
  rwa [wish_wish, wish_self (h.wanted_of_onAnn on)] at put

/-- R27: an alarm that is in no place is placed on the lists of its home. -/
theorem placeOnLists (h : Sited want home s) (off : want i = false) (at_p : home i = p) {a : Alarm} (present : alarm? s i = some a)
    (time : Word) : Sited (wish want i true) home (placeOnLists p i time s) := by
  have timed := h.stamped off time
  have record : alarm? (Machine.stamped i time s) i = some { a with dyn := { a.dyn with annTime := some time } } := alarm?_modDyn_self present _
  rcases placeOnLists_ways p i time s .normal with ⟨way, -⟩ | ⟨way, -⟩ | ⟨low, last, way, -⟩ <;> rw [way]
  · exact timed.insertDeferred off at_p record rfl
  · exact timed.joinAnn off at_p record rfl
  · have mem : low ∈ ((Machine.stamped i time s).lists.get p).ann := List.mem_of_getLast? last
    have room := timed.displaced mem
    obtain ⟨m, marked⟩ := (marksOnly_displaced p low (Machine.stamped i time s)).find record
    exact room.joinAnn off at_p marked rfl

/-- R33: a deferred alarm is promoted. -/
theorem promoted {e : ListEntry} (h : Sited want home s) (mem : e ∈ (s.lists.get p).deferred) :
    Sited want home (promoted p e s) := by
  have on := onDeferred_of_mem mem
  obtain ⟨at_p, a, present, held⟩ := h.named p e (List.mem_append_right _ mem)
  have put := (h.leaveDeferred on).joinAnn (Function.update_self ..) at_p (a := a) present held
  rwa [wish_wish, wish_self (h.wanted_of_onDeferred on)] at put

/-- R34: an alarm in overflow enters the deferred list of its owning position. -/
theorem refill (h : Sited want home s) (homes : ∀ i, want i = true → home i = ownerOf s i) (p : Pos) :
    Sited want home (refill p s) := by
  unfold Machine.refill
  split
  · split
    · rename_i e _ found
      have mem : e ∈ overflowSet s p := by rw [found]; exact List.mem_cons_self
      obtain ⟨a, present, -, -, time⟩ := overflowSet_record h.wf mem
      obtain ⟨marked, owner⟩ := overflowSet_spec h.wf mem
      have wanted := h.wanted_of_overflow marked
      have at_p := (homes _ wanted).trans owner
      have one := h.places e.alarm
      rw [marked, wanted] at one
      have zero (b : Bool) (hb : b.toNat = 0) : b = false := by cases b <;> simp_all
      simp only [Bool.toNat_true] at one
      have held : a.dyn.annTime = some e.time := by
        have some' := h.marked _ marked
        rw [alarmAt_eq present] at some'
        obtain ⟨x, hx⟩ := Option.isSome_iff_exists.1 some'
        rw [time, hx]; rfl
      have put := h.joinDeferred (zero _ (by omega)) (zero _ (by omega)) at_p present held
      rwa [wish_self wanted] at put
    · exact h
  · exact h

/-- An alarm that is in no place may change its home. -/
theorem rehomed {home' : Nat → Pos} (h : Sited want home s) (homes : ∀ i, want i = true → home' i = home i) :
    Sited want home' s := by
  refine ⟨h.wf, h.ann, h.deferred, fun p e he => ?_, h.marked, fun i => ?_⟩
  · obtain ⟨at_p, a, present, held⟩ := h.named p e he
    refine ⟨(homes _ ?_).trans at_p, a, present, held⟩
    rcases List.mem_append.1 he with he | he
    · exact h.wanted_of_onAnn (onAnn_iff.2 ⟨e, he, rfl⟩)
    · exact h.wanted_of_onDeferred (onDeferred_iff.2 ⟨e, he, rfl⟩)
  · cases wanted : want i with
    | true => rw [homes i wanted, h.places i, wanted]
    | false =>
      obtain ⟨ann, -, clear⟩ := h.absent (p := home' i) wanted
      rw [ann, (h.absent wanted).2.1, clear]
      rfl

end Sited

end Sys2Proof.Machine
end

section
/-! PROOFS. Reminders and horn lines (R38, R43), and the work of the PLU and LDU that leaves every alarm wanted as it was: promotion, refill,
flood evaluation and reports. -/

namespace Sys2Proof.Machine

/-! ### Reminders and horns, but for alarms whose lifecycle has just changed -/

section
variable (stale : Nat → Prop) (s : State) (p : Pos)

/-- R38: the reminders of a position run where they are to run, but for the alarms that are stale. -/
def RemindersRight : Prop := ∀ e ∈ (s.lists.get p).ann, ¬ stale e.alarm → (e.reminder.isSome = true ↔ reminderRuns s p e.alarm = true)

/-- R43: the horn line of a position is as judged, or a stale alarm stands on its annunciation list. -/
def HornRight : Prop := (∃ e ∈ (s.lists.get p).ann, stale e.alarm) ∨ (s.lists.get p).horn = hornSounds s p

end

section
variable {s t u : State} {p q : Pos}

theorem reminderRuns_congr (lifecycle : ∀ i, lifecycleOf t i = lifecycleOf s i) (priority : ∀ i, priorityOf t i = priorityOf s i)
    (flood : (t.loads.get q).flood = (s.loads.get q).flood) (i : Nat) : reminderRuns t q i = reminderRuns s q i := by
  rw [reminderRuns, reminderRuns, lifecycle, priority, flood]

theorem AtPos.reminderRuns (h : AtPos p s t) (flood : (t.loads.get q).flood = (s.loads.get q).flood) (i : Nat) :
    reminderRuns t q i = reminderRuns s q i := reminderRuns_congr h.lifecycleOf h.priorityOf flood i

/-- What the horn line depends on: the alarms and silenced markers of the entries. -/
theorem AtPos.hornSounds (h : AtPos p s t)
    (same : ((t.lists.get q).ann.map fun e => (e.alarm, e.silenced)) = (s.lists.get q).ann.map fun e => (e.alarm, e.silenced)) :
    hornSounds t q = hornSounds s q := by
  have pairs (u : State) : Machine.hornSounds u q = ((u.lists.get q).ann.map fun e => (e.alarm, e.silenced)).any fun e =>
      !e.2 && decide (Machine.priorityOf u e.1 ≤ 2) && Machine.lifecycleOf u e.1 == .raised := by rw [List.any_map]; rfl
  rw [pairs, pairs, same]
  simp only [h.priorityOf, h.lifecycleOf]

theorem RemindersRight.elsewhere {stale : Nat → Prop} (h : RemindersRight stale s q) (place : AtPos p s t) (other : q ≠ p) :
    RemindersRight stale t q := fun e he fresh => by
  rw [place.lists q other] at he
  rw [place.reminderRuns (by rw [place.loads q other])]
  exact h e he fresh

theorem HornRight.elsewhere {stale : Nat → Prop} (h : HornRight stale s q) (place : AtPos p s t) (other : q ≠ p) :
    HornRight stale t q := by
  rw [HornRight, place.hornSounds (by rw [place.lists q other]), place.lists q other]
  exact h

end

/-! ### Work that leaves every alarm wanted as it was -/

/-- The parts that the work of the blocks on the lists writes, but for the escalation list. -/
abbrev listParts : List Part := [.alarms, .lists, .loads, .positions, .journal, .links, .free]

/-- Work at a position that keeps every alarm in or out of the places, and the reminders. -/
structure Arranges (p : Pos) (s t : State) : Prop where
  place : AtPos p s t
  marks : MarksOnly s t
  kept : Kept listParts s t
  sited : ∀ want, Sited want (ownerOf s) s → Sited want (ownerOf t) t
  reminded : ∀ stale, RemindersRight stale s p → RemindersRight stale t p

/-- Work at a position that keeps its horn line right, too. -/
structure Neutral (p : Pos) (s t : State) : Prop extends Arranges p s t where
  horn : ∀ stale, HornRight stale s p → HornRight stale t p

section
variable {s t u : State} {p : Pos}

namespace Arranges

theorem refl (p : Pos) (s : State) : Arranges p s s := ⟨.refl .., .refl .., .refl .., fun _ h => h, fun _ h => h⟩

theorem trans (h : Arranges p s t) (k : Arranges p t u) : Arranges p s u :=
  ⟨h.place.trans k.place, h.marks.trans k.marks, h.kept.trans k.kept, fun w x => k.sited w (h.sited w x),
   fun st x => k.reminded st (h.reminded st x)⟩

end Arranges

namespace Neutral

theorem refl (p : Pos) (s : State) : Neutral p s s := ⟨.refl .., fun _ h => h⟩

theorem trans (h : Neutral p s t) (k : Neutral p t u) : Neutral p s u :=
  ⟨h.toArranges.trans k.toArranges, fun st x => k.horn st (h.horn st x)⟩

theorem ite {c : Prop} [Decidable c] (h : c → Neutral p s t) (k : ¬c → Neutral p s u) : Neutral p s (if c then t else u) := by
  split
  · exact h ‹_›
  · exact k ‹_›

theorem when {c : Prop} [Decidable c] (k : c → Neutral p t u) : Neutral p t (if c then u else t) := .ite k fun _ => .refl ..

/-- Work on the entries of an annunciation list that writes no more than reminders. -/
theorem of_entries (place : AtPos p s t) (alarms : t.alarms = s.alarms) (kept : Kept listParts s t)
    (ann : ((t.lists.get p).ann.map fun e => (e.alarm, e.time, e.silenced)) = (s.lists.get p).ann.map fun e => (e.alarm, e.time, e.silenced))
    (deferred : (t.lists.get p).deferred = (s.lists.get p).deferred) (horn : (t.lists.get p).horn = (s.lists.get p).horn)
    (reminded : ∀ stale, RemindersRight stale s p → RemindersRight stale t p) : Neutral p s t := by
  have listed (u : State) : annEntries u p = ((u.lists.get p).ann.map fun e => (e.alarm, e.time, e.silenced)).map fun x =>
      ⟨x.1, x.2.1⟩ := by rw [List.map_map]; rfl
  have marked (u : State) : ((u.lists.get p).ann.map fun e => (e.alarm, e.silenced)) =
      ((u.lists.get p).ann.map fun e => (e.alarm, e.time, e.silenced)).map fun x => (x.1, x.2.2) := by rw [List.map_map]; rfl
  have named (u : State) (stale : Nat → Prop) : (∃ e ∈ (u.lists.get p).ann, stale e.alarm) ↔
      ∃ e ∈ (u.lists.get p).ann.map fun e => (e.alarm, e.time, e.silenced), stale e.1 := by simp
  refine ⟨⟨place, .of_alarms alarms, kept, fun w h => ?_, reminded⟩, fun stale h => ?_⟩
  · have owner : ownerOf t = ownerOf s := funext place.ownerOf
    rw [owner]
    refine h.same (alarms ▸ h.wf) (fun q => ?_) (fun q => ?_) fun j => by rw [alarm?_congr alarms]
    · by_cases hq : q = p
      · rw [hq, listed, listed, ann]
      · rw [annEntries, place.lists q hq]
    · by_cases hq : q = p
      · rw [hq, deferred]
      · rw [place.lists q hq]
  · rw [HornRight, named, ann, ← named, horn, place.hornSounds (q := p) (by rw [marked, marked, ann])]
    exact h

/-- Work outside the lists. -/
theorem of_kept {ps : List Part} (h : Kept ps s t) (hp : ∀ x ∈ ps, x ∈ listParts) (place : AtPos p s t) (ha : .alarms ∉ ps)
    (hl : .lists ∉ ps) (hd : .loads ∉ ps) : Neutral p s t := by
  have lists : t.lists = s.lists := h.agrees .lists hl
  have loads : t.loads = s.loads := h.agrees .loads hd
  refine of_entries place (h.agrees .alarms ha) (h.mono hp) (by rw [lists]) (by rw [lists]) (by rw [lists]) fun stale r e he fresh => ?_
  rw [lists] at he
  rw [place.reminderRuns (by rw [loads])]
  exact r e he fresh

theorem notify (p : Pos) (l : Link) (n : Notice) (s : State) : Neutral p s (notify l n s) :=
  of_kept (quiet_notify s l n).kept (by simp) (atPos_notify ..) (by simp) (by simp) (by simp)

theorem append (p : Pos) (k : EntryKind) (q : Option Pos) (o i : Option Nat) (d : Nat) (s : State) :
    Neutral p s (append k q o i d s) :=
  of_kept (quiet_append ..).kept (by simp) (atPos_append ..) (by simp) (by simp) (by simp)

/-- R43: the horn line is judged after the lists were worked on. -/
theorem judged (h : Arranges p s t) : Neutral p s (judgeHorn p t) := by
  have kept := (quiet_judgeHorn t p).kept
  have lists (q : Pos) := judgeHorn_lists p q t
  have here := lists p
  rw [if_pos rfl] at here
  have still : Arranges p t (judgeHorn p t) := by
    refine ⟨atPos_judgeHorn .., .of_kept kept (by simp), kept.mono (by simp), fun w x => ?_, fun stale r e he fresh => ?_⟩
    · rw [show ownerOf (judgeHorn p t) = ownerOf t from funext (atPos_judgeHorn p t).ownerOf]
      refine x.same ((show (judgeHorn p t).alarms = t.alarms from kept.agrees .alarms (by simp)) ▸ x.wf) (fun q => ?_) (fun q => ?_) fun j =>
        by rw [alarm?_congr (kept.agrees .alarms (by simp))]
      · rw [annEntries, lists]; split
        · subst q; rfl
        · rfl
      · rw [lists]; split
        · subst q; rfl
        · rfl
    · rw [here] at he
      rw [(atPos_judgeHorn p t).reminderRuns (by rw [show (judgeHorn p t).loads = t.loads from kept.agrees .loads (by simp)])]
      exact r e he fresh
  refine ⟨h.trans still, fun stale _ => .inr ?_⟩
  rw [(atPos_judgeHorn p t).hornSounds (q := p) (by rw [here]), here]

end Neutral

/-! ### Promotion and refill -/

theorem arranges_promoted {e : ListEntry} (mem : e ∈ (s.lists.get p).deferred) : Arranges p s (promoted p e s) := by
  have place : AtPos p s (promoted p e s) := (atPos_leaveDeferred ..).trans (atPos_joinAnn ..)
  refine ⟨place, MarksOnly.of_alarms rfl,
    ((quiet_leaveDeferred ..).kept.mono (by simp)).trans ((quiet_joinAnn ..).kept.mono (by simp)), fun w h => ?_, fun stale r x hx fresh => ?_⟩
  · exact (show ownerOf (promoted p e s) = ownerOf s from funext place.ownerOf) ▸ h.promoted mem
  · rw [place.reminderRuns rfl]
    rw [promoted_lists, if_pos rfl] at hx
    rcases mem_insertBy.1 hx with rfl | hx
    · simp only [freshReminder]
      split <;> simp_all
    · exact r x hx fresh

theorem arranges_refill (p : Pos) (s : State) : Arranges p s (refill p s) := by
  have kept := (quiet_refill s p).kept
  have place := atPos_refill p s
  refine ⟨place, marksOnly_refill .., kept.mono (by simp), fun w h => ?_, fun stale r e he fresh => ?_⟩
  · exact (show ownerOf (refill p s) = ownerOf s from funext place.ownerOf) ▸ h.refill (fun _ _ => rfl) p
  · have ann : ((refill p s).lists.get p).ann = (s.lists.get p).ann := by
      unfold refill
      split
      · split
        · rw [joinDeferred_lists, if_pos rfl]
        · rfl
      · rfl
    rw [ann] at he
    rw [place.reminderRuns (by rw [show (refill p s).loads = s.loads from kept.agrees .loads (by simp)])]
    exact r e he fresh

theorem arranges_promotion (p : Pos) (s : State) : Arranges p s (promotion p s) := by
  unfold promotion
  split
  · obtain ⟨-, e, found, rfl⟩ := promote?_eq ‹_›
    exact (arranges_promoted (List.mem_of_find?_eq_some found)).trans (arranges_refill ..)
  · exact .refl ..

theorem arranges_refillAll (n : Nat) (p : Pos) (s : State) : Arranges p s (refillAll n p s) := by
  induction n generalizing s with
  | zero => exact .refl ..
  | succ n ih => exact (arranges_refill p s).trans (ih _)

theorem arranges_promoteAll (n : Nat) (p : Pos) (s : State) : Arranges p s (promoteAll n p s) := by
  induction n generalizing s with
  | zero => exact .refl ..
  | succ n ih =>
    unfold promoteAll
    split
    · obtain ⟨-, e, found, rfl⟩ := promote?_eq ‹_›
      exact (arranges_promoted (List.mem_of_find?_eq_some found)).trans (ih _)
    · exact .refl ..

/-- R36, R37: repeated promotion and refill, and one judgement of the horn. -/
theorem neutral_restoreLists (p : Pos) (s : State) : Neutral p s (restoreLists p s) :=
  .judged ((arranges_promoteAll ..).trans (arranges_refillAll ..))

/-! ### Flood mode -/

theorem map_floodStopped_entries (s : State) (es : List AnnEntry) :
    ((es.map (floodStopped s)).map fun e => (e.alarm, e.time, e.silenced)) =
    es.map fun e => (e.alarm, e.time, e.silenced) := by
  rw [List.map_map]
  refine List.map_congr_left fun e _ => ?_
  simp only [Function.comp, floodStopped]
  split <;> rfl

theorem map_floodRestarted_entries (s : State) (es : List AnnEntry) :
    ((es.map (floodRestarted s)).map fun e => (e.alarm, e.time, e.silenced)) = es.map fun e => (e.alarm, e.time, e.silenced) := by
  rw [List.map_map]
  refine List.map_congr_left fun e _ => ?_
  simp only [Function.comp, floodRestarted]
  split <;> rfl

/-- R35: in flood mode the reminders of priority 3 and 4 have stopped. -/
theorem reminder_floodStopped {s t u : State} {p : Pos} {e : AnnEntry} (lifecycle : lifecycleOf t e.alarm = lifecycleOf s e.alarm)
    (priority : priorityOf t e.alarm = priorityOf s e.alarm) (stops : priorityOf u e.alarm = priorityOf s e.alarm)
    (before : (s.loads.get p).flood = false) (after : (t.loads.get p).flood = true)
    (h : e.reminder.isSome = true ↔ reminderRuns s p e.alarm = true) :
    (floodStopped u e).reminder.isSome = true ↔ reminderRuns t p e.alarm = true := by
  simp only [reminderRuns, before, after, lifecycle, priority, stops, floodStopped, Bool.not_false, Bool.not_true, Bool.true_or,
    Bool.false_or, Bool.and_true, Bool.and_eq_true, decide_eq_true_eq] at h ⊢
  split
  · simp only [Option.isSome_none, Bool.false_eq_true, false_iff, not_and]
    omega
  · rw [h, iff_self_and]
    omega

/-- R36: outside flood mode the reminders of priority 3 and 4 run again. -/
theorem reminder_floodRestarted {s t u : State} {p : Pos} {e : AnnEntry} (lifecycle : lifecycleOf t e.alarm = lifecycleOf s e.alarm)
    (starts : lifecycleOf u e.alarm = lifecycleOf s e.alarm) (stops : priorityOf u e.alarm = priorityOf s e.alarm)
    (before : (s.loads.get p).flood = true) (after : (t.loads.get p).flood = false)
    (h : e.reminder.isSome = true ↔ reminderRuns s p e.alarm = true) :
    (floodRestarted u e).reminder.isSome = true ↔ reminderRuns t p e.alarm = true := by
  simp only [reminderRuns, before, after, lifecycle, starts, stops, floodRestarted, Bool.not_false, Bool.not_true, Bool.true_or,
    Bool.false_or, Bool.and_true, Bool.and_eq_true, decide_eq_true_eq, beq_iff_eq] at h ⊢
  split
  · rename_i low
    simp [low.2]
  · rename_i high
    rw [h, and_iff_left_iff_imp]
    exact fun raised => Nat.le_of_lt_succ (Nat.lt_of_not_le fun low => high ⟨low, raised⟩)

section turned
variable {on : Bool}

/-- R57, R58: the entries of the list have followed a change of flood mode, with the entry and notice told. -/
theorem neutral_floodEntries {f : AnnEntry → AnnEntry} (entries : ∀ es : List AnnEntry,
      ((es.map f).map fun e => (e.alarm, e.time, e.silenced)) = es.map fun e => (e.alarm, e.time, e.silenced))
    (reminders : ∀ e, (e.reminder.isSome = true ↔ reminderRuns s p e.alarm = true) →
      ((f e).reminder.isSome = true ↔ reminderRuns (floodTold p on s) p e.alarm = true)) :
    Neutral p s (modLists p (fun v => { v with ann := v.ann.map f }) (floodTold p on s)) := by
  have told := kept_floodTold p on s
  have place : AtPos p s (floodTold p on s) := ((atPos_modLoad p s fun d => { d with flood := on }).trans (atPos_append ..)).trans (atPos_notifyBoth ..)
  have lists : (floodTold p on s).lists = s.lists := told.agrees .lists (by simp)
  generalize floodTold p on s = u at *
  have here : (modLists p (fun v => { v with ann := v.ann.map f }) u).lists.get p =
      { s.lists.get p with ann := (s.lists.get p).ann.map f } := by rw [modLists_get_self, lists]
  refine .of_entries (place.trans (atPos_modLists p _ _)) (told.agrees .alarms (by simp))
    ((told.mono (by simp)).trans ((quiet_modLists ..).kept.mono (by simp))) ?_ (by rw [here]) (by rw [here]) fun stale r e he fresh => ?_
  · rw [here]; exact entries _
  · rw [here] at he
    obtain ⟨x, hx, rfl⟩ := List.mem_map.1 he
    have same : (f x).alarm = x.alarm := by simpa using congrArg (List.map Prod.fst) (entries [x])
    rw [same] at fresh ⊢
    exact reminders x (r x hx fresh)

theorem flood_floodTold (p : Pos) (on : Bool) (s : State) : ((floodTold p on s).loads.get p).flood = on := by
  have loads : (floodTold p on s).loads = (modLoad p (fun d => { d with flood := on }) s).loads :=
    Eq.trans ((quiet_notifyBoth ..).kept.agrees .loads (by simp)) ((quiet_append ..).kept.agrees .loads (by simp))
  rw [loads, modLoad_get_self]

/-- R35, R36: a change of flood mode keeps every alarm in or out of the places, and the reminders and the horn line right. -/
theorem neutral_floodTurned (turns : (s.loads.get p).flood = !on) : Neutral p s (floodTurned p on s) := by
  rw [floodTurned_eq]
  have place : AtPos p s (floodTold p on s) := ((atPos_modLoad p s fun d => { d with flood := on }).trans (atPos_append ..)).trans (atPos_notifyBoth ..)
  have flood := flood_floodTold p on s
  refine Neutral.trans ?_ (.of_kept (quiet_floodReport ..).kept (by simp) (atPos_floodReport ..) (by simp) (by simp) (by simp))
  cases on with
  | true =>
    exact neutral_floodEntries (map_floodStopped_entries _) fun e h =>
      reminder_floodStopped (place.lifecycleOf _) (place.priorityOf _) (place.priorityOf _) turns flood h
  | false =>
    exact (neutral_floodEntries (map_floodRestarted_entries _) fun e h =>
      reminder_floodRestarted (place.lifecycleOf _) (place.lifecycleOf _) (place.priorityOf _) turns flood h).trans (neutral_restoreLists ..)

end turned

theorem neutral_modLoad {f : PosLoad → PosLoad} (flood : ∀ d, (f d).flood = d.flood) : Neutral p s (modLoad p f s) := by
  refine .of_entries (atPos_modLoad ..) rfl ((quiet_modLoad ..).kept.mono (by simp)) rfl rfl rfl fun stale r e he fresh => ?_
  rw [(atPos_modLoad p s f).reminderRuns (by rw [modLoad_get_self, flood])]
  exact r e he fresh

theorem neutral_evaluateFlood (p : Pos) (s : State) : Neutral p s (evaluateFlood p s) := by
  simp only [evaluateFlood]
  refine .ite (fun h => neutral_floodTurned ?_) fun _ => .when fun h => neutral_floodTurned ?_
  · simpa using (Bool.and_eq_true_iff.1 h).1
  · simpa using (Bool.and_eq_true_iff.1 h).1

theorem neutral_addLoad (p : Pos) (w : Nat) (s : State) : Neutral p s (addLoad p w s) :=
  (neutral_modLoad fun d => by split <;> rfl).trans (neutral_evaluateFlood ..)

/-! ### Reports -/

theorem neutral_placedReport (p : Pos) (i : Nat) (s : State) : Neutral p s (placedReport p i s) :=
  .of_kept (quiet_placedReport ..).kept (by simp) (atPos_placedReport ..) (by simp) (by simp) (by simp)

theorem neutral_lifecycleReport (i : Nat) (old new : Lifecycle) (h : ownerOf s i = p) :
    Neutral p s (lifecycleReport i old new s) :=
  .of_kept (quiet_lifecycleReport ..).kept (by simp) (atPos_lifecycleReport p s i old new h) (by simp) (by simp) (by simp)

theorem neutral_shelvedReport (p : Pos) (i e : Nat) (r : Bool) (s : State) : Neutral p s (shelvedReport p i e r s) :=
  .of_kept (quiet_shelvedReport ..).kept (by simp) (atPos_shelvedReport ..) (by simp) (by simp) (by simp)

theorem neutral_shelfEndedReport (p : Pos) (i : Nat) (s : State) : Neutral p s (shelfEndedReport p i s) :=
  .of_kept (quiet_shelfEndedReport ..).kept (by simp) (atPos_shelfEndedReport ..) (by simp) (by simp) (by simp)

end

end Sys2Proof.Machine
end

section
/-! PROOFS. The invariant of the alarms and the lists (R24 to R26, R38, R40, R43, R108), in the parts that the work of a command keeps
one by one. -/

namespace Sys2Proof.Machine

/-! ### The parts of the invariant -/

/-- R40: the escalation list is in order, and its entries are the escalated alarms with their annunciation times. -/
structure EscalationRight (s : State) : Prop where
  order : InRankOrder s s.escalation
  named : ∀ e ∈ s.escalation, ∃ a, alarm? s e.alarm = some a ∧ a.dyn.annTime = some e.time
  flags : ∀ i, (alarmAt s i).dyn.escalated = true ↔ ∃ e ∈ s.escalation, e.alarm = i

/-- R108: the shelf lists are in order, and their entries are the shelved alarms of the position. -/
structure ShelfRight (s : State) : Prop where
  order : ∀ p, InShelfOrder (s.lists.get p).shelf
  named : ∀ p, ∀ e ∈ (s.lists.get p).shelf, isDefined s e.alarm = true ∧ ownerOf s e.alarm = p
  flags : ∀ i, (alarmAt s i).dyn.shelved = true ↔ ∃ e ∈ (s.lists.get (ownerOf s i)).shelf, e.alarm = i

/-- R24 to R26, R38, R40, R43, R108: the alarms wanted in a place, and no others, are in one, and have an annunciation time; and the
reminders and horn lines are right but for stale alarms. -/
structure InOrder (want : Nat → Bool) (stale : Nat → Prop) (s : State) : Prop where
  sited : Sited want (ownerOf s) s
  timed : ∀ i, (alarmAt s i).dyn.annTime.isSome = want i
  escalation : EscalationRight s
  shelf : ShelfRight s
  reminded : ∀ p, RemindersRight stale s p
  horn : ∀ p, HornRight stale s p

/-- No alarm is stale. -/
abbrev noneStale : Nat → Prop := fun _ => False

/-- R26: the alarms that are to have a place. -/
def placedNow (s : State) (i : Nat) : Bool := isPlaced s i (alarmAt s i)

/-- R4: an alarm out of service is not shelved, and in UNCONFIGURED none is raised or shelved. -/
def Idle (s : State) : Prop := ∀ i a, alarm? s i = some a → (a.dyn.lifecycle = .outOfService → a.dyn.shelved = false) ∧
  (s.runState = .unconfigured → (a.dyn.lifecycle = .normal ∨ a.dyn.lifecycle = .outOfService) ∧ a.dyn.shelved = false)

theorem alarmAt_none {s : State} {i : Nat} (h : alarm? s i = none) : alarmAt s i = blankAlarm := by rw [alarmAt, h]; rfl

theorem placedNow_none {s : State} {i : Nat} (h : alarm? s i = none) : placedNow s i = false := by
  rw [placedNow, alarmAt_none h]; rfl

theorem count_places (a b c : Bool) :
    [a, b, c].count true = a.toNat + b.toNat + c.toNat := by cases a <;> cases b <;> cases c <;> rfl

section
variable {s t : State} {p : Pos} {want : Nat → Bool} {stale : Nat → Prop}

theorem EscalationRight.timed (h : EscalationRight s) {i : Nat} (on : (alarmAt s i).dyn.escalated = true) :
    (alarmAt s i).dyn.annTime.isSome = true := by
  obtain ⟨e, he, rfl⟩ := (h.flags i).1 on
  obtain ⟨a, present, held⟩ := h.named e he
  rw [alarmAt_eq present, held]; rfl

/-- The invariant, in its parts. -/
theorem placeInv_iff : PlaceInv s ↔ CapacityInv s ∧ AlarmInv s ∧ InOrder (placedNow s) noneStale s ∧ Idle s := by
  constructor
  · rintro ⟨capacity, alarms, orders, escalation, named, escalated, shelved, places, sounds⟩
    have wf : s.alarms.wf = true := capacity.2.2.2.2.1
    have off {i : Nat} (none : alarm? s i = none) (p : Pos) : onAnn s p i = false ∧ onDeferred s p i = false := by
      constructor <;> refine Bool.not_eq_true _ ▸ fun on => ?_
      · obtain ⟨e, he, rfl⟩ := onAnn_iff.1 on
        obtain ⟨-, a, present, -⟩ := named p e (List.mem_append_left _ he)
        rw [none] at present; cases present
      · obtain ⟨e, he, rfl⟩ := onDeferred_iff.1 on
        obtain ⟨-, a, present, -⟩ := named p e (List.mem_append_right _ he)
        rw [none] at present; cases present
    have cases' (i : Nat) : alarm? s i = none ∨ ∃ a, alarm? s i = some a ∧ InItsPlace s i a ∧ alarmAt s i = a := by
      cases h : alarm? s i with
      | none => exact .inl rfl
      | some a => exact .inr ⟨a, rfl, places i a h, alarmAt_eq h⟩
    refine ⟨capacity, alarms, ⟨⟨wf, fun p => (orders p).1, fun p => (orders p).2.1, named, fun i marked => ?_, fun i => ?_⟩, fun i => ?_,
      ⟨escalation, escalated, fun i => ?_⟩, ⟨fun p => (orders p).2.2, shelved, fun i => ?_⟩, fun p e he _ => ?_, fun p => .inr ?_⟩,
      fun i a present => ?_⟩
    · rcases cases' i with none | ⟨a, -, ⟨count, timed, -⟩, rfl⟩
      · rw [alarmAt_none none] at marked; cases marked
      · rw [timed]
        rw [count_places, marked] at count
        cases placed : isPlaced s i (alarmAt s i) with
        | true => rfl
        | false => rw [placed] at count; simp at count
    · rcases cases' i with none | ⟨a, -, ⟨count, -⟩, rfl⟩
      · rw [(off none _).1, (off none _).2, alarmAt_none none, placedNow_none none]; rfl
      · rw [← count_places]; exact count
    · rcases cases' i with none | ⟨a, -, ⟨-, timed, -⟩, rfl⟩
      · rw [alarmAt_none none, placedNow_none none]; rfl
      · exact timed
    · rcases cases' i with none | ⟨a, -, ⟨-, -, flag, -⟩, rfl⟩
      · rw [alarmAt_none none]
        refine ⟨nofun, fun ⟨e, he, same⟩ => ?_⟩
        obtain ⟨a, present, -⟩ := escalated e he
        rw [same, none] at present; cases present
      · exact flag
    · rcases cases' i with none | ⟨a, -, ⟨-, -, -, -, flag, -⟩, rfl⟩
      · rw [alarmAt_none none]
        refine ⟨nofun, fun ⟨e, he, same⟩ => ?_⟩
        have defined := (shelved _ e he).1
        rw [same, isDefined, none] at defined; cases defined
      · exact flag
    · rw [(sounds p).1 e he]; simp [reminderRuns]
    · rw [Bool.eq_iff_iff, (sounds p).2]; simp [hornSounds, and_assoc]
    · obtain ⟨-, -, -, -, -, out, idle⟩ := places i a present
      exact ⟨out, idle⟩
  · rintro ⟨capacity, alarms, ⟨sited, timed, escalation, shelf, reminded, horn⟩, idle⟩
    refine ⟨capacity, alarms, fun p => ⟨sited.ann p, sited.deferred p, shelf.order p⟩, escalation.order, sited.named, escalation.named,
      shelf.named, fun i a present => ?_, fun p => ⟨fun e he => ?_, ?_⟩⟩
    · have same := alarmAt_eq present
      subst same
      refine ⟨?_, timed i, escalation.flags i, fun on => ?_, shelf.flags i, (idle i _ present).1, (idle i _ present).2⟩
      · rw [count_places]; exact sited.places i
      · exact (timed i).symm.trans (escalation.timed on)
    · rw [reminded p e he not_false]; simp [reminderRuns]
    · rcases horn p with ⟨e, -, bad⟩ | right
      · exact bad.elim
      · rw [right]; simp [hornSounds, and_assoc]

/-! ### Work that leaves every alarm wanted as it was -/

theorem MarksOnly.annTime (h : MarksOnly s t) (i : Nat) :
    (Machine.alarmAt t i).dyn.annTime = (Machine.alarmAt s i).dyn.annTime := by
  have same := congrArg (fun x : Alarm => x.dyn.annTime) (h.alarmAt i)
  exact same

theorem MarksOnly.escalated (h : MarksOnly s t) (i : Nat) :
    (Machine.alarmAt t i).dyn.escalated = (Machine.alarmAt s i).dyn.escalated := by
  have same := congrArg (fun x : Alarm => x.dyn.escalated) (h.alarmAt i)
  exact same

theorem EscalationRight.marked (h : EscalationRight s) (marks : MarksOnly s t) (same : t.escalation = s.escalation) :
    EscalationRight t := by
  have priority (i : Nat) : priorityOf t i = priorityOf s i := by
    have same := congrArg (fun x : Alarm => x.defn.priority) (marks.alarmAt i)
    exact same
  refine ⟨same ▸ h.order.congr fun e _ => priority _, fun e he => ?_, fun i => by rw [marks.escalated, same]; exact h.flags i⟩
  obtain ⟨a, present, held⟩ := h.named e (same ▸ he)
  obtain ⟨m, marked⟩ := marks.find present
  exact ⟨_, marked, held⟩

theorem AtPos.shelved (h : AtPos p s t) (i : Nat) : (Machine.alarmAt t i).dyn.shelved = (Machine.alarmAt s i).dyn.shelved := by
  have same := congrArg (fun x => x.2.2.2.2) (h.alarmAt i)
  exact same

theorem ShelfRight.at_pos (h : ShelfRight s) (place : AtPos p s t) : ShelfRight t := by
  refine ⟨fun q => place.shelf q ▸ h.order q, fun q e he => ?_, fun i => ?_⟩
  · obtain ⟨defined, owner⟩ := h.named q e (place.shelf q ▸ he)
    exact ⟨(place.isSome_alarm? _).trans defined, (place.ownerOf _).trans owner⟩
  · rw [place.shelved, place.ownerOf, place.shelf]
    exact h.flags i

theorem InOrder.neutral (h : InOrder want stale s) (n : Neutral p s t) : InOrder want stale t := by
  have place := n.place
  refine ⟨n.sited _ h.sited, fun i => by rw [n.marks.annTime]; exact h.timed i,
    h.escalation.marked n.marks (n.kept.agrees .escalation (by simp)), h.shelf.at_pos place, fun q => ?_, fun q => ?_⟩
  · by_cases hq : q = p
    · exact hq ▸ n.reminded _ (h.reminded p)
    · exact (h.reminded q).elsewhere place hq
  · by_cases hq : q = p
    · exact hq ▸ n.horn _ (h.horn p)
    · exact (h.horn q).elsewhere place hq

/-! ### An alarm whose lifecycle has changed -/

/-- What the lists, the escalation list and the shelf lists read of an alarm. -/
def Alarm.fixed (a : Alarm) : Nat × Nat × Option Word × Bool × Bool × Bool :=
  (a.defn.area, a.defn.priority, a.dyn.annTime, a.dyn.overflow, a.dyn.escalated, a.dyn.shelved)

theorem RemindersRight.weaken (h : RemindersRight noneStale s p) (stale : Nat → Prop) : RemindersRight stale s p :=
  fun e he _ => h e he not_false

theorem HornRight.weaken (h : HornRight noneStale s p) (stale : Nat → Prop) : HornRight stale s p :=
  .inr (h.resolve_left fun ⟨_, _, bad⟩ => bad)

theorem RemindersRight.unstale {i : Nat} (h : RemindersRight (· = i) s p) (off : onAnn s p i = false) :
    RemindersRight noneStale s p :=
  fun e he _ => h e he fun same => Bool.false_ne_true (off.symm.trans (onAnn_iff.2 ⟨_, List.mem_map_of_mem he, same⟩))

theorem HornRight.unstale {i : Nat} (h : HornRight (· = i) s p) (off : onAnn s p i = false) : HornRight noneStale s p :=
  .inr (h.resolve_left fun ⟨_, he, same⟩ => Bool.false_ne_true (off.symm.trans (onAnn_iff.2 ⟨_, List.mem_map_of_mem he, same⟩)))

/-- An alarm that stands on no annunciation list is not stale. -/
theorem InOrder.unstale {i : Nat} (h : InOrder want (· = i) s) (off : want i = false) : InOrder want noneStale s :=
  ⟨h.sited, h.timed, h.escalation, h.shelf, fun p => (h.reminded p).unstale (h.sited.absent off).1,
   fun p => (h.horn p).unstale (h.sited.absent off).1⟩

/-- What is written of one alarm is nothing that the lists, the escalation list and the shelf lists read. -/
structure Rerecords (i : Nat) (s t : State) : Prop where
  kept : Kept [.alarms, .journal, .links] s t
  wf : s.alarms.wf = true → t.alarms.wf = true
  others : ∀ j, j ≠ i → alarm? t j = alarm? s j
  fixed : (alarm? t i).map Alarm.fixed = (alarm? s i).map Alarm.fixed

namespace Rerecords
variable {i : Nat}

theorem at_all (h : Rerecords i s t) (j : Nat) : (alarm? t j).map Alarm.fixed = (alarm? s j).map Alarm.fixed := by
  by_cases same : j = i
  · exact same ▸ h.fixed
  · rw [h.others j same]

theorem alarmAt (h : Rerecords i s t) (j : Nat) : (Machine.alarmAt t j).fixed = (Machine.alarmAt s j).fixed := by
  have same := h.at_all j
  simp only [Machine.alarmAt]
  cases ht : alarm? t j <;> cases hs : alarm? s j <;> simp_all

theorem ownerOf (h : Rerecords i s t) (j : Nat) : ownerOf t j = ownerOf s j := by
  rw [Machine.ownerOf, Machine.ownerOf, show (Machine.alarmAt t j).defn.area = (Machine.alarmAt s j).defn.area from
    congrArg (fun x => x.1) (h.alarmAt j), areaOwner, areaOwner, show t.areas = s.areas from h.kept.agrees .areas (by simp)]

end Rerecords

theorem InOrder.rerecorded {i : Nat} (h : InOrder want noneStale s) (r : Rerecords i s t) : InOrder want (· = i) t := by
  have lists : t.lists = s.lists := r.kept.agrees .lists (by simp)
  have loads : t.loads = s.loads := r.kept.agrees .loads (by simp)
  have escalation : t.escalation = s.escalation := r.kept.agrees .escalation (by simp)
  have owner : ownerOf t = ownerOf s := funext r.ownerOf
  have at_j (j : Nat) : (alarmAt t j).dyn.annTime = (alarmAt s j).dyn.annTime ∧
      (alarmAt t j).dyn.escalated = (alarmAt s j).dyn.escalated ∧ (alarmAt t j).dyn.shelved = (alarmAt s j).dyn.shelved ∧
      priorityOf t j = priorityOf s j :=
    ⟨congrArg (fun x => x.2.2.1) (r.alarmAt j), congrArg (fun x => x.2.2.2.2.1) (r.alarmAt j), congrArg (fun x => x.2.2.2.2.2) (r.alarmAt j),
     congrArg (fun x => x.2.1) (r.alarmAt j)⟩
  have lifecycle {j : Nat} (hj : j ≠ i) : lifecycleOf t j = lifecycleOf s j := by rw [lifecycleOf, lifecycleOf, alarmAt, alarmAt, r.others j hj]
  have runs {j : Nat} (hj : j ≠ i) (q : Pos) : reminderRuns t q j = reminderRuns s q j := by
    rw [reminderRuns, reminderRuns, lifecycle hj, (at_j j).2.2.2, loads]
  refine ⟨owner ▸ h.sited.same (r.wf h.sited.wf) (fun q => by rw [annEntries, lists]) (fun q => by rw [lists]) fun j => ?_,
    fun j => by rw [(at_j j).1]; exact h.timed j, ⟨escalation ▸ h.escalation.order.congr fun e _ => (at_j _).2.2.2, fun e he => ?_,
      fun j => by rw [(at_j j).2.1, escalation]; exact h.escalation.flags j⟩,
    ⟨fun q => by rw [lists]; exact h.shelf.order q, fun q e he => ?_, fun j => by rw [(at_j j).2.2.1, owner, lists]; exact h.shelf.flags j⟩,
    fun q e he other => ?_, fun q => ?_⟩
  · have same := congrArg (Option.map fun x : Nat × Nat × Option Word × Bool × Bool × Bool => (x.2.1, x.2.2.1, x.2.2.2.1)) (r.at_all j)
    rw [Option.map_map, Option.map_map] at same
    exact same
  · obtain ⟨a, present, held⟩ := h.escalation.named e (escalation ▸ he)
    have same := r.at_all e.alarm
    rw [present] at same
    obtain ⟨b, hb, fields⟩ := Option.map_eq_some_iff.1 same
    exact ⟨b, hb, (congrArg (fun x => x.2.2.1) fields).trans held⟩
  · rw [lists] at he
    obtain ⟨defined, at_q⟩ := h.shelf.named q e he
    have same := congrArg Option.isSome (r.at_all e.alarm)
    rw [Option.isSome_map, Option.isSome_map] at same
    exact ⟨same.trans defined, (r.ownerOf _).trans at_q⟩
  · rw [lists] at he
    rw [runs other]
    exact h.reminded q e he not_false
  · by_cases on : ∃ e ∈ (t.lists.get q).ann, e.alarm = i
    · exact .inl on
    · refine .inr ?_
      rw [lists] at on ⊢
      rw [(h.horn q).resolve_left fun ⟨_, _, bad⟩ => bad, hornSounds, hornSounds, lists]
      rw [Bool.eq_iff_iff, List.any_eq_true, List.any_eq_true]
      refine exists_congr fun e => and_congr_right fun he => ?_
      have other : e.alarm ≠ i := fun same => on ⟨e, he, same⟩
      rw [(at_j _).2.2.2, lifecycle other]

end

end Sys2Proof.Machine
end

section
/-! PROOFS. What the reports of the PLU make of the invariant of the alarms and the lists: a departure, a placement, and the reports of an
alarm that keeps its place. -/

namespace Sys2Proof.Machine

section
variable {s t : State} {p : Pos} {i : Nat} {want : Nat → Bool} {stale : Nat → Prop}

/-- Work that leaves the lists and the flood mode leaves the reminders right. -/
theorem RemindersRight.same (h : RemindersRight stale s p) (place : AtPos p s t) (lists : t.lists = s.lists) (loads : t.loads = s.loads) :
    RemindersRight stale t p := fun e he fresh => by
  rw [lists] at he
  rw [place.reminderRuns (by rw [loads])]
  exact h e he fresh

theorem HornRight.same (h : HornRight stale s p) (place : AtPos p s t) (lists : t.lists = s.lists) : HornRight stale t p := by
  rw [HornRight, place.hornSounds (q := p) (by rw [lists]), lists]
  exact h

/-! ### A departure -/

/-- R32: an alarm has left the lists of its owner, and may stand in overflow. -/
structure OffLists (want : Nat → Bool) (i : Nat) (t : State) : Prop where
  sited : ∃ w : Nat → Bool, (∀ j, j ≠ i → w j = want j) ∧ Sited w (ownerOf t) t
  ann : ∀ q, onAnn t q i = false
  deferred : ∀ q, onDeferred t q i = false
  reminded : RemindersRight noneStale t (ownerOf t i)
  horn : HornRight noneStale t (ownerOf t i)

theorem wish_ne {j : Nat} (other : j ≠ i) (want : Nat → Bool) (b : Bool) :
    wish want i b j = want j := Function.update_of_ne other ..

theorem RemindersRight.leaveAnn (h : RemindersRight (· = i) s p) :
    RemindersRight noneStale (leaveAnn p i s) p := fun e he _ => by
  rw [leaveAnn_lists, if_pos rfl] at he
  obtain ⟨mem, other⟩ := List.mem_filter.1 he
  exact h e mem (bne_iff_ne.1 other)

/-- An alarm that is not wanted has left the lists. -/
theorem offLists_of_sited (sited : Sited (wish want i false) (ownerOf t) t) (owner : ownerOf t i = p) (reminded : RemindersRight noneStale t p)
    (horn : HornRight noneStale t p) : OffLists want i t :=
  have gone (q : Pos) := sited.absent (i := i) (p := q) (Function.update_self ..)
  ⟨⟨_, fun _ hj => wish_ne hj .., sited⟩, fun q => (gone q).1, fun q => (gone q).2.1, owner ▸ reminded, owner ▸ horn⟩

/-- R33: an alarm has left an annunciation list, and the best deferred one has been promoted. -/
theorem offLists_ann (reason : Reason) (h : InOrder want (· = i) s) (at_p : ownerOf s i = p) (on : onAnn s p i = true) :
    OffLists want i (judgeHorn p (promotion p (notify (.console p) (.retract i reason) (leaveAnn p i s)))) := by
  have left : Sited (wish want i false) (ownerOf s) (leaveAnn p i s) := h.sited.leaveAnn on
  have told := Neutral.notify p (.console p) (.retract i reason) (leaveAnn p i s)
  have rest : Neutral p (leaveAnn p i s) (judgeHorn p (promotion p (notify (.console p) (.retract i reason) (leaveAnn p i s)))) :=
    told.trans (.judged (arranges_promotion ..))
  refine offLists_of_sited (rest.sited _ left) ((rest.place.ownerOf i).trans at_p) (rest.reminded _ (h.reminded p).leaveAnn) (.inr ?_)
  rw [(atPos_judgeHorn p _).hornSounds (q := p) (by rw [judgeHorn_lists, if_pos rfl]), judgeHorn_lists, if_pos rfl]

theorem refill_ann (p : Pos) (s : State) : ((refill p s).lists.get p).ann = (s.lists.get p).ann ∧
    ((refill p s).lists.get p).horn = (s.lists.get p).horn := by
  unfold refill
  split
  · split
    · rw [joinDeferred_lists, if_pos rfl]; exact ⟨rfl, rfl⟩
    · exact ⟨rfl, rfl⟩
  · exact ⟨rfl, rfl⟩

/-- R34: an alarm has left a deferred list, and the best one in overflow has taken its room. -/
theorem offLists_deferred (h : InOrder want (· = i) s) (at_p : ownerOf s i = p) (off : onAnn s p i = false)
    (waits : onDeferred s p i = true) : OffLists want i (refill p (leaveDeferred p i s)) := by
  have rest : Arranges p (leaveDeferred p i s) (refill p (leaveDeferred p i s)) := arranges_refill ..
  have place : AtPos p s (refill p (leaveDeferred p i s)) := (atPos_leaveDeferred ..).trans rest.place
  have kept : (leaveDeferred p i s).lists.get p = { s.lists.get p with deferred := ((leaveDeferred p i s).lists.get p).deferred } := by
    rw [leaveDeferred, modLists_get_self]
  obtain ⟨ann, horn⟩ := refill_ann p (leaveDeferred p i s)
  rw [kept] at ann horn
  refine offLists_of_sited (rest.sited _ (h.sited.leaveDeferred waits)) ((place.ownerOf i).trans at_p)
    (rest.reminded _ fun e he _ => ?_) ?_
  · rw [kept] at he
    exact (h.reminded p).unstale off e he not_false
  · rw [HornRight, place.hornSounds (q := p) (by rw [ann]), ann, horn]
    exact (h.horn p).unstale off

/-- An alarm that is on neither list has nothing to leave. -/
theorem offLists_neither (h : InOrder want (· = i) s) (off : onAnn s (ownerOf s i) i = false) (away : onDeferred s (ownerOf s i) i = false) :
    OffLists want i s := by
  refine ⟨⟨want, fun _ _ => rfl, h.sited⟩, fun q => Bool.not_eq_true _ ▸ fun here => ?_, fun q => Bool.not_eq_true _ ▸ fun here => ?_,
    (h.reminded _).unstale off, (h.horn _).unstale off⟩
  · rw [h.sited.home_of_onAnn here, here] at off; cases off
  · rw [h.sited.home_of_onDeferred here, here] at away; cases away

theorem offLists_unlisted (reason : Reason) (h : InOrder want (· = i) s) :
    OffLists want i (unlisted (ownerOf s i) i reason s) := by
  rw [unlisted]
  split
  · exact offLists_ann reason h rfl ‹_›
  · rename_i off
    split
    · exact offLists_deferred h rfl (Bool.not_eq_true _ ▸ off) ‹_›
    · rename_i away
      exact offLists_neither h (Bool.not_eq_true _ ▸ off) (Bool.not_eq_true _ ▸ away)

theorem alarmAt_unmarked {j : Nat} (h : (alarm? t j).map Alarm.unmarked = (alarm? s j).map Alarm.unmarked) :
    (alarmAt t j).unmarked = (alarmAt s j).unmarked := by
  simp only [alarmAt]
  cases ht : alarm? t j <;> cases hs : alarm? s j <;> simp_all

/-- R42: the escalation list without an alarm that has left. -/
theorem escalationRight_removeReport {a : Alarm} (present : alarm? s i = some a) (reason : Reason) (h : EscalationRight s) :
    EscalationRight (removeReport i reason s) := by
  have escalation := removeReport_escalation present reason
  have left : ∀ e, e ∈ (removeReport i reason s).escalation ↔ e ∈ s.escalation ∧ e.alarm ≠ i := fun e => by
    rw [escalation]
    split
    · simp
    · rename_i off
      refine ⟨fun he => ⟨he, fun same => off ?_⟩, And.left⟩
      rw [← alarmAt_eq present]
      exact (h.flags i).2 ⟨e, he, same⟩
  have others {j : Nat} (hj : j ≠ i) : (alarm? (removeReport i reason s) j).map Alarm.unmarked = (alarm? s j).map Alarm.unmarked :=
    removeReport_others hj reason s
  have sub : (removeReport i reason s).escalation.Sublist s.escalation := by
    rw [escalation]
    split
    · exact List.filter_sublist
    · exact .refl _
  refine ⟨(h.order.congr fun e _ => (atPos_removeReport _ s i reason rfl).priorityOf _).sublist sub, fun e he => ?_, fun j => ?_⟩
  · obtain ⟨mem, other⟩ := (left e).1 he
    obtain ⟨b, hb, held⟩ := h.named e mem
    have same := others other
    rw [hb] at same
    obtain ⟨c, hc, fields⟩ := Option.map_eq_some_iff.1 same
    have time := congrArg (fun x : Alarm => x.dyn.annTime) fields
    exact ⟨c, hc, Eq.trans time held⟩
  · by_cases same : j = i
    · subst same
      rw [alarmAt_eq (removeReport_record present reason)]
      exact ⟨nofun, fun ⟨e, he, same⟩ => absurd same ((left e).1 he).2⟩
    · have flag : (alarmAt (removeReport i reason s) j).dyn.escalated = (alarmAt s j).dyn.escalated := by
        have fields := congrArg (fun x : Alarm => x.dyn.escalated) (alarmAt_unmarked (others same))
        exact fields
      rw [flag, h.flags j]
      exact ⟨fun ⟨e, he, at_j⟩ => ⟨e, (left e).2 ⟨he, fun h => same (at_j.symm.trans h)⟩, at_j⟩, fun ⟨e, he, at_j⟩ => ⟨e, ((left e).1 he).1, at_j⟩⟩

/-- R32: what follows once an alarm is off the lists writes no list. -/
theorem removeReport_lists (i : Nat) (reason : Reason) (s : State) : let u := unlisted (ownerOf s i) i reason s
    (removeReport i reason s).lists = u.lists ∧ (removeReport i reason s).loads = u.loads ∧ AtPos (ownerOf s i) u (removeReport i reason s) := by
  have place : AtPos (ownerOf s i) (unlisted (ownerOf s i) i reason s) (calmed i reason (delisted i reason s)) :=
    (atPos_modDyn _ _ i _ (by intros; rfl)).trans (atPos_calmed ..)
  have kept : Kept [.alarms, .escalation, .links] (unlisted (ownerOf s i) i reason s) (calmed i reason (delisted i reason s)) :=
    ((quiet_modDyn ..).kept.mono (by simp)).trans ((quiet_calmed ..).kept.mono (by simp))
  intro u
  rw [removeReport_eq]
  split
  · have report := (quiet_removedReport (calmed i reason (delisted i reason s)) (ownerOf s i) i).kept
    have both : Kept [.alarms, .escalation, .positions, .links] u
        (removedReport (ownerOf s i) i (calmed i reason (delisted i reason s))) := (kept.mono (by simp)).trans (report.mono (by simp))
    exact ⟨both.agrees .lists (by simp), both.agrees .loads (by simp), place.trans (atPos_removedReport ..)⟩
  · exact ⟨kept.agrees .lists (by simp), kept.agrees .loads (by simp), place⟩

theorem sited_calmed {home : Nat → Pos} (h : Sited want home s) (i : Nat) (reason : Reason) :
    Sited want home (calmed i reason s) := by
  rw [calmed]
  split
  · have lists : (leaveEscalation i reason s).lists = s.lists := (quiet_leaveEscalation ..).kept.agrees .lists (by simp)
    refine h.same (wf_modDyn (s := s) h.wf i fun d => { d with escalated := false }) (fun q => by rw [annEntries, lists])
      (fun q => by rw [lists]) fun j => ?_
    rw [alarm?_congr (leaveEscalation_alarms ..), alarm?_modDyn]
    split
    · subst j; cases alarm? s i <;> rfl
    · rfl
  · exact h

theorem Sited.of_kept {home : Nat → Pos} {ps : List Part} (h : Sited want home s) (kept : Kept ps s t) (ha : .alarms ∉ ps) (hl : .lists ∉ ps) :
    Sited want home t := by
  have lists : t.lists = s.lists := kept.agrees .lists hl
  have alarms : t.alarms = s.alarms := kept.agrees .alarms ha
  exact h.same (alarms ▸ h.wf) (fun q => by rw [annEntries, lists]) (fun q => by rw [lists]) fun j => by rw [alarm?_congr alarms]

/-- R32: a departed alarm is in no place. -/
theorem sited_removeReport (reason : Reason) (h : OffLists want i (unlisted (ownerOf s i) i reason s)) :
    Sited (wish want i false) (ownerOf (removeReport i reason s)) (removeReport i reason s) := by
  obtain ⟨⟨w, others, sited⟩, ann, deferred, -, -⟩ := h
  have owner : ownerOf (removeReport i reason s) = ownerOf (unlisted (ownerOf s i) i reason s) := funext (removeReport_lists i reason s).2.2.ownerOf
  have same : wish w i false = wish want i false := funext fun j => by
    by_cases hj : j = i
    · subst hj; rw [wish, wish, Function.update_self, Function.update_self]
    · rw [wish_ne hj, wish_ne hj, others j hj]
  have gone : Sited (wish want i false) (ownerOf (unlisted (ownerOf s i) i reason s)) (calmed i reason (delisted i reason s)) :=
    sited_calmed (same ▸ sited.modDyn (f := AlarmDyn.departed reason) (ann _) (deferred _) (fun _ _ => ⟨rfl, nofun⟩) nofun) i reason
  rw [owner, removeReport_eq]
  split
  · exact gone.of_kept (quiet_removedReport ..).kept (by simp) (by simp)
  · exact gone

/-- R32: after a REMOVE report the alarm has no place, and everything else is as it was. -/
theorem InOrder.removed {a : Alarm} (h : InOrder want (· = i) s) (present : alarm? s i = some a) (reason : Reason) :
    InOrder (wish want i false) noneStale (removeReport i reason s) := by
  have sited := sited_removeReport reason (offLists_unlisted reason h)
  obtain ⟨-, -, -, reminded, horn⟩ := offLists_unlisted reason h
  obtain ⟨lists, loads, tail⟩ := removeReport_lists i reason s
  have record := removeReport_record present reason
  have outside (j : Nat) (hj : j ≠ i) := removeReport_others hj reason s
  have escalation := escalationRight_removeReport present reason h.escalation
  have place := atPos_removeReport (p := ownerOf s i) s i reason rfl
  have before : AtPos (ownerOf s i) s (unlisted (ownerOf s i) i reason s) := atPos_unlisted ..
  have unmarked := marksOnly_unlisted (ownerOf s i) i reason s
  generalize unlisted (ownerOf s i) i reason s = u at *
  generalize removeReport i reason s = t at *
  have owner_i : ownerOf u i = ownerOf s i := before.ownerOf i
  have off (q : Pos) (hq : q ≠ ownerOf s i) : onAnn s q i = false := Bool.not_eq_true _ ▸ fun on => hq (h.sited.home_of_onAnn on).symm
  refine ⟨sited, fun j => ?_, escalation, h.shelf.at_pos place, fun q => ?_, fun q => ?_⟩
  · by_cases same : j = i
    · subst same
      rw [alarmAt_eq record, wish, Function.update_self]; rfl
    · have time := congrArg (fun x : Alarm => x.dyn.annTime) (alarmAt_unmarked (outside j same))
      rw [wish_ne same, ← h.timed j]
      exact congrArg Option.isSome time
  · by_cases hq : q = ownerOf s i
    · rw [owner_i] at reminded
      exact hq ▸ reminded.same tail lists loads
    · exact ((h.reminded q).unstale (off q hq)).elsewhere place hq
  · by_cases hq : q = ownerOf s i
    · rw [owner_i] at horn
      exact hq ▸ horn.same tail lists
    · exact ((h.horn q).unstale (off q hq)).elsewhere place hq

/-! ### A placement -/

/-- R38: an entry that joins has the reminder it is to have. -/
theorem RemindersRight.joinAnn (h : RemindersRight stale s p) (i : Nat) (time : Word) :
    RemindersRight stale (joinAnn p i time s) p :=
  fun e he fresh => by
  rw [(atPos_joinAnn p s i time).reminderRuns rfl]
  rw [joinAnn_ann] at he
  rcases mem_insertBy.1 he with rfl | he
  · simp only [freshReminder]
    split <;> simp_all
  · exact h e he fresh

theorem RemindersRight.insertDeferred (h : RemindersRight stale s p) (i : Nat) (time : Word) :
    RemindersRight stale (insertDeferred p i time s) p := fun e he fresh => by
  rw [insertDeferred_ann] at he
  rw [(atPos_insertDeferred p s i time).reminderRuns
    (by rw [show (Machine.insertDeferred p i time s).loads = s.loads from (quiet_insertDeferred ..).kept.agrees .loads (by simp)])]
  exact h e he fresh

/-- R27, R38: a placement keeps the reminders right. -/
theorem RemindersRight.placeOnLists (h : RemindersRight stale s p) (i : Nat) (time : Word) :
    RemindersRight stale (placeOnLists p i time s) p := by
  have timed : RemindersRight stale (stamped i time s) p := h.same (atPos_stamped ..) rfl rfl
  rcases placeOnLists_ways p i time s .normal with ⟨way, -⟩ | ⟨way, -⟩ | ⟨low, -, way, -⟩ <;> rw [way]
  · exact timed.insertDeferred i time
  · exact timed.joinAnn i time
  · have left : RemindersRight stale (notify (.console p) (.retract low.alarm .displaced) (Machine.leaveAnn p low.alarm (stamped i time s))) p :=
      fun e he fresh => by
        have mem : e ∈ ((Machine.leaveAnn p low.alarm (stamped i time s)).lists.get p).ann := he
        rw [leaveAnn_lists, if_pos rfl] at mem
        exact timed e (List.mem_filter.1 mem).1 fresh
    exact (left.insertDeferred low.alarm low.time).joinAnn i time

/-- R40: a placement leaves the escalation list right, where the alarm is not escalated or held its annunciation time. -/
theorem EscalationRight.placeOnLists {time : Word} (h : EscalationRight s)
    (held : (alarmAt s i).dyn.escalated = true → (alarmAt s i).dyn.annTime = some time) : EscalationRight (placeOnLists p i time s) := by
  refine EscalationRight.marked (s := stamped i time s) ?_ (marksOnly_placeOnLists ..) ((quiet_placeOnLists ..).kept.agrees .escalation (by simp))
  have place := atPos_stamped p i time s
  have flag (j : Nat) : (alarmAt (stamped i time s) j).dyn.escalated = (alarmAt s j).dyn.escalated := by
    by_cases same : j = i
    · subst same
      rw [alarmAt_modDyn_self]
      cases present : alarm? s j with
      | none => rw [alarmAt_none present]; rfl
      | some a => rfl
    · rw [alarmAt, alarm?_modDyn_ne same, alarmAt]
  refine ⟨h.order.congr fun e _ => place.priorityOf _, fun e he => ?_, fun j => by rw [flag]; exact h.flags j⟩
  obtain ⟨a, present, at_e⟩ := h.named e he
  by_cases same : e.alarm = i
  · have on : (alarmAt s i).dyn.escalated = true := (h.flags i).2 ⟨e, he, same⟩
    rw [same] at present ⊢
    refine ⟨_, alarm?_modDyn_self present _, ?_⟩
    have time' := held on
    rw [alarmAt_eq present, at_e] at time'
    exact time'.symm
  · exact ⟨a, (alarm?_modDyn_ne same ..).trans present, at_e⟩

/-- R27: after a placement and the judgement of the horn the alarm has a place, and everything else is as it was. -/
theorem InOrder.placed {a : Alarm} (h : InOrder want noneStale s) (off : want i = false) (present : alarm? s i = some a) (time : Word) :
    InOrder (wish want i true) noneStale (judgeHorn (ownerOf s i) (placeOnLists (ownerOf s i) i time s)) := by
  have place : AtPos (ownerOf s i) s (placeOnLists (ownerOf s i) i time s) := atPos_placeOnLists ..
  have judged := atPos_judgeHorn (ownerOf s i) (placeOnLists (ownerOf s i) i time s)
  have unescalated : (alarmAt s i).dyn.escalated = true → (alarmAt s i).dyn.annTime = some time := fun on => by
    have timed := h.escalation.timed on
    rw [h.timed, off] at timed; cases timed
  have sited : Sited (wish want i true) (ownerOf (placeOnLists (ownerOf s i) i time s)) (placeOnLists (ownerOf s i) i time s) := by
    rw [show ownerOf (Machine.placeOnLists (ownerOf s i) i time s) = ownerOf s from funext place.ownerOf]
    exact h.sited.placeOnLists off rfl present time
  have neutral : Neutral (ownerOf s i) (placeOnLists (ownerOf s i) i time s) (judgeHorn (ownerOf s i) (placeOnLists (ownerOf s i) i time s)) :=
    .judged (.refl ..)
  refine ⟨neutral.sited _ sited, fun j => ?_,
    (h.escalation.placeOnLists unescalated).marked neutral.marks (neutral.kept.agrees .escalation (by simp)),
    (h.shelf.at_pos place).at_pos judged, fun q => ?_, fun q => ?_⟩
  · rw [neutral.marks.annTime]
    by_cases same : j = i
    · subst same
      rw [annTime_placeOnLists _ _ (by rw [present]; rfl), if_pos rfl, wish, Function.update_self]; rfl
    · rw [wish_ne same, ← h.timed j]
      have marks := (marksOnly_placeOnLists (ownerOf s i) i time s).annTime j
      rw [marks, alarmAt, alarm?_modDyn_ne same, alarmAt]
  · by_cases hq : q = ownerOf s i
    · exact hq ▸ neutral.reminded _ ((h.reminded _).placeOnLists i time)
    · exact ((h.reminded q).elsewhere place hq).elsewhere judged hq
  · by_cases hq : q = ownerOf s i
    · subst hq
      refine .inr ?_
      rw [judged.hornSounds (q := ownerOf s i) (by rw [judgeHorn_lists, if_pos rfl]), judgeHorn_lists, if_pos rfl]
    · exact ((h.horn q).elsewhere place hq).elsewhere judged hq

/-- R27 to R29: after a PLACE report the alarm has a place. -/
theorem InOrder.placeReport {a : Alarm} (h : InOrder want noneStale s) (off : want i = false) (present : alarm? s i = some a) (weighted : Bool) :
    InOrder (wish want i true) noneStale (placeReport i weighted s) := by
  have placed := h.placed off present s.millTime
  simp only [Machine.placeReport]
  exact (placed.neutral (.when fun _ => neutral_addLoad ..)).neutral (neutral_placedReport ..)

end

end Sys2Proof.Machine
end

section
/-! PROOFS. The invariant of the alarms and the lists under the work on annunciation entries, on the escalation list and on the shelf
lists. -/

namespace Sys2Proof.Machine

section
variable {s t u : State} {p q : Pos} {i : Nat} {want : Nat → Bool} {stale : Nat → Prop}

/-! ### Annunciation entries -/

theorem RemindersRight.fresh (h : RemindersRight stale s q) (off : ∀ i, stale i → onAnn s q i = false) :
    RemindersRight noneStale s q :=
  fun e he _ => h e he fun st => Bool.false_ne_true ((off _ st).symm.trans (onAnn_iff.2 ⟨_, List.mem_map_of_mem he, rfl⟩))

theorem HornRight.fresh (h : HornRight stale s q) (off : ∀ i, stale i → onAnn s q i = false) : HornRight noneStale s q :=
  .inr (h.resolve_left fun ⟨_, he, st⟩ => Bool.false_ne_true ((off _ st).symm.trans (onAnn_iff.2 ⟨_, List.mem_map_of_mem he, rfl⟩)))

/-- Reminders and silenced markers of a position's entries, and its horn line, have been written. -/
theorem InOrder.relisted {stale' : Nat → Prop} (h : InOrder want stale s) (place : AtPos p s u) (kept : Kept [.lists, .links] s u)
    (ann : annEntries u p = annEntries s p) (deferred : (u.lists.get p).deferred = (s.lists.get p).deferred)
    (reminded : RemindersRight stale' u p) (horn : HornRight stale' u p)
    (elsewhere : ∀ q, q ≠ p → RemindersRight stale' s q ∧ HornRight stale' s q) : InOrder want stale' u := by
  have alarms : u.alarms = s.alarms := kept.agrees .alarms (by simp)
  have record (j : Nat) : alarmAt u j = alarmAt s j := by rw [alarmAt, alarmAt, alarm?_congr alarms]
  refine ⟨?_, fun j => by rw [record]; exact h.timed j, h.escalation.marked (.of_alarms alarms) (kept.agrees .escalation (by simp)),
    h.shelf.at_pos place, fun q => ?_, fun q => ?_⟩
  · rw [show ownerOf u = ownerOf s from funext place.ownerOf]
    refine h.sited.same (alarms ▸ h.sited.wf) (fun q => ?_) (fun q => ?_) fun j => by rw [alarm?_congr alarms]
    · by_cases hq : q = p
      · exact hq ▸ ann
      · rw [annEntries, place.lists q hq]
    · by_cases hq : q = p
      · exact hq ▸ deferred
      · rw [place.lists q hq]
  · by_cases hq : q = p
    · exact hq ▸ reminded
    · exact (elsewhere q hq).1.elsewhere place hq
  · by_cases hq : q = p
    · exact hq ▸ horn
    · exact (elsewhere q hq).2.elsewhere place hq

/-- R30, R31, R44: reminders and silenced markers of a position's entries have been written, and the horn is judged. -/
theorem InOrder.reannounced (h : InOrder want stale s) (place : AtPos p s u) (kept : Kept [.lists, .links] s u)
    (ann : annEntries u p = annEntries s p) (deferred : (u.lists.get p).deferred = (s.lists.get p).deferred)
    (reminded : RemindersRight noneStale u p) (only : ∀ i, stale i → ∀ q, q ≠ p → onAnn s q i = false) :
    InOrder want noneStale (judgeHorn p u) := by
  have judged : Neutral p u (judgeHorn p u) := .judged (.refl ..)
  have here : (judgeHorn p u).lists.get p = { u.lists.get p with horn := hornSounds u p } := by rw [judgeHorn_lists, if_pos rfl]
  refine h.relisted (place.trans judged.place) (kept.trans (quiet_judgeHorn ..).kept) (by rw [annEntries, here]; exact ann)
    (by rw [here]; exact deferred) (judged.reminded _ reminded) (.inr ?_) fun q hq =>
      ⟨(h.reminded q).fresh fun i st => only i st q hq, (h.horn q).fresh fun i st => only i st q hq⟩
  rw [judged.place.hornSounds (q := p) (by rw [here]), here]

theorem setReminder_lists (p : Pos) (i : Nat) (r : Option Nat) (s : State) : (setReminder p i r s).lists.get p =
    { s.lists.get p with ann := (s.lists.get p).ann.map fun e => if e.alarm == i then { e with reminder := r } else e } :=
  modLists_get_self ..

theorem map_listed {f : AnnEntry → AnnEntry} (h : ∀ e, (f e).listed = e.listed) (es : List AnnEntry) :
    (es.map f).map (·.listed) = es.map (·.listed) := by
  rw [List.map_map]
  exact List.map_congr_left fun e _ => h e

/-- R30, R31: the entry of an alarm that keeps its place has its reminder written. -/
theorem remindersRight_setReminder {r : Option Nat} (h : RemindersRight (· = i) s p) (right : r.isSome = true ↔ reminderRuns s p i = true) :
    RemindersRight noneStale (setReminder p i r s) p := fun e he _ => by
  rw [setReminder_lists] at he
  obtain ⟨x, hx, rfl⟩ := List.mem_map.1 he
  rw [(atPos_setReminder p s i r).reminderRuns rfl]
  by_cases same : x.alarm = i
  · rw [if_pos (beq_iff_eq.2 same)]
    exact same ▸ right
  · rw [if_neg (by simpa using same)]
    exact h x hx same

theorem updateNotice_kept (p : Pos) (i : Nat) (s : State) :
    AtPos p s (updateNotice p i s) ∧ Kept [.links] s (updateNotice p i s) :=
  ⟨atPos_updateNotice .., (quiet_updateNotice ..).kept⟩

/-- An alarm that stands on no annunciation list of its owner stands on none. -/
theorem InOrder.unstale_off (h : InOrder want (· = i) s) (off : onAnn s (ownerOf s i) i = false) :
    InOrder want noneStale s := by
  have none (q : Pos) : onAnn s q i = false := Bool.not_eq_true _ ▸ fun on => by
    rw [h.sited.home_of_onAnn on, on] at off; cases off
  exact ⟨h.sited, h.timed, h.escalation, h.shelf, fun q => (h.reminded q).unstale (none q), fun q => (h.horn q).unstale (none q)⟩

/-- R30, R31, R43: an entry's reminder is written, with an UPDATE notice, and the horn is judged. -/
theorem InOrder.updated {r : Option Nat} (h : InOrder want (· = i) s) (right : r.isSome = true ↔ reminderRuns s (ownerOf s i) i = true) :
    InOrder want noneStale (judgeHorn (ownerOf s i) (updateNotice (ownerOf s i) i (setReminder (ownerOf s i) i r s))) := by
  generalize hp : ownerOf s i = p at *
  obtain ⟨notified, quiet⟩ := updateNotice_kept p i (setReminder p i r s)
  have lists : (updateNotice p i (setReminder p i r s)).lists = (setReminder p i r s).lists := quiet.agrees .lists (by simp)
  have loads : (updateNotice p i (setReminder p i r s)).loads = (setReminder p i r s).loads := quiet.agrees .loads (by simp)
  refine h.reannounced ((atPos_setReminder ..).trans notified) (((quiet_setReminder ..).kept.mono (by simp)).trans (quiet.mono (by simp)))
    ?_ (by rw [lists, setReminder_lists]) ((remindersRight_setReminder (h.reminded p) right).same notified lists loads) ?_
  · rw [annEntries, lists, setReminder_lists]
    refine map_listed (fun e => ?_) _
    split <;> rfl
  · rintro j rfl q hq
    exact Bool.not_eq_true _ ▸ fun on => hq ((h.sited.home_of_onAnn on).symm.trans hp)

/-- R30: after a RETURN report of an alarm that has entered RETURNED. -/
theorem InOrder.returnReport (h : InOrder want (· = i) s) (returned : lifecycleOf s i = .returned) :
    InOrder want noneStale (returnReport i s) := by
  simp only [Machine.returnReport]
  split
  · exact h.updated (by simp [reminderRuns, returned])
  · exact h.unstale_off (Bool.not_eq_true _ ▸ ‹_›)

theorem freshReminder_isSome (s : State) (p : Pos) (i : Nat) :
    (freshReminder s p i).isSome = true ↔ reminderRuns s p i = true := by
  simp only [freshReminder]; split <;> simp_all

/-- R31: after a RERAISE report. -/
theorem InOrder.reraiseReport (h : InOrder want (· = i) s) (weighted : Bool) :
    InOrder want noneStale (reraiseReport i weighted s) := by
  simp only [Machine.reraiseReport]
  refine InOrder.neutral ?_ (.when fun _ => neutral_addLoad ..)
  split
  · generalize hp : ownerOf s i = p at *
    generalize hu : modLists p (fun v => { v with ann := v.ann.map fun e => if e.alarm == i then { e with silenced := false } else e }) s = u
    have place : AtPos p s u := hu ▸ atPos_modLists p s _
    have lists : u.lists.get p = { s.lists.get p with ann := (s.lists.get p).ann.map fun e => if e.alarm == i then { e with silenced := false } else e } :=
      hu ▸ modLists_get_self ..
    have kept : Kept [.lists] s u := hu ▸ (quiet_modLists ..).kept
    have unsilenced : InOrder want (· = i) u := by
      have ann : annEntries u p = annEntries s p := by
        rw [annEntries, lists]
        refine map_listed (fun e => ?_) _
        split <;> rfl
      have stands : ∃ e ∈ (s.lists.get p).ann, e.alarm = i := by simpa [onAnn] using ‹onAnn s p i = true›
      refine h.relisted place (kept.mono (by simp)) ann (by rw [lists]) (fun e he other => ?_) (.inl ?_) fun q _ => ⟨h.reminded q, h.horn q⟩
      · rw [lists] at he
        obtain ⟨x, hx, rfl⟩ := List.mem_map.1 he
        rw [place.reminderRuns (by rw [show u.loads = s.loads from kept.agrees .loads (by simp)])]
        split at other <;> rename_i same
        · exact absurd (beq_iff_eq.1 same) other
        · rw [if_neg same]; exact h.reminded p x hx other
      · obtain ⟨e, he, same⟩ := stands
        rw [lists]
        exact ⟨_, List.mem_map_of_mem he, by rw [if_pos (beq_iff_eq.2 same)]; exact same⟩
    have owner : ownerOf u i = p := (place.ownerOf i).trans hp
    have done := unsilenced.updated (r := freshReminder u p i) (by rw [owner]; exact freshReminder_isSome ..)
    rw [owner] at done
    exact done
  · exact h.unstale_off (Bool.not_eq_true _ ▸ ‹_›)

/-! ### The escalation list -/

/-- An alarm record but for what an escalation writes. -/
def Alarm.uncounted (a : Alarm) : Alarm := { a with dyn := { a.dyn with escalated := false, reminders := 0 } }

/-- Work that writes no more of the records than escalated flags and reminder counts. -/
structure CountsOnly (s t : State) : Prop where
  kept : Kept [.alarms, .escalation, .journal, .links] s t
  wf : s.alarms.wf = true → t.alarms.wf = true
  record : ∀ j, (alarm? t j).map Alarm.uncounted = (alarm? s j).map Alarm.uncounted

namespace CountsOnly

theorem trans (h : CountsOnly s t) (k : CountsOnly t u) : CountsOnly s u :=
  ⟨h.kept.trans k.kept, k.wf ∘ h.wf, fun j => (k.record j).trans (h.record j)⟩

theorem modDyn (i : Nat) {f : AlarmDyn → AlarmDyn} (hf : ∀ a : Alarm, Alarm.uncounted { a with dyn := f a.dyn } = a.uncounted) (s : State) :
    CountsOnly s (modDyn i f s) := by
  refine ⟨(quiet_modDyn ..).kept.mono (by simp), fun wf => wf_modDyn wf .., fun j => ?_⟩
  rw [alarm?_modDyn]
  split
  · subst j; rw [Option.map_map]; exact Option.map_congr fun a _ => hf a
  · rfl

theorem alarmAt (h : CountsOnly s t) (j : Nat) : (Machine.alarmAt t j).uncounted = (Machine.alarmAt s j).uncounted := by
  have same := h.record j
  simp only [Machine.alarmAt]
  cases ht : alarm? t j <;> cases hs : alarm? s j <;> simp_all

theorem annTime (h : CountsOnly s t) (j : Nat) : (Machine.alarmAt t j).dyn.annTime = (Machine.alarmAt s j).dyn.annTime := by
  have same := congrArg (fun x : Alarm => x.dyn.annTime) (h.alarmAt j)
  exact same

theorem place (h : CountsOnly s t) (p : Pos) : AtPos p s t := by
  have lists : t.lists = s.lists := h.kept.agrees .lists (by simp)
  have positions : t.positions = s.positions := h.kept.agrees .positions (by simp)
  refine ⟨fun q _ => by rw [lists], fun q _ => by rw [show t.loads = s.loads from h.kept.agrees .loads (by simp)], fun q => by rw [lists],
    fun q => by rw [positions], fun j => ?_, h.kept.agrees .areas (by simp)⟩
  have same := congrArg (Option.map Alarm.settled) (h.record j)
  rw [Option.map_map, Option.map_map] at same
  exact same

end CountsOnly

/-- R40, R41: work on the escalation list that leaves it right. -/
theorem InOrder.counted (h : InOrder want stale s) (work : CountsOnly s t) (right : EscalationRight t) :
    InOrder want stale t := by
  have lists : t.lists = s.lists := work.kept.agrees .lists (by simp)
  have loads : t.loads = s.loads := work.kept.agrees .loads (by simp)
  have place (p : Pos) := work.place p
  refine ⟨?_, fun j => by rw [work.annTime]; exact h.timed j, right, h.shelf.at_pos (place .p0), fun q => (h.reminded q).same (place q) lists loads,
    fun q => (h.horn q).same (place q) lists⟩
  rw [show ownerOf t = ownerOf s from funext (place .p0).ownerOf]
  refine h.sited.same (work.wf h.sited.wf) (fun q => by rw [annEntries, lists]) (fun q => by rw [lists]) fun j => ?_
  have same := congrArg (Option.map Alarm.sited) (work.record j)
  rw [Option.map_map, Option.map_map] at same
  exact same

/-- R40: the entries after work on the escalation list, where annunciation times stand. -/
theorem escalationRight_of (h : EscalationRight s) (work : CountsOnly s t) (order : InRankOrder s t.escalation)
    (timed : ∀ e ∈ t.escalation, (∃ x ∈ s.escalation, x = e) ∨ ∃ a, alarm? s e.alarm = some a ∧ a.dyn.annTime = some e.time)
    (flags : ∀ i, (alarmAt t i).dyn.escalated = true ↔ ∃ e ∈ t.escalation, e.alarm = i) : EscalationRight t := by
  refine ⟨order.congr fun e _ => (work.place .p0).priorityOf _, fun e he => ?_, flags⟩
  obtain ⟨a, present, held⟩ : ∃ a, alarm? s e.alarm = some a ∧ a.dyn.annTime = some e.time := by
    rcases timed e he with ⟨x, hx, rfl⟩ | found
    · exact h.named x hx
    · exact found
  have same := work.record e.alarm
  rw [present] at same
  obtain ⟨b, hb, fields⟩ := Option.map_eq_some_iff.1 same
  have time := congrArg (fun x : Alarm => x.dyn.annTime) fields
  exact ⟨b, hb, Eq.trans time held⟩

/-- R42: an alarm leaves the escalation list. -/
theorem InOrder.leftEscalation (h : InOrder want stale s) (z : Nat) :
    InOrder want stale (leaveEscalation z .displaced (modDyn z (fun d => { d with reminders := 0 }) s)) := by
  generalize ht : leaveEscalation z .displaced (modDyn z (fun d => { d with reminders := 0 }) s) = t
  have work : CountsOnly s t := by
    have counted : CountsOnly s (modDyn z (fun d => { d with escalated := false }) (modDyn z (fun d => { d with reminders := 0 }) s)) :=
      (CountsOnly.modDyn z (fun _ => rfl) s).trans (.modDyn z (fun _ => rfl) _)
    subst ht
    exact ⟨((quiet_modDyn ..).kept.mono (by simp)).trans ((quiet_leaveEscalation ..).kept.mono (by simp)), counted.wf, counted.record⟩
  obtain ⟨here, others, list, -⟩ := displacedEscalation_spec z s
  rw [ht] at here others list
  refine h.counted work (escalationRight_of h.escalation work (list ▸ h.escalation.order.sublist List.filter_sublist)
    (fun e he => .inl ⟨e, ?_, rfl⟩) fun j => ?_)
  · rw [list] at he; exact (List.mem_filter.1 he).1
  · rw [list]
    by_cases same : j = z
    · subst same
      refine ⟨fun on => ?_, fun ⟨e, he, at_j⟩ => absurd at_j (bne_iff_ne.1 (List.mem_filter.1 he).2)⟩
      cases present : alarm? s j with
      | none => rw [alarmAt, show alarm? t j = none by simpa [present] using work.record j] at on; cases on
      | some a => rw [alarmAt_eq (here a present)] at on; cases on
    · rw [alarmAt, others j same, ← alarmAt, h.escalation.flags j]
      exact ⟨fun ⟨e, he, at_j⟩ => ⟨e, List.mem_filter.2 ⟨he, bne_iff_ne.2 fun h => same (at_j.symm.trans h)⟩, at_j⟩,
        fun ⟨e, he, at_j⟩ => ⟨e, (List.mem_filter.1 he).1, at_j⟩⟩

/-- R41: an alarm with an annunciation time enters the escalation list. -/
theorem InOrder.enteredEscalation {a : Alarm} (h : InOrder want stale s) (present : alarm? s i = some a) (wanted : want i = true)
    (off : a.dyn.escalated = false) : InOrder want stale (enterEscalation i s) := by
  have flag : (alarmAt s i).dyn.escalated = false := by rw [alarmAt_eq present]; exact off
  have held : a.dyn.annTime = some (a.dyn.annTime.getD 0) := by
    have timed := h.timed i
    rw [alarmAt_eq present, wanted] at timed
    obtain ⟨x, hx⟩ := Option.isSome_iff_exists.1 timed
    rw [hx]; rfl
  have fresh : ∀ x ∈ s.escalation, x.alarm ≠ i := fun x hx same =>
    Bool.false_ne_true (flag.symm.trans ((h.escalation.flags i).2 ⟨x, hx, same⟩))
  obtain ⟨here, others, list, -⟩ := enterEscalation_spec present
  have work : CountsOnly s (enterEscalation i s) := by
    refine ⟨(quiet_enterEscalation ..).kept.mono (by simp), fun wf => wf_modDyn (s := s) wf i fun d => { d with escalated := true }, fun j => ?_⟩
    by_cases same : j = i
    · subst same; rw [here, present]; rfl
    · rw [others j same]
  generalize enterEscalation i s = t at *
  refine h.counted work (escalationRight_of h.escalation work (list ▸ h.escalation.order.insertBy fresh) (fun e he => ?_) fun j => ?_)
  · rw [list] at he
    rcases mem_insertBy.1 he with rfl | he
    · exact .inr ⟨a, present, held⟩
    · exact .inl ⟨e, he, rfl⟩
  · rw [list]
    by_cases same : j = i
    · subst same
      rw [alarmAt_eq here]
      exact ⟨fun _ => ⟨_, mem_insertBy.2 (.inl rfl), rfl⟩, fun _ => rfl⟩
    · rw [alarmAt, others j same, ← alarmAt, h.escalation.flags j]
      refine ⟨fun ⟨e, he, at_j⟩ => ⟨e, mem_insertBy.2 (.inr he), at_j⟩, fun ⟨e, he, at_j⟩ => ?_⟩
      rcases mem_insertBy.1 he with rfl | he
      · exact absurd at_j.symm same
      · exact ⟨e, he, at_j⟩

/-- R39, R41: a reminder count is written. -/
theorem InOrder.recounted (h : InOrder want stale s) (i : Nat) (f : AlarmDyn → Nat) :
    InOrder want stale (modDyn i (fun d => { d with reminders := f d }) s) := by
  have work : CountsOnly s (modDyn i (fun d => { d with reminders := f d }) s) := .modDyn i (fun _ => rfl) s
  refine h.counted work (escalationRight_of h.escalation work h.escalation.order (fun e he => .inl ⟨e, he, rfl⟩) fun j => ?_)
  rw [show (alarmAt (modDyn i (fun d => { d with reminders := f d }) s) j).dyn.escalated = (alarmAt s j).dyn.escalated from ?_]
  · exact h.escalation.flags j
  · rw [alarmAt, alarm?_modDyn, alarmAt]
    split
    · subst j; cases alarm? s i <;> rfl
    · rfl

/-- R41: an alarm that is due to escalate is judged against the escalation list. -/
theorem InOrder.escalate {a : Alarm} (h : InOrder want stale s) (present : alarm? s i = some a) (wanted : want i = true)
    (off : a.dyn.escalated = false) : InOrder want stale (escalate i s) := by
  simp only [Machine.escalate]
  split
  · exact h.enteredEscalation present wanted off
  · split
    · rename_i z last
      split
      · have mem : z ∈ s.escalation := List.mem_of_getLast? last
        have other : i ≠ z.alarm := fun same => by
          have on := (h.escalation.flags i).2 ⟨z, mem, same.symm⟩
          rw [alarmAt_eq present, off] at on; cases on
        refine (h.leftEscalation z.alarm).enteredEscalation (a := a) ?_ wanted off
        rw [(displacedEscalation_spec z.alarm s).2.1 i other]
        exact present
      · exact h.recounted i fun _ => 0
    · exact h

/-! ### The shelf lists -/

/-- An alarm record but for its shelved flag. -/
def Alarm.unshelved (a : Alarm) : Alarm := { a with dyn := { a.dyn with shelved := false } }

/-- Work that writes no more than shelf lists and shelved flags. -/
structure ShelvesOnly (s t : State) : Prop where
  kept : Kept [.alarms, .lists, .journal, .links] s t
  wf : s.alarms.wf = true → t.alarms.wf = true
  lists : ∀ q, t.lists.get q = { s.lists.get q with shelf := (t.lists.get q).shelf }
  record : ∀ j, (alarm? t j).map Alarm.unshelved = (alarm? s j).map Alarm.unshelved

namespace ShelvesOnly

theorem trans (h : ShelvesOnly s t) (k : ShelvesOnly t u) : ShelvesOnly s u :=
  ⟨h.kept.trans k.kept, k.wf ∘ h.wf, fun q => by rw [k.lists, h.lists], fun j => (k.record j).trans (h.record j)⟩

theorem modDyn (i : Nat) (b : Bool) (s : State) : ShelvesOnly s (modDyn i (fun d => { d with shelved := b }) s) := by
  refine ⟨(quiet_modDyn ..).kept.mono (by simp), fun wf => wf_modDyn wf .., fun _ => rfl, fun j => ?_⟩
  rw [alarm?_modDyn]
  split
  · subst j; rw [Option.map_map]; rfl
  · rfl

theorem modLists (p : Pos) (f : List ShelfEntry → List ShelfEntry) (s : State) :
    ShelvesOnly s (modLists p (fun v => { v with shelf := f v.shelf }) s) := by
  refine ⟨(quiet_modLists ..).kept.mono (by simp), id, fun q => ?_, fun _ => rfl⟩
  rw [modLists_get]
  split
  · subst q; rfl
  · rfl

theorem alarmAt (h : ShelvesOnly s t) (j : Nat) : (Machine.alarmAt t j).unshelved = (Machine.alarmAt s j).unshelved := by
  have same := h.record j
  simp only [Machine.alarmAt]
  cases ht : alarm? t j <;> cases hs : alarm? s j <;> simp_all

theorem ownerOf (h : ShelvesOnly s t) (j : Nat) : ownerOf t j = ownerOf s j := by
  have same := congrArg (fun x : Alarm => x.defn.area) (h.alarmAt j)
  rw [Machine.ownerOf, Machine.ownerOf, areaOwner, areaOwner, show t.areas = s.areas from h.kept.agrees .areas (by simp)]
  exact congrArg (fun a => s.areas.getD a .p0) same

end ShelvesOnly

theorem InOrder.reshelved (h : InOrder want stale s) (work : ShelvesOnly s t) (right : ShelfRight t) :
    InOrder want stale t := by
  have loads : t.loads = s.loads := work.kept.agrees .loads (by simp)
  have escalation : t.escalation = s.escalation := work.kept.agrees .escalation (by simp)
  have field {α : Type} (f : Alarm → α) (hf : ∀ a, f a.unshelved = f a) (j : Nat) : f (alarmAt t j) = f (alarmAt s j) := by
    rw [← hf, work.alarmAt, hf]
  have priority (j : Nat) : priorityOf t j = priorityOf s j := field (fun a => a.defn.priority) (fun _ => rfl) j
  have lifecycle (j : Nat) : lifecycleOf t j = lifecycleOf s j := field (fun a => a.dyn.lifecycle) (fun _ => rfl) j
  have ann (q : Pos) : (t.lists.get q).ann = (s.lists.get q).ann := by rw [work.lists]
  have horn (q : Pos) : (t.lists.get q).horn = (s.lists.get q).horn := by rw [work.lists]
  refine ⟨?_, fun j => by rw [field (fun a => a.dyn.annTime) (fun _ => rfl)]; exact h.timed j, ⟨escalation ▸ h.escalation.order.congr fun e _ => priority _,
    fun e he => ?_, fun j => by rw [field (fun a => a.dyn.escalated) (fun _ => rfl), escalation]; exact h.escalation.flags j⟩, right,
    fun q e he fresh => ?_, fun q => ?_⟩
  · rw [show ownerOf t = ownerOf s from funext work.ownerOf]
    refine h.sited.same (work.wf h.sited.wf) (fun q => by rw [annEntries, ann]) (fun q => by rw [work.lists]) fun j => ?_
    have same := congrArg (Option.map Alarm.sited) (work.record j)
    rw [Option.map_map, Option.map_map] at same
    exact same
  · obtain ⟨a, present, held⟩ := h.escalation.named e (escalation ▸ he)
    have same := work.record e.alarm
    rw [present] at same
    obtain ⟨b, hb, fields⟩ := Option.map_eq_some_iff.1 same
    have time := congrArg (fun x : Alarm => x.dyn.annTime) fields
    exact ⟨b, hb, Eq.trans time held⟩
  · rw [ann] at he
    rw [reminderRuns_congr lifecycle priority (by rw [loads])]
    exact h.reminded q e he fresh
  · have same : hornSounds t q = hornSounds s q := by simp only [hornSounds, ann, priority, lifecycle]
    rw [HornRight, ann, horn, same]
    exact h.horn q

theorem InShelfOrder.sublist {l m : List ShelfEntry} (h : InShelfOrder l) (sub : m.Sublist l) : InShelfOrder m :=
  ⟨h.1.sublist sub, h.2.sublist (sub.map _)⟩

/-- R108: an entry is inserted at the place its expiry gives it. -/
theorem InShelfOrder.insertBy {l : List ShelfEntry} {e : ShelfEntry} (h : InShelfOrder l) (fresh : ∀ x ∈ l, x.alarm ≠ e.alarm) :
    InShelfOrder (insertBy shelfBefore e l) := by
  refine ⟨pairwise_insertBy h.1 (fun x hx r => ?_) (fun x hx r => ?_) fun x y r r' => ⟨by omega, fun same some' => ?_⟩, ?_⟩
  · simp only [shelfBefore, Bool.or_eq_true, Bool.and_eq_true, decide_eq_true_eq, beq_iff_eq] at r
    exact ⟨by omega, fun _ _ => by omega⟩
  · have other := fresh x hx
    rw [← Bool.not_eq_true, shelfBefore] at r
    simp only [Bool.or_eq_true, Bool.and_eq_true, decide_eq_true_eq, beq_iff_eq] at r
    exact ⟨by omega, fun _ _ => by omega⟩
  · exact (r.2 (by omega) some').trans (r'.2 (by omega) (by omega))
  · refine (((perm_insertBy ..).map _).nodup_iff).2 (List.nodup_cons.2 ⟨fun mem => ?_, h.2⟩)
    obtain ⟨x, hx, same⟩ := List.mem_map.1 mem
    exact fresh x hx same

end

end Sys2Proof.Machine
end

section
/-! PROOFS. When the alarms that are to have a place have one (R26), and what a command may change without that; the work of the shelf
lists (R108). -/

namespace Sys2Proof.Machine

/-- R4: an alarm out of service is not shelved, and in UNCONFIGURED none is raised or shelved. -/
def Alarm.Rests (r : RunState) (a : Alarm) : Prop := (a.dyn.lifecycle = .outOfService → a.dyn.shelved = false) ∧
  (r = .unconfigured → (a.dyn.lifecycle = .normal ∨ a.dyn.lifecycle = .outOfService) ∧ a.dyn.shelved = false)

/-- R24 to R26, R38, R40, R43, R108: the alarms that are to have a place have one, and the lists follow the alarms. -/
structure Ordered (s : State) : Prop where
  order : InOrder (placedNow s) noneStale s
  idle : Idle s

section
variable {s t u : State} {p q : Pos} {i : Nat} {want : Nat → Bool} {stale : Nat → Prop}

/-- In RESYNC and RUNNING an alarm in service rests. -/
theorem Alarm.rests_of {r : RunState} {a : Alarm} (run : r ≠ .unconfigured) (service : a.dyn.lifecycle ≠ .outOfService) :
    a.Rests r :=
  ⟨fun out => absurd out service, fun un => absurd un run⟩

/-! ### Work that the lists do not read -/

/-- An alarm but for its input and acknowledger, which no list reads. -/
def Alarm.inputless (a : Alarm) : Alarm := { a with dyn := { a.dyn with input := .unknown, acknowledger := none } }

/-- Work that leaves what the lists read, and the lists. -/
structure Retains (s t : State) : Prop where
  kept : Kept [.clock, .device, .mask, .alarms, .bypasses, .operators, .grants, .positions, .links, .journal, .free, .pending] s t
  wf : s.alarms.wf = true → t.alarms.wf = true
  record : ∀ j, (alarm? t j).map Alarm.inputless = (alarm? s j).map Alarm.inputless

namespace Retains

theorem alarmAt (h : Retains s t) (j : Nat) : (Machine.alarmAt t j).inputless = (Machine.alarmAt s j).inputless := by
  have same := h.record j
  simp only [Machine.alarmAt]
  cases ht : alarm? t j <;> cases hs : alarm? s j <;> simp_all

theorem field {α : Type} (h : Retains s t) (f : Alarm → α) (hf : ∀ a, f a.inputless = f a) (j : Nat) :
    f (Machine.alarmAt t j) = f (Machine.alarmAt s j) := by rw [← hf, h.alarmAt, hf]

theorem ownerOf (h : Retains s t) : ownerOf t = ownerOf s := funext fun j => by
  have same := h.field (fun a => a.defn.area) (fun _ => rfl) j
  rw [Machine.ownerOf, Machine.ownerOf, areaOwner, areaOwner, show t.areas = s.areas from h.kept.agrees .areas (by simp), same]

theorem placedNow (h : Retains s t) (mask : t.mask = s.mask) : placedNow t = placedNow s := funext fun j => by
  have opens := h.field Alarm.isOpen (fun _ => rfl) j
  have group := h.field (fun a => a.defn.group) (fun _ => rfl) j
  simp only [Machine.placedNow, isPlaced, isSuppressed, opens, group, mask]

/-- Work outside what the lists read, and the lists. -/
theorem of_kept {ps : List Part} (h : Kept ps s t) (alarms : .alarms ∉ ps)
    (hp : ∀ x ∈ ps, x ∈ [Part.clock, .device, .mask, .alarms, .bypasses, .operators, .grants, .positions, .links, .journal, .free, .pending]) :
    Retains s t :=
  have same : t.alarms = s.alarms := h.agrees .alarms alarms
  ⟨h.mono hp, fun wf => same ▸ wf, fun j => by rw [alarm?_congr same]⟩

theorem modDyn (i : Nat) {f : AlarmDyn → AlarmDyn} (hf : ∀ a : Alarm, Alarm.inputless { a with dyn := f a.dyn } = a.inputless) (s : State) :
    Retains s (modDyn i f s) := by
  refine ⟨(quiet_modDyn ..).kept.mono (by simp), fun wf => wf_modDyn wf .., fun j => ?_⟩
  rw [alarm?_modDyn]
  split
  · subst j; rw [Option.map_map]; exact Option.map_congr fun a _ => hf a
  · rfl

end Retains

theorem InOrder.retained (h : InOrder want stale s) (r : Retains s t) : InOrder want stale t := by
  have lists : t.lists = s.lists := r.kept.agrees .lists (by simp)
  have loads : t.loads = s.loads := r.kept.agrees .loads (by simp)
  have escalation : t.escalation = s.escalation := r.kept.agrees .escalation (by simp)
  have priority (j : Nat) : priorityOf t j = priorityOf s j := r.field (fun a => a.defn.priority) (fun _ => rfl) j
  have lifecycle (j : Nat) : lifecycleOf t j = lifecycleOf s j := r.field (fun a => a.dyn.lifecycle) (fun _ => rfl) j
  have found {i : Nat} {a : Alarm} (present : alarm? s i = some a) : ∃ b, alarm? t i = some b ∧ b.inputless = a.inputless := by
    have same := r.record i
    rw [present] at same
    exact Option.map_eq_some_iff.1 same
  refine ⟨?_, fun j => by rw [r.field (fun a => a.dyn.annTime) (fun _ => rfl)]; exact h.timed j,
    ⟨escalation ▸ h.escalation.order.congr fun e _ => priority _, fun e he => ?_,
      fun j => by rw [r.field (fun a => a.dyn.escalated) (fun _ => rfl), escalation]; exact h.escalation.flags j⟩,
    ⟨fun q => by rw [lists]; exact h.shelf.order q, fun q e he => ?_,
      fun j => by rw [r.field (fun a => a.dyn.shelved) (fun _ => rfl), r.ownerOf, lists]; exact h.shelf.flags j⟩,
    fun q e he fresh => ?_, fun q => ?_⟩
  · rw [r.ownerOf]
    refine h.sited.same (r.wf h.sited.wf) (fun q => by rw [annEntries, lists]) (fun q => by rw [lists]) fun j => ?_
    have same := congrArg (Option.map Alarm.sited) (r.record j)
    rw [Option.map_map, Option.map_map] at same
    exact same
  · obtain ⟨a, present, held⟩ := h.escalation.named e (escalation ▸ he)
    obtain ⟨b, hb, fields⟩ := found present
    have time := congrArg (fun x : Alarm => x.dyn.annTime) fields
    exact ⟨b, hb, Eq.trans time held⟩
  · rw [lists] at he
    obtain ⟨defined, at_q⟩ := h.shelf.named q e he
    have same := congrArg Option.isSome (r.record e.alarm)
    rw [Option.isSome_map, Option.isSome_map] at same
    exact ⟨same.trans defined, (congrFun r.ownerOf _).trans at_q⟩
  · rw [lists] at he
    rw [reminderRuns_congr lifecycle priority (by rw [loads])]
    exact h.reminded q e he fresh
  · have same : hornSounds t q = hornSounds s q := by simp only [hornSounds, lists, priority, lifecycle]
    rw [HornRight, lists, same]
    exact h.horn q

theorem Ordered.retained (h : Ordered s) (r : Retains s t) (mask : t.mask = s.mask)
    (run : t.runState = .unconfigured → s.runState = .unconfigured) : Ordered t := by
  refine ⟨r.placedNow mask ▸ h.order.retained r, fun j b present => ?_⟩
  have same := r.record j
  rw [present] at same
  obtain ⟨a, ha, fields⟩ := Option.map_eq_some_iff.1 same.symm
  obtain ⟨out, idle⟩ := h.idle j a ha
  have lifecycle : b.dyn.lifecycle = a.dyn.lifecycle := by
    have same := congrArg (fun x : Alarm => x.dyn.lifecycle) fields
    exact same.symm
  have shelved : b.dyn.shelved = a.dyn.shelved := by
    have same := congrArg (fun x : Alarm => x.dyn.shelved) fields
    exact same.symm
  rw [lifecycle, shelved]
  exact ⟨out, fun un => idle (run un)⟩

/-! ### What is to have a place -/

/-- What says whether an alarm is to have a place, and whether it rests. -/
def Alarm.planned (a : Alarm) : Nat × Lifecycle × Bool := (a.defn.group, a.dyn.lifecycle, a.dyn.shelved)

/-- The same alarms are to have a place, and rest. -/
structure SamePlans (s t : State) : Prop where
  record : ∀ j, (alarm? t j).map Alarm.planned = (alarm? s j).map Alarm.planned
  mask : t.mask = s.mask
  run : t.runState = s.runState

theorem placedNow_congr (mask : t.mask = s.mask) (record : (alarm? t i).map Alarm.planned = (alarm? s i).map Alarm.planned) :
    placedNow t i = placedNow s i := by
  have fields : (alarmAt t i).planned = (alarmAt s i).planned := by
    simp only [alarmAt]
    cases ht : alarm? t i <;> cases hs : alarm? s i <;> simp_all
  have group : (alarmAt t i).defn.group = (alarmAt s i).defn.group := congrArg (fun x => x.1) fields
  have lifecycle : (alarmAt t i).dyn.lifecycle = (alarmAt s i).dyn.lifecycle := congrArg (fun x => x.2.1) fields
  have shelved : (alarmAt t i).dyn.shelved = (alarmAt s i).dyn.shelved := congrArg (fun x => x.2.2) fields
  simp only [placedNow, isPlaced, Alarm.isOpen, isSuppressed, mask, group, lifecycle, shelved]

/-- R26: whether an alarm is to have a place, from its lifecycle. -/
theorem placedNow_eq (s : State) (i : Nat) :
    placedNow s i = ((lifecycleOf s i == .raised || lifecycleOf s i == .returned) && !isWithheld s i) := by
  rw [placedNow, isPlaced, Alarm.isOpen, isWithheld, lifecycleOf, Bool.and_assoc, Bool.not_or]

namespace SamePlans

theorem trans (h : SamePlans s t) (k : SamePlans t u) : SamePlans s u :=
  ⟨fun j => (k.record j).trans (h.record j), k.mask.trans h.mask, k.run.trans h.run⟩

theorem placedNow (h : SamePlans s t) : placedNow t = placedNow s := funext fun j => placedNow_congr h.mask (h.record j)

theorem rests_of {r : RunState} {b : Alarm} {j : Nat} (record : (alarm? t j).map Alarm.planned = (alarm? s j).map Alarm.planned)
    (present : alarm? t j = some b) (rests : ∀ a, alarm? s j = some a → a.Rests r) : b.Rests r := by
  rw [present] at record
  obtain ⟨a, ha, fields⟩ := Option.map_eq_some_iff.1 record.symm
  have lifecycle : a.dyn.lifecycle = b.dyn.lifecycle := congrArg (fun x => x.2.1) fields
  have shelved : a.dyn.shelved = b.dyn.shelved := congrArg (fun x => x.2.2) fields
  have old := rests a ha
  rw [Alarm.Rests, lifecycle, shelved] at old
  exact old

theorem idle (h : SamePlans s t) (k : Idle s) : Idle t := fun j b present => by
  have rests : b.Rests t.runState := rests_of (h.record j) present fun a ha => h.run ▸ k j a ha
  exact rests

/-- Work at a position. -/
theorem at_pos {ps : List Part} (place : AtPos p s t) (kept : Kept ps s t) (mask : .mask ∉ ps) (device : .device ∉ ps) :
    SamePlans s t := by
  refine ⟨fun j => ?_, kept.agrees .mask mask, (kept.agrees .device device).1⟩
  have same := congrArg (Option.map fun x : AlarmDef × Input × Lifecycle × Option Nat × Bool => (x.1.group, x.2.2.1, x.2.2.2.2)) (place.settled j)
  rw [Option.map_map, Option.map_map] at same
  exact same

end SamePlans

theorem Neutral.plans (n : Neutral p s t) : SamePlans s t := .at_pos n.place n.kept (by simp) (by simp)

theorem Ordered.planned (h : Ordered s) (plans : SamePlans s t) (order : InOrder (placedNow s) noneStale t) : Ordered t :=
  ⟨plans.placedNow ▸ order, plans.idle h.idle⟩

theorem Ordered.neutral (h : Ordered s) (n : Neutral p s t) : Ordered t := h.planned n.plans (h.order.neutral n)

/-- One alarm is written, and has the place that it is then to have. -/
theorem Ordered.written (h : Ordered s) (others : ∀ j, j ≠ i → (alarm? t j).map Alarm.planned = (alarm? s j).map Alarm.planned)
    (mask : t.mask = s.mask) (run : t.runState = s.runState) (order : InOrder (wish (placedNow s) i (placedNow t i)) noneStale t)
    (rests : ∀ a, alarm? t i = some a → a.Rests s.runState) : Ordered t := by
  refine ⟨?_, fun j b present => ?_⟩
  · rw [show placedNow t = wish (placedNow s) i (placedNow t i) from funext fun j => ?_]
    · exact order
    · by_cases same : j = i
      · subst same; rw [wish, Function.update_self]
      · rw [wish_ne same]; exact placedNow_congr mask (others j same)
  · have done : b.Rests t.runState := run ▸ (by
      by_cases same : j = i
      · subst same; exact rests b present
      · exact SamePlans.rests_of (others j same) present fun a ha => h.idle j a ha)
    exact done

/-- One alarm is written, and then the work at a position gives it the place it is to have. -/
theorem Ordered.replaced {ps : List Part} (h : Ordered s) (kept : Kept ps s u) (mask : .mask ∉ ps) (device : .device ∉ ps)
    (others : ∀ j, j ≠ i → alarm? u j = alarm? s j) (plans : SamePlans u t)
    (order : InOrder (wish (placedNow s) i (placedNow u i)) noneStale t) (rests : ∀ a, alarm? u i = some a → a.Rests s.runState) :
    Ordered t := by
  refine h.written (i := i) (fun j hj => ?_) (plans.mask.trans (kept.agrees .mask mask))
    (plans.run.trans (kept.agrees .device device).1) (plans.placedNow ▸ order) fun a present =>
      SamePlans.rests_of (plans.record i) present rests
  rw [plans.record j, others j hj]

theorem Ordered.rerecorded (h : Ordered s) (r : Rerecords i s u) (plans : SamePlans u t)
    (order : InOrder (wish (placedNow s) i (placedNow u i)) noneStale t) (rests : ∀ a, alarm? u i = some a → a.Rests s.runState) :
    Ordered t := h.replaced r.kept (by simp) (by simp) r.others plans order rests

end

end Sys2Proof.Machine
end

section
/-! PROOFS. Every alarm in its place after the commands on one alarm's lifecycle: RAISE, CLEAR, ACK, LATCH_RESET and the service states. -/

namespace Sys2Proof.Machine

section
variable {s t u m : State} {p q : Pos} {i : Nat} {a b : Alarm}

/-- A record that was written and journaled, where the lists read nothing of what was written. -/
theorem Recorded.rerecords {ls : List Line} (h : Recorded i a b ls s m) (wf : s.alarms.wf = true → m.alarms.wf = true)
    (fixed : b.fixed = a.fixed) : Rerecords i s m :=
  ⟨h.kept.mono (by simp), wf, h.others, by rw [h.self, h.before]; exact congrArg some fixed⟩

/-- R9: the entry of an event, where it is journaled. -/
theorem Recorded.whenEvent (h : Recorded i a b [] s m) (event : Bool) (k : EntryKind) (c : Nat) : ∃ ls,
    Recorded i a b ls s (if event then Machine.append k (some (Machine.ownerOf m i)) none (some i) c m else m) := by
  cases event with
  | true => exact ⟨_, h.append ..⟩
  | false => exact ⟨_, h⟩

theorem Recorded.isWithheld {ls : List Line} (h : Recorded i a b ls s m) (shelved : b.dyn.shelved = a.dyn.shelved) :
    isWithheld m i = isWithheld s i := by
  rw [isWithheld_eq h.self, isWithheld_eq h.before, h.isSuppressed, shelved]

/-- One alarm's record is written, the lists are told, and then the items. -/
theorem Ordered.reported {ps : List Part} (h : Ordered s) (r : Rerecords i s u) (place : AtPos (ownerOf u i) u t) (kept : Kept ps u t)
    (mask : .mask ∉ ps) (device : .device ∉ ps) (order : InOrder (wish (placedNow s) i (placedNow u i)) noneStale t)
    (rests : ∀ a, alarm? u i = some a → a.Rests s.runState) {old new : Lifecycle} : Ordered (lifecycleReport i old new t) :=
  (h.rerecorded r (.at_pos place kept mask device) order rests).neutral (neutral_lifecycleReport i old new rfl)

/-- R10: the lifecycles that a RAISE changes. -/
theorem raisedFrom_moves {lc : Lifecycle} (h : raisedFrom lc ≠ lc) : (lc = .normal ∨ lc = .latched ∨ lc = .returned) ∧
    raisedFrom lc = .raised := by cases lc <;> simp_all [raisedFrom]

/-- R10, R26: after the report of a raised alarm. -/
theorem InOrder.raiseReport (h : InOrder (placedNow s) noneStale s) (r : Rerecords i s u) (present : alarm? u i = some b)
    (withheld : isWithheld u i = isWithheld s i) (moves : lifecycleOf s i ≠ .raised) (raised : b.dyn.lifecycle = .raised) (event : Bool) :
    InOrder (wish (placedNow s) i (placedNow u i)) noneStale (raiseReport i (lifecycleOf s i) event u) := by
  have now : placedNow u i = !isWithheld u i := by rw [placedNow_eq, lifecycleOf, alarmAt_eq present, raised]; rfl
  have before := placedNow_eq s i
  have written := h.rerecorded r
  rw [now, Machine.raiseReport]
  cases held : isWithheld u i with
  | true =>
    rw [← withheld, held, Bool.not_true, Bool.and_false] at before
    rw [if_pos rfl, Bool.not_true, Sited.wish_self before]
    exact written.unstale before
  | false =>
    rw [← withheld, held, Bool.not_false, Bool.and_true] at before
    rw [if_neg nofun, Bool.not_false]
    split
    · rename_i returned
      rw [Sited.wish_self (before.trans (by rw [returned]; rfl))]
      exact written.reraiseReport event
    · rename_i other
      have off : placedNow s i = false := by rw [before]; simp [moves, other]
      exact (written.unstale off).placeReport off present event

theorem wf_whenEvent {f : AlarmDyn → AlarmDyn} {g : AlarmDyn → AlarmDyn} {x : State} (h : s.alarms.wf = true) (event : Bool)
    (alarms : x.alarms = (modDyn i g (modDyn i f s)).alarms) :
    (if event then x else modDyn i g (modDyn i f s)).alarms.wf = true := by
  cases event with
  | true => exact alarms ▸ wf_modDyn (wf_modDyn h i f) i g
  | false => exact wf_modDyn (wf_modDyn h i f) i g

/-- R10, R12, R180: a RAISE. -/
theorem ordered_raiseAlarm (h : Ordered s) (present : alarm? s i = some a) (run : s.runState ≠ .unconfigured) (event : Bool) :
    Ordered (raiseAlarm i event s) := by
  by_cases moves : raisedFrom a.dyn.lifecycle = a.dyn.lifecycle
  · simp only [raiseAlarm, alarmAt_eq present, if_pos moves]
    exact h.retained (.modDyn i (fun _ => rfl) s) rfl id
  · obtain ⟨-, new⟩ := raisedFrom_moves moves
    have old : lifecycleOf s i = a.dyn.lifecycle := congrArg (·.dyn.lifecycle) (alarmAt_eq present)
    have written := (recorded_modDyn present (fun d => { d with input := .active })).modDyn (AlarmDyn.enter .raised none)
    obtain ⟨ls, entered⟩ := written.whenEvent event .alarmRaised (lifecycleCode a.dyn.lifecycle * 256 + a.defn.priority)
    have r := entered.rerecords (fun wf => wf_whenEvent wf event rfl) rfl
    rw [new] at moves
    simp only [raiseAlarm, alarmAt_eq present, new, if_neg moves]
    generalize hu : (if event = true then append _ _ _ _ _ _ else _ : State) = u at entered r ⊢
    have order := h.order.raiseReport r entered.self (entered.isWithheld rfl) (by rw [old]; exact fun same => moves same.symm) rfl event
    rw [old] at order
    exact h.reported r (atPos_raiseReport ..) (quiet_raiseReport ..).kept (by simp) (by simp) order fun b present => by
      rw [entered.self] at present
      cases present
      exact Alarm.rests_of run nofun

/-- R11, R26: after the report of a cleared alarm. -/
theorem InOrder.clearReport {after : Lifecycle} (h : InOrder (placedNow s) noneStale s) (r : Rerecords i s u) (before : alarm? s i = some a)
    (moves : Clears s i a after) (present : alarm? u i = some b) (withheld : isWithheld u i = isWithheld s i)
    (cleared : b.dyn.lifecycle = after) :
    InOrder (wish (placedNow s) i (placedNow u i)) noneStale (if after = .returned then Machine.returnReport i u else u) := by
  have lifecycle : lifecycleOf u i = after := by rw [lifecycleOf, alarmAt_eq present, cleared]
  have now := placedNow_eq u i
  have then' := placedNow_eq s i
  rw [show lifecycleOf s i = a.dyn.lifecycle from congrArg (·.dyn.lifecycle) (alarmAt_eq before)] at then'
  rw [lifecycle, withheld] at now
  have written := h.rerecorded r
  split
  · rename_i returned
    subst returned
    have stays : placedNow s i = placedNow u i := by
      rcases moves with ⟨raised, moved⟩ | ⟨held, moved⟩
      · rw [now, then', raised]; rfl
      · split at moved <;> cases moved
    rw [Sited.wish_self stays]
    exact written.returnReport lifecycle
  · rename_i other
    have gone : after = .normal ∨ after = .latched := by
      rcases (clears_facts moves).2.2 with h | h | h
      · exact .inl h
      · exact absurd h other
      · exact .inr h
    have off : placedNow s i = false := by
      rcases moves with ⟨raised, moved⟩ | ⟨held, moved⟩
      · cases hw : isWithheld s i with
        | true => rw [then', hw, Bool.not_true, Bool.and_false]
        | false => rw [hw, if_neg nofun] at moved; exact absurd moved other
      · rw [then', held]; rfl
    have still : placedNow u i = false := by rcases gone with rfl | rfl <;> exact now
    rw [still, Sited.wish_self off]
    exact written.unstale off

/-- R11, R12, R180: a CLEAR. -/
theorem ordered_clearAlarm (h : Ordered s) (present : alarm? s i = some a) (run : s.runState ≠ .unconfigured) (event : Bool) :
    Ordered (clearAlarm i event s) := by
  by_cases still : clearedFrom a.dyn.lifecycle a.defn.cls (isWithheld s i) = a.dyn.lifecycle
  · simp only [clearAlarm, alarmAt_eq present, if_pos still]
    exact h.retained (.modDyn i (fun _ => rfl) s) rfl id
  · obtain ⟨after, moves⟩ : ∃ after, Clears s i a after := by
      cases lc : a.dyn.lifecycle <;> simp_all [clearedFrom, Clears]
    obtain ⟨new, -, kinds⟩ := clears_facts moves
    have written := (recorded_modDyn present (fun d => { d with input := .inactive })).modDyn (AlarmDyn.enter after a.dyn.acknowledger)
    obtain ⟨ls, entered⟩ := written.whenEvent event .alarmCleared (lifecycleCode after * 256 + a.defn.priority)
    have r := entered.rerecords (fun wf => wf_whenEvent wf event rfl) rfl
    rw [new] at still
    simp only [clearAlarm, alarmAt_eq present, new, if_neg still]
    generalize hu : (if event = true then append _ _ _ _ _ _ else _ : State) = u at entered r ⊢
    have order := h.order.clearReport r present moves entered.self (entered.isWithheld rfl) rfl
    exact h.reported r (.when (atPos_returnReport _ _ _ rfl)) (Quiet.when (quiet_returnReport ..)).kept (by simp) (by simp) order fun b present => by
      rw [entered.self] at present
      cases present
      refine Alarm.rests_of run ?_
      rcases kinds with h | h | h <;> rw [h] <;> exact nofun

/-- R13: an alarm that may be acknowledged. -/
theorem ackResult_acked_iff (present : alarm? s i = some a) : ackResult s i = .acked ↔
    isWithheld s i = false ∧ (a.dyn.lifecycle = .raised ∨ a.dyn.lifecycle = .returned) := by
  rw [isWithheld_eq present, ackResult, alarmAt_eq present]
  split_ifs <;> simp_all

/-- R13, R109: an acknowledgement. -/
theorem ordered_acknowledge (h : Ordered s) (present : alarm? s i = some a) (run : s.runState ≠ .unconfigured) (o : Nat) (q : Pos) :
    Ordered (acknowledge o q i s) := by
  by_cases acked : ackResult s i = .acked
  · obtain ⟨open', unacked⟩ := (ackResult_acked_iff present).1 acked
    obtain ⟨after, moves⟩ : ∃ after, (a.dyn.lifecycle = .raised ∧ after = .held) ∨
        (a.dyn.lifecycle = .returned ∧ after = if a.defn.cls = .safety then Lifecycle.latched else .normal) :=
      unacked.elim (fun h => ⟨_, .inl ⟨h, rfl⟩⟩) fun h => ⟨_, .inr ⟨h, rfl⟩⟩
    obtain ⟨u, entered, ready, work⟩ := acknowledge_eq present o q open' moves
    have r := entered.rerecords ready.wf rfl
    have kinds := (acked_cases moves).2
    have gone : placedNow u i = false := by
      rw [placedNow_eq, lifecycleOf, alarmAt_eq entered.self]
      rcases kinds with rfl | rfl | rfl <;> rfl
    rw [work]
    refine h.reported r (atPos_removeReport _ _ _ _ rfl) (quiet_removeReport ..).kept (by simp) (by simp) ?_ fun b present => ?_
    · rw [gone]
      exact (h.order.rerecorded r).removed entered.self .acknowledged
    · rw [entered.self] at present
      cases present
      refine Alarm.rests_of run ?_
      rcases kinds with h | h | h <;> rw [h] <;> exact nofun
  · rw [acknowledge]
    split
    · exact absurd ‹_› acked
    · exact h

/-- R14, R118: a latched alarm is reset. -/
theorem ordered_resetLatch (h : Ordered s) (present : alarm? s i = some a) (run : s.runState ≠ .unconfigured)
    (latched : lifecycleOf s i = .latched) (o : Nat) (q : Pos) : Ordered (resetLatch o q i s) := by
  have entered := (recorded_modDyn present (AlarmDyn.enter .normal none)).append .latchReset (some (ownerOf (modDyn i (AlarmDyn.enter .normal none) s) i))
    (some o) (some i) q.num
  have r := entered.rerecords (fun wf => wf_modDyn (s := s) wf i (AlarmDyn.enter .normal none)) rfl
  refine h.reported r (.refl ..) (.refl [] _) (by simp) (by simp) ?_ fun b present => ?_
  · have off : placedNow s i = false := by rw [placedNow_eq, latched]; rfl
    rw [placedNow_eq, lifecycleOf, alarmAt_eq entered.self]
    exact (Sited.wish_self off).symm ▸ (h.order.rerecorded r).unstale off
  · rw [entered.self] at present
    cases present
    exact Alarm.rests_of run nofun

end

end Sys2Proof.Machine
end

section
/-! PROOFS. Every alarm in its place after the work on the shelf lists: SHELVE, the ends of a shelve, and the service states. -/

namespace Sys2Proof.Machine

section
variable {s t u m : State} {p q : Pos} {i : Nat} {a b : Alarm} {want : Nat → Bool} {stale : Nat → Prop}

/-! ### The entries of a shelf list -/

/-- R108: the shelf lists after work on them, where each entry is of an alarm that had one or is defined there. -/
theorem shelfRight_of (h : ShelfRight s) (work : ShelvesOnly s t) (order : ∀ q, InShelfOrder (t.lists.get q).shelf)
    (named : ∀ q, ∀ e ∈ (t.lists.get q).shelf, e ∈ (s.lists.get q).shelf ∨ isDefined s e.alarm = true ∧ ownerOf s e.alarm = q)
    (flags : ∀ j, (alarmAt t j).dyn.shelved = true ↔ ∃ e ∈ (t.lists.get (ownerOf s j)).shelf, e.alarm = j) : ShelfRight t := by
  refine ⟨order, fun q e he => ?_, fun j => by rw [work.ownerOf]; exact flags j⟩
  obtain ⟨defined, owner⟩ := (named q e he).elim (h.named q e) id
  have same := congrArg Option.isSome (work.record e.alarm)
  rw [Option.isSome_map, Option.isSome_map] at same
  exact ⟨same.trans defined, (work.ownerOf _).trans owner⟩

/-- R115, R116: an alarm leaves its shelf list. -/
theorem InOrder.leaveShelf (h : InOrder want stale s) (owner : ownerOf s i = p) : InOrder want stale (leaveShelf p i s) := by
  have work : ShelvesOnly s (Machine.leaveShelf p i s) :=
    (ShelvesOnly.modLists p (fun l => l.filter fun e => e.alarm != i) s).trans (.modDyn i false _)
  have lists (q : Pos) : ((Machine.leaveShelf p i s).lists.get q).shelf =
      if q = p then (s.lists.get q).shelf.filter (fun e => e.alarm != i) else (s.lists.get q).shelf := by
    change ((modLists p (fun v => { v with shelf := v.shelf.filter fun e => e.alarm != i }) s).lists.get q).shelf = _
    rw [modLists_get]
    split
    · subst q; rfl
    · rfl
  have sub (q : Pos) : ((Machine.leaveShelf p i s).lists.get q).shelf.Sublist (s.lists.get q).shelf := by
    rw [lists]
    split
    · exact List.filter_sublist
    · exact .refl _
  have mine : (alarmAt (Machine.leaveShelf p i s) i).dyn.shelved = false := by
    rw [Machine.leaveShelf, alarmAt_modDyn_self]
    split <;> rfl
  have others {j : Nat} (hj : j ≠ i) : alarmAt (Machine.leaveShelf p i s) j = alarmAt s j := by
    rw [Machine.leaveShelf, alarmAt, alarm?_modDyn_ne hj]; rfl
  generalize Machine.leaveShelf p i s = t at *
  refine h.reshelved work (shelfRight_of h.shelf work (fun q => (h.shelf.order q).sublist (sub q))
    (fun q e he => .inl ((sub q).subset he)) fun j => ?_)
  by_cases same : j = i
  · subst same
    rw [mine, lists, if_pos owner]
    exact ⟨nofun, fun ⟨e, he, named⟩ => absurd named (bne_iff_ne.1 (List.mem_filter.1 he).2)⟩
  · rw [others same, h.shelf.flags j, lists]
    split
    · exact ⟨fun ⟨e, he, named⟩ => ⟨e, List.mem_filter.2 ⟨he, bne_iff_ne.2 (named ▸ same)⟩, named⟩,
        fun ⟨e, he, named⟩ => ⟨e, (List.mem_filter.1 he).1, named⟩⟩
    · exact Iff.rfl

/-- R112, R113: an alarm's only entry on its shelf list is a new one. -/
theorem InOrder.enteredShelf {x : ShelfEntry} (h : InOrder want stale s) (work : ShelvesOnly s t) (owner : ownerOf s i = p)
    (defined : isDefined s i = true) (named : x.alarm = i)
    (lists : ∀ q, (t.lists.get q).shelf = if q = p then insertBy shelfBefore x ((s.lists.get q).shelf.filter fun e => e.alarm != i)
      else (s.lists.get q).shelf)
    (mine : (alarmAt t i).dyn.shelved = true) (others : ∀ j, j ≠ i → alarmAt t j = alarmAt s j) : InOrder want stale t := by
  have off : ∀ y ∈ (s.lists.get p).shelf.filter (fun e => e.alarm != i), y.alarm ≠ x.alarm := fun y hy =>
    named ▸ bne_iff_ne.1 (List.mem_filter.1 hy).2
  refine h.reshelved work (shelfRight_of h.shelf work (fun q => ?_) (fun q y hy => ?_) fun j => ?_)
  · rw [lists]
    split
    · subst q; exact ((h.shelf.order p).sublist List.filter_sublist).insertBy off
    · exact h.shelf.order q
  · rw [lists] at hy
    split at hy
    · rename_i here
      rcases mem_insertBy.1 hy with rfl | hy
      · exact .inr (named ▸ ⟨defined, owner.trans here.symm⟩)
      · exact .inl (List.mem_filter.1 hy).1
    · exact .inl hy
  · by_cases same : j = i
    · subst same
      rw [mine, lists, if_pos owner]
      exact ⟨fun _ => ⟨x, mem_insertBy.2 (.inl rfl), named⟩, fun _ => rfl⟩
    · rw [others j same, h.shelf.flags j, lists]
      split
      · refine ⟨fun ⟨y, hy, at_j⟩ => ⟨y, mem_insertBy.2 (.inr (List.mem_filter.2 ⟨hy, bne_iff_ne.2 (at_j ▸ same)⟩)), at_j⟩,
          fun ⟨y, hy, at_j⟩ => ?_⟩
        rcases mem_insertBy.1 hy with rfl | hy
        · exact absurd (at_j.symm.trans named) same
        · exact ⟨y, (List.mem_filter.1 hy).1, at_j⟩
      · exact Iff.rfl

/-- R112: an alarm that is not shelved enters its shelf list. -/
theorem InOrder.putShelf (h : InOrder want stale s) (owner : ownerOf s i = p) (present : alarm? s i = some a)
    (off : a.dyn.shelved = false) (o e : Nat) :
    InOrder want stale (putShelf p o i e (modDyn i (fun d => { d with shelved := true }) s)) := by
  generalize hu : modDyn i (fun d => { d with shelved := true }) s = u
  have raised : ShelvesOnly s u := hu ▸ .modDyn i true s
  have self : alarm? u i = some { a with dyn := { a.dyn with shelved := true } } := hu ▸ alarm?_modDyn_self present _
  have rest (j : Nat) (hj : j ≠ i) : alarm? u j = alarm? s j := hu ▸ alarm?_modDyn_ne hj ..
  have alone : (s.lists.get p).shelf.filter (fun e => e.alarm != i) = (s.lists.get p).shelf :=
    List.filter_eq_self.2 fun x hx => bne_iff_ne.2 fun same => by
      have on := (h.shelf.flags i).2 ⟨x, owner ▸ hx, same⟩
      rw [alarmAt_eq present, off] at on; cases on
  have lists : u.lists = s.lists := hu ▸ rfl
  refine h.enteredShelf (x := shelfRecord u o i e) (raised.trans (.modLists p (insertBy shelfBefore (shelfRecord u o i e)) u)) owner
    (by rw [isDefined, present]; rfl) rfl (fun q => ?_) ?_ fun j hj => ?_
  · rw [Machine.putShelf, modLists_get, lists]
    split
    · subst q; rw [alone]
    · rfl
  · exact (congrArg (·.dyn.shelved) (alarmAt_eq self))
  · exact congrArg (·.getD blankAlarm) (rest j hj)

/-- R113: an alarm's shelf entry is renewed. -/
theorem InOrder.renewShelf (h : InOrder want stale s) (owner : ownerOf s i = p) (o e : Nat) :
    InOrder want stale (renewShelf p o i e s) := by
  simp only [Machine.renewShelf]
  split
  · rename_i stands
    obtain ⟨y, hy⟩ := Option.isSome_iff_exists.1 stands
    have mem : y ∈ (s.lists.get p).shelf := List.mem_of_find?_eq_some hy
    have named : y.alarm = i := by simpa using List.find?_some hy
    obtain ⟨defined, -⟩ := named ▸ h.shelf.named p y mem
    generalize hu : modLists p (fun v => { v with shelf := v.shelf.filter fun x => x.alarm != i }) s = u
    have left : ShelvesOnly s u := hu ▸ .modLists p (fun l => l.filter fun x => x.alarm != i) s
    have shelf (q : Pos) : (u.lists.get q).shelf = if q = p then (s.lists.get q).shelf.filter (fun x => x.alarm != i) else (s.lists.get q).shelf := by
      rw [← hu, modLists_get]
      split
      · subst q; rfl
      · rfl
    have alarms : u.alarms = s.alarms := hu ▸ rfl
    refine h.enteredShelf (x := shelfRecord u o i e) (left.trans (.modLists p (insertBy shelfBefore (shelfRecord u o i e)) u)) owner
      defined rfl (fun q => ?_) ?_ fun j _ => ?_
    · rw [Machine.putShelf, modLists_get]
      split
      · subst q; rw [shelf, if_pos rfl]
      · rw [shelf, if_neg ‹_›]
    · exact (congrArg (·.dyn.shelved) (congrArg (·.getD blankAlarm) (alarm?_congr alarms i))).trans ((h.shelf.flags i).2 ⟨y, owner ▸ mem, named⟩)
    · exact congrArg (·.getD blankAlarm) (alarm?_congr alarms j)
  · exact h

/-! ### Departures and placements that depend on a condition -/

theorem InOrder.weaken (h : InOrder want noneStale s) (stale : Nat → Prop) : InOrder want stale s :=
  ⟨h.sited, h.timed, h.escalation, h.shelf, fun p => (h.reminded p).weaken stale, fun p => (h.horn p).weaken stale⟩

/-- An alarm that is not listed is in no place. -/
theorem InOrder.unwanted (h : InOrder want stale s) (off : isListed s i = false) : want i = false := by
  simp only [isListed, Bool.or_eq_false_iff] at off
  obtain ⟨⟨ann, deferred⟩, clear⟩ := off
  have none := h.sited.places i
  rw [ann, deferred, clear] at none
  cases wanted : want i with
  | true => rw [wanted] at none; cases none
  | false => rfl

/-- R32: an alarm that stands anywhere leaves the lists. -/
theorem InOrder.removedWhere (h : InOrder want (· = i) s) (present : alarm? s i = some a) (reason : Reason) :
    InOrder (wish want i false) noneStale (removedWhere i reason s) := by
  rw [Machine.removedWhere]
  split
  · exact h.removed present reason
  · rename_i nowhere
    have off : want i = false := h.unwanted (Bool.or_eq_false_iff.1 (Bool.not_eq_true _ ▸ nowhere)).1
    rw [Sited.wish_self off]
    exact h.unstale off

/-- R16, R115: an alarm without a place is placed where a condition holds. -/
theorem InOrder.placedIf (h : InOrder want noneStale s) (off : want i = false) (present : alarm? s i = some a) (c : Bool) :
    InOrder (wish want i c) noneStale (placedIf c i s) := by
  cases c with
  | true => exact h.placeReport off present true
  | false => exact (Sited.wish_self off).symm ▸ h

/-! ### The end of a shelve -/

/-- R115, R117: a shelved alarm's shelve ends. -/
theorem ordered_shelveEnded (h : Ordered s) (present : alarm? s i = some a) (shelved : a.dyn.shelved = true) (k : EntryKind)
    (o : Option Nat) (c : Nat) : Ordered (shelveEnded i k o c s) := by
  have written := recorded_unshelved present (ownerOf s i) k o c
  rw [shelveEnded_eq present]
  have off : placedNow s i = false := by rw [placedNow_eq, isWithheld_eq present, shelved, Bool.true_or]; exact Bool.and_false _
  have left : InOrder (placedNow s) noneStale (unshelved (ownerOf s i) i k o c s) :=
    (h.order.leaveShelf rfl).retained (.of_kept (quiet_append ..).kept (by simp) (by simp))
  have kept : Kept [.alarms, .lists, .journal] s (unshelved (ownerOf s i) i k o c s) :=
    ((quiet_modLists ..).kept.mono (by simp)).trans (written.kept.mono (by simp))
  have lifecycle : lifecycleOf (unshelved (ownerOf s i) i k o c s) i = lifecycleOf s i := by
    rw [lifecycleOf, lifecycleOf, alarmAt_eq written.self, alarmAt_eq present]
  have suppressed : isSuppressed (unshelved (ownerOf s i) i k o c s) i = isSuppressed s i := written.isSuppressed i
  have others : ∀ j, j ≠ i → alarm? (unshelved (ownerOf s i) i k o c s) j = alarm? s j := written.others
  generalize unshelved (ownerOf s i) i k o c s = u at *
  have placed : placedAfterShelf s i = placedNow u i := by
    rw [placedNow_eq, isWithheld_eq written.self, placedAfterShelf, lifecycle, suppressed]; rfl
  rw [placed]
  refine Ordered.neutral (h.replaced kept (by simp) (by simp) others
    (.at_pos (atPos_placedIf _ i u) (quiet_placedIf _ i u).kept (by simp) (by simp)) (left.placedIf off written.self _) fun b record => ?_)
    (neutral_shelfEndedReport ..)
  obtain ⟨out, idle⟩ := h.idle i a present
  rw [written.self] at record
  cases record
  refine ⟨fun _ => rfl, fun un => ?_⟩
  rw [shelved] at idle
  exact absurd (idle un).2 nofun

/-! ### SHELVE -/

/-- R112 steps 1 to 3: an alarm has entered its shelf list, with its flag and its entry. -/
abbrev shelfEntered (o i e : Nat) (s : State) : State := append .shelved (some (ownerOf s i)) (some o) (some i) e
  (putShelf (ownerOf s i) o i e (modDyn i (fun d => { d with shelved := true }) s))

/-- R112: a SHELVE of an alarm that is not shelved. -/
theorem ordered_firstShelve (h : Ordered s) (present : alarm? s i = some a) (run : s.runState ≠ .unconfigured)
    (off : a.dyn.shelved = false) (service : a.dyn.lifecycle ≠ .outOfService) (o e : Nat) : Ordered (firstShelve o i e s) := by
  have written := recorded_modDyn present fun d => { d with shelved := true }
  have put : InOrder (placedNow s) noneStale (shelfEntered o i e s) :=
    (h.order.putShelf rfl present off o e).retained (.of_kept (quiet_append ..).kept (by simp) (by simp))
  have kept : Kept [.alarms, .lists, .journal] s (shelfEntered o i e s) :=
    ((written.kept.mono (by simp)).trans ((quiet_modLists ..).kept.mono (by simp))).trans ((quiet_append ..).kept.mono (by simp))
  have self : alarm? (shelfEntered o i e s) i = _ := written.self
  have others : ∀ j, j ≠ i → alarm? (shelfEntered o i e s) j = alarm? s j := written.others
  have work : firstShelve o i e s = shelvedReport (ownerOf s i) i e false (removedWhere i .shelved (shelfEntered o i e s)) := rfl
  rw [work]
  generalize shelfEntered o i e s = u at *
  have gone : placedNow u i = false := by rw [placedNow_eq, isWithheld_eq self, Bool.true_or]; exact Bool.and_false _
  refine Ordered.neutral (h.replaced kept (by simp) (by simp) others
    (.at_pos (atPos_removedWhere i .shelved u) (quiet_removedWhere ..).kept (by simp) (by simp)) ?_ fun b record => ?_)
    (neutral_shelvedReport ..)
  · rw [gone]
    exact (put.weaken _).removedWhere self .shelved
  · rw [self] at record
    cases record
    exact Alarm.rests_of run service

/-- R113: a SHELVE of a shelved alarm. -/
theorem ordered_renewShelve (h : Ordered s) (o e : Nat) : Ordered (renewShelve o i e s) := by
  have renewed : InOrder (placedNow s) noneStale (renewShelf (ownerOf s i) o i e s) := h.order.renewShelf rfl o e
  have kept : Kept [.lists] s (renewShelf (ownerOf s i) o i e s) := (quiet_renewShelf ..).kept
  have plans : SamePlans s (renewShelf (ownerOf s i) o i e s) :=
    ⟨fun j => by rw [alarm?_congr (kept.agrees .alarms (by simp))], kept.agrees .mask (by simp), (kept.agrees .device (by simp)).1⟩
  exact ((h.planned plans renewed).neutral (Neutral.append (ownerOf s i) ..)).neutral (neutral_shelvedReport ..)

/-! ### The service states -/

/-- R15, R116: an alarm is taken out of service. -/
theorem ordered_takeOutOfService (h : Ordered s) (present : alarm? s i = some a) : Ordered (takeOutOfService i s) := by
  have r : Rerecords i s (serviceSet i false .outOfService s) :=
    (recorded_served present false .outOfService).rerecords (fun wf => wf_served wf i false .outOfService) rfl
  have owner : ownerOf (serviceSet i false .outOfService s) i = ownerOf s i := r.ownerOf i
  obtain ⟨ready, -, -, -, -, -, -, kept⟩ := prepared_retired present (ownerOf s i)
  have off : InOrder (placedNow s) (· = i)
      (unshelvedWhere a.dyn.shelved (ownerOf s i) i (serviceSet i false .outOfService s)) := by
    have written := h.order.rerecorded r
    rw [unshelvedWhere]
    split
    · exact (written.leaveShelf owner).neutral (neutral_shelfEndedReport ..)
    · exact written
  generalize hm : unshelvedWhere a.dyn.shelved (ownerOf s i) i (serviceSet i false .outOfService s) = m at *
  have entry (t : State) : Retains t (append .outOfService (some (ownerOf s i)) none (some i) (lifecycleCode a.dyn.lifecycle) t) :=
    .of_kept (quiet_append ..).kept (by simp) (by simp)
  generalize hu : append .outOfService (some (ownerOf s i)) none (some i) (lifecycleCode a.dyn.lifecycle) m = u
  have self : alarm? u i = some a.retired := hu ▸ ready.self
  have others : ∀ j, j ≠ i → alarm? u j = alarm? s j := hu ▸ ready.others
  have entered : InOrder (placedNow s) (· = i) u := hu ▸ off.retained (entry m)
  have kept' : Kept [.alarms, .lists, .positions, .journal, .links] s u := hu ▸ kept.trans ((quiet_append ..).kept.mono (by simp))
  have work : takeOutOfService i s = lifecycleReport i a.dyn.lifecycle .outOfService (removedWhere i .outOfService u) := by
    have escalated : (alarmAt u i).dyn.escalated = a.dyn.escalated := by rw [alarmAt_eq self]; rfl
    subst hu hm
    simp only [takeOutOfService, Machine.removedWhere, escalated, alarmAt_eq present]
  have gone : placedNow u i = false := by rw [placedNow_eq, lifecycleOf, alarmAt_eq self]; rfl
  rw [work]
  refine Ordered.neutral (h.replaced kept' (by simp) (by simp) others
    (.at_pos (atPos_removedWhere i .outOfService u) (quiet_removedWhere ..).kept (by simp) (by simp)) ?_ fun b record => ?_)
    (neutral_lifecycleReport i _ _ rfl)
  · rw [gone]
    exact entered.removedWhere self .outOfService
  · rw [self] at record
    cases record
    exact ⟨fun _ => rfl, fun _ => ⟨.inr rfl, rfl⟩⟩

/-- R16: an alarm has returned to service, with its entry. -/
abbrev resumed (i : Nat) (new : Lifecycle) (s : State) : State := append .returnedToService (some (ownerOf (serviceSet i true new s) i)) none
  (some i) (lifecycleCode new) (serviceSet i true new s)

/-- R16: an alarm returns to service. -/
theorem ordered_returnAlarm (h : Ordered s) (present : alarm? s i = some a) (run : s.runState ≠ .unconfigured)
    (out : a.dyn.lifecycle = .outOfService) : Ordered (returnAlarm i s) := by
  have shelved : a.dyn.shelved = false := (h.idle i a present).1 out
  have entered : Recorded i a _ _ s (resumed i a.resumes s) := (recorded_served present true a.resumes).append ..
  have r := entered.rerecords (fun wf => wf_served wf i true a.resumes) rfl
  have off : placedNow s i = false := by rw [placedNow_eq, lifecycleOf, alarmAt_eq present, out]; rfl
  have work : returnAlarm i s = lifecycleReport i .outOfService a.resumes (if a.resumes = .raised ∧
      isSuppressed (resumed i a.resumes s) i = false then placeReport i true (resumed i a.resumes s) else resumed i a.resumes s) := by
    simp only [returnAlarm, alarmAt_eq present]
  rw [work]
  generalize resumed i a.resumes s = u at *
  have now : placedNow u i = decide (a.resumes = .raised ∧ isSuppressed u i = false) := by
    rw [placedNow_eq, lifecycleOf, isWithheld_eq entered.self, alarmAt_eq entered.self]
    show ((a.resumes == .raised || a.resumes == .returned) && !(a.dyn.shelved || isSuppressed u i)) = _
    rw [shelved, Bool.false_or]
    unfold Alarm.resumes
    split <;> simp
  have written := (h.order.rerecorded r).unstale off
  refine h.reported r (.when (atPos_placeReport _ _ _ _ rfl)) (Quiet.when (quiet_placeReport ..)).kept (by simp) (by simp) ?_
    fun b record => ?_
  · rw [now]
    split
    · rename_i yes
      rw [decide_eq_true yes]
      exact written.placeReport off entered.self true
    · rename_i no
      rw [decide_eq_false no, Sited.wish_self off]
      exact written
  · rw [entered.self] at record
    cases record
    refine Alarm.rests_of run ?_
    show a.resumes ≠ _
    unfold Alarm.resumes
    split <;> nofun

end

end Sys2Proof.Machine
end

section
/-! PROOFS. Every alarm in its place while GROUP_MASK works through the alarms (R18, R19), and after ACK_LIST (R110). -/

namespace Sys2Proof.Machine

/-! ### Masks that differ from alarm to alarm -/

/-- R7: an alarm of a group that is masked. -/
def Alarm.hiddenBy (mask : Word) (a : Alarm) : Bool := a.defn.group != 0 && mask.getLsbD a.defn.group

/-- R26: the alarms that are to have a place, each under a mask of its own. -/
def placedUnder (masks : Nat → Word) (s : State) (i : Nat) : Bool := (alarmAt s i).isOpen && !(alarmAt s i).hiddenBy (masks i)

/-- R17: while GROUP_MASK works through the alarms, each has the place that it is to have under the old mask or the new one. -/
structure OrderedUnder (masks : Nat → Word) (s : State) : Prop where
  order : InOrder (placedUnder masks s) noneStale s
  idle : Idle s

section
variable {s t u m : State} {i : Nat} {a b : Alarm} {masks : Nat → Word} {old new groups x : Word}

theorem placedUnder_of (present : alarm? s i = some a) : placedUnder masks s i = (a.isOpen && !a.hiddenBy (masks i)) := by
  rw [placedUnder, alarmAt_eq present]

theorem placedUnder_congr {masks' : Nat → Word} (same : masks' i = masks i)
    (record : (alarm? t i).map Alarm.planned = (alarm? s i).map Alarm.planned) : placedUnder masks' t i = placedUnder masks s i := by
  have fields : (alarmAt t i).planned = (alarmAt s i).planned := by
    simp only [alarmAt]
    cases ht : alarm? t i <;> cases hs : alarm? s i <;> simp_all
  have group : (alarmAt t i).defn.group = (alarmAt s i).defn.group := congrArg (fun x => x.1) fields
  have lifecycle : (alarmAt t i).dyn.lifecycle = (alarmAt s i).dyn.lifecycle := congrArg (fun x => x.2.1) fields
  have shelved : (alarmAt t i).dyn.shelved = (alarmAt s i).dyn.shelved := congrArg (fun x => x.2.2) fields
  simp only [placedUnder, Alarm.isOpen, Alarm.hiddenBy, same, group, lifecycle, shelved]

/-- One alarm has been worked through, and has the place that it is to have under its new mask. -/
theorem OrderedUnder.written (h : OrderedUnder masks s)
    (others : ∀ j, j ≠ i → (alarm? t j).map Alarm.planned = (alarm? s j).map Alarm.planned) (run : t.runState = s.runState)
    (order : InOrder (wish (placedUnder masks s) i (placedUnder (Function.update masks i x) t i)) noneStale t)
    (rests : ∀ a, alarm? t i = some a → a.Rests s.runState) : OrderedUnder (Function.update masks i x) t := by
  refine ⟨?_, fun j b present => ?_⟩
  · rw [show placedUnder (Function.update masks i x) t = wish (placedUnder masks s) i (placedUnder (Function.update masks i x) t i) from
      funext fun j => ?_]
    · exact order
    · by_cases same : j = i
      · subst same; rw [wish, Function.update_self]
      · rw [wish_ne same]; exact placedUnder_congr (Function.update_of_ne same ..) (others j same)
  · have done : b.Rests t.runState := run ▸ (by
      by_cases same : j = i
      · subst same; exact rests b present
      · exact SamePlans.rests_of (others j same) present fun a ha => h.idle j a ha)
    exact done

/-- One alarm keeps its place under its new mask. -/
theorem OrderedUnder.kept (h : OrderedUnder masks s)
    (same : placedUnder (Function.update masks i x) s i = placedUnder masks s i) : OrderedUnder (Function.update masks i x) s :=
  h.written (fun _ _ => rfl) rfl (same ▸ (Sited.wish_self rfl).symm ▸ h.order) fun a present => h.idle i a present

theorem placedUnder_none (none : alarm? s i = none) : placedUnder masks s i = false := by
  rw [placedUnder, alarmAt_none none]; rfl

/-- A list of alarms is worked through, from the old mask to the new one. -/
theorem orderedUnder_foldl {f : State × Nat → Nat → State × Nat}
    (one : ∀ masks r i, masks i = old → OrderedUnder masks r.1 → OrderedUnder (Function.update masks i new) (f r i).1)
    (is : List Nat) (nodup : is.Nodup) (r : State × Nat) (h : OrderedUnder (fun j => if j ∈ is then old else new) r.1) :
    OrderedUnder (fun _ => new) (is.foldl f r).1 := by
  induction is generalizing r with
  | nil => exact h
  | cons i is ih =>
    obtain ⟨fresh, nodup⟩ := List.nodup_cons.1 nodup
    refine ih nodup _ ?_
    have next := one _ r i (if_pos List.mem_cons_self) h
    rwa [show Function.update (fun j => if j ∈ i :: is then old else new) i new = fun j => if j ∈ is then old else new from funext fun j => ?_] at next
    by_cases same : j = i
    · subst same; rw [Function.update_self, if_neg fresh]
    · simp [same]

/-! ### The bits of a mask -/

/-- R18: what masking makes of the suppression of an alarm. -/
theorem hiddenBy_mask (zero : groups.getLsbD 0 = false) (a : Alarm) : if (groups &&& ~~~old).getLsbD a.defn.group
    then a.hiddenBy old = false ∧ a.hiddenBy (old ||| groups) = true else a.hiddenBy (old ||| groups) = a.hiddenBy old := by
  have within (h : groups.getLsbD a.defn.group = true) : a.defn.group < 32 := BitVec.lt_of_getLsbD h
  simp only [BitVec.getLsbD_and, BitVec.getLsbD_not, Alarm.hiddenBy, BitVec.getLsbD_or]
  cases named : groups.getLsbD a.defn.group with
  | false => simp
  | true =>
    have inside := within named
    have other : a.defn.group ≠ 0 := fun same => by rw [same, zero] at named; cases named
    cases masked : old.getLsbD a.defn.group <;> simp [inside, other]

/-- R19: what unmasking makes of the suppression of an alarm. -/
theorem hiddenBy_unmask (zero : groups.getLsbD 0 = false) (a : Alarm) : if (groups &&& old).getLsbD a.defn.group
    then a.hiddenBy old = true ∧ a.hiddenBy (old &&& ~~~groups) = false else a.hiddenBy (old &&& ~~~groups) = a.hiddenBy old := by
  have within (h : groups.getLsbD a.defn.group = true) : a.defn.group < 32 := BitVec.lt_of_getLsbD h
  have within' (h : old.getLsbD a.defn.group = true) : a.defn.group < 32 := BitVec.lt_of_getLsbD h
  simp only [BitVec.getLsbD_and, BitVec.getLsbD_not, Alarm.hiddenBy]
  cases named : groups.getLsbD a.defn.group with
  | false => cases masked : old.getLsbD a.defn.group <;> simp_all
  | true =>
    have other : a.defn.group ≠ 0 := fun same => by rw [same, zero] at named; cases named
    cases masked : old.getLsbD a.defn.group <;> simp_all

/-! ### One alarm under a new mask -/

theorem planned_of_unmarked {j : Nat} (h : (alarm? t j).map Alarm.unmarked = (alarm? s j).map Alarm.unmarked) :
    (alarm? t j).map Alarm.planned = (alarm? s j).map Alarm.planned := by
  have same := congrArg (Option.map Alarm.planned) h
  rw [Option.map_map, Option.map_map] at same
  exact same

/-- R18: an alarm of a masked group leaves its place. -/
theorem InOrder.maskAlarm {want : Nat → Bool} {changed : Word} (h : InOrder want noneStale s) (present : alarm? s i = some a)
    (wanted : want i = a.isOpen) (on : changed.getLsbD a.defn.group = true) (n : Nat) :
    InOrder (wish want i false) noneStale (maskAlarm changed (s, n) i).1 := by
  have entered := recorded_modDyn present (AlarmDyn.enter .normal none)
  have r := entered.rerecords (fun wf => wf_modDyn (s := s) wf i (AlarmDyn.enter .normal none)) rfl
  simp only [Machine.maskAlarm, alarmAt_eq present, on, if_true]
  cases lc : a.dyn.lifecycle <;> cases shelved : a.dyn.shelved <;> simp only [Alarm.isOpen, lc, shelved] at wanted ⊢
  case raised.false => exact (h.weaken _).removed present .suppressed
  case returned.false => exact ((h.rerecorded r).removed entered.self .normal).neutral (neutral_lifecycleReport i _ _ rfl)
  case returned.true =>
    have off : want i = false := wanted
    rw [Sited.wish_self off]
    exact ((h.rerecorded r).unstale off).neutral (neutral_lifecycleReport i _ _ rfl)
  all_goals exact (Sited.wish_self wanted).symm ▸ h

/-- R18: masking leaves an alarm at rest. -/
theorem Alarm.Rests.masked {run : RunState} (h : a.Rests run) : a.masked.Rests run := by
  obtain ⟨out, idle⟩ := h
  rw [Alarm.masked]
  split
  · exact ⟨out, idle⟩
  · rename_i returned off
    exact ⟨fun _ => off, fun _ => ⟨.inl rfl, off⟩⟩
  · rename_i returned on
    refine ⟨nofun, fun un => ?_⟩
    rw [returned] at idle
    exact absurd (idle un).1 (by simp)
  · exact ⟨out, idle⟩

theorem masked_group (a : Alarm) : a.masked.defn = a.defn := by
  rw [Alarm.masked]; split <;> rfl

/-- R18: masking acts on one alarm. -/
theorem orderedUnder_maskAlarm (zero : groups.getLsbD 0 = false) (masks : Nat → Word) (r : State × Nat) (i : Nat) (at_i : masks i = old)
    (h : OrderedUnder masks r.1) : OrderedUnder (Function.update masks i (old ||| groups)) (maskAlarm (groups &&& ~~~old) r i).1 := by
  obtain ⟨s, n⟩ := r
  cases present : alarm? s i with
  | none =>
    have still : maskAlarm (groups &&& ~~~old) (s, n) i = (s, n) := by
      simp only [maskAlarm, alarmAt_none present]
      split <;> rfl
    rw [still]
    exact h.kept ((placedUnder_none present).trans (placedUnder_none present).symm)
  | some a =>
    have bits := hiddenBy_mask (old := old) zero a
    have was : placedUnder masks s i = (a.isOpen && !a.hiddenBy old) := at_i ▸ placedUnder_of present
    by_cases on : (groups &&& ~~~old).getLsbD a.defn.group = true
    · obtain ⟨-, done⟩ := maskAlarm_spec present (groups &&& ~~~old) n
      rw [if_pos on] at bits done
      obtain ⟨before, after⟩ := bits
      rw [before, Bool.not_false, Bool.and_true] at was
      have left := h.order.maskAlarm present was on n
      refine h.written (fun j hj => planned_of_unmarked (done.others j hj)) (done.quiet.kept.agrees .device (by simp)).1 ?_ fun b record => ?_
      · rw [placedUnder_of done.record, Function.update_self, Alarm.hiddenBy, masked_group, ← Alarm.hiddenBy, after, Bool.not_true, Bool.and_false]
        exact left
      · rw [done.record] at record
        cases record
        have rests : a.Rests s.runState := h.idle i a present
        exact rests.masked
    · have still : maskAlarm (groups &&& ~~~old) (s, n) i = (s, n) := by
        simp only [maskAlarm, alarmAt_eq present, on]
        rfl
      rw [if_neg on] at bits
      rw [still]
      refine h.kept ?_
      rw [was, placedUnder_of present, Function.update_self, bits]

/-- R19: unmasking acts on one alarm. -/
theorem orderedUnder_unmaskAlarm (zero : groups.getLsbD 0 = false) (masks : Nat → Word) (r : State × Nat) (i : Nat) (at_i : masks i = old)
    (h : OrderedUnder masks r.1) : OrderedUnder (Function.update masks i (old &&& ~~~groups)) (unmaskAlarm (groups &&& old) r i).1 := by
  obtain ⟨s, n⟩ := r
  cases present : alarm? s i with
  | none =>
    have still : unmaskAlarm (groups &&& old) (s, n) i = (s, n) := by
      simp only [unmaskAlarm, alarmAt_none present]
      exact if_neg (by simp [blankAlarm])
    rw [still]
    exact h.kept ((placedUnder_none present).trans (placedUnder_none present).symm)
  | some a =>
    have bits := hiddenBy_unmask (old := old) zero a
    have was : placedUnder masks s i = (a.isOpen && !a.hiddenBy old) := at_i ▸ placedUnder_of present
    have opens : ((groups &&& old).getLsbD a.defn.group && (a.dyn.lifecycle == .raised || a.dyn.lifecycle == .returned) && !a.dyn.shelved) =
      ((groups &&& old).getLsbD a.defn.group && a.isOpen) := by rw [Alarm.isOpen, Bool.and_assoc]
    by_cases on : ((groups &&& old).getLsbD a.defn.group && a.isOpen) = true
    · have work : (unmaskAlarm (groups &&& old) (s, n) i).1 = placeReport i true s := by
        simp only [unmaskAlarm, alarmAt_eq present, opens, on, if_true]
      obtain ⟨bit, open'⟩ := Bool.and_eq_true_iff.1 on
      rw [if_pos bit] at bits
      obtain ⟨before, after⟩ := bits
      rw [before, Bool.not_true, Bool.and_false] at was
      have place := atPos_placeReport _ s i true rfl
      have plans : SamePlans s (placeReport i true s) := .at_pos place (quiet_placeReport ..).kept (by simp) (by simp)
      rw [work]
      refine h.written (fun j _ => plans.record j) plans.run ?_ fun b record => SamePlans.rests_of (plans.record i) record fun c hc => h.idle i c hc
      have now : placedUnder (Function.update masks i (old &&& ~~~groups)) (placeReport i true s) i = true := by
        rw [placedUnder_congr (masks := Function.update masks i (old &&& ~~~groups)) rfl (plans.record i), placedUnder_of present,
          Function.update_self, after, open']
        rfl
      rw [now]
      exact h.order.placeReport was present true
    · have still : unmaskAlarm (groups &&& old) (s, n) i = (s, n) := by
        simp only [unmaskAlarm, alarmAt_eq present, opens]
        exact if_neg on
      rw [still]
      refine h.kept ?_
      rw [was, placedUnder_of present, Function.update_self]
      cases open' : a.isOpen with
      | false => rfl
      | true =>
        rw [open', Bool.and_true] at on
        rw [if_neg on] at bits
        rw [bits]

/-- R17: GROUP_MASK writes the mask and its entry, and works through the defined alarms. -/
theorem ordered_regrouped {ps : List Part} {f : State × Nat → Nat → State × Nat} (h : Ordered s)
    (one : ∀ masks r i, masks i = s.mask → OrderedUnder masks r.1 → OrderedUnder (Function.update masks i new) (f r i).1)
    (quiet : ∀ r i, Quiet ps r.1 (f r i).1) (mask : .mask ∉ ps) (action : Nat) (changed : Word) :
    let m := suppressionEntry action changed { s with mask := new }
    Ordered ((definedIndices m).foldl f (m, 0)).1 := by
  intro m
  obtain ⟨written, new', -⟩ := suppressionEntry_spec action changed new s
  change Quiet [.mask, .journal] s m at written
  change m.mask = new at new'
  clear_value m
  have retains : Retains s m := .of_kept written.kept (by simp) (by simp)
  have alarms : m.alarms = s.alarms := written.kept.agrees .alarms (by simp)
  have started : OrderedUnder (fun j => if j ∈ definedIndices m then s.mask else new) m := by
    refine ⟨?_, fun j b present => ?_⟩
    · rw [show placedUnder (fun j => if j ∈ definedIndices m then s.mask else new) m = placedNow s from funext fun j => ?_]
      · exact h.order.retained retains
      · cases present : alarm? m j with
        | none => rw [placedUnder_none present, placedNow_none ((alarm?_congr alarms j).symm.trans present)]
        | some a =>
          have mem : j ∈ definedIndices m := isSome_get?_iff.1 (Option.isSome_iff_exists.2 ⟨a, present⟩)
          rw [placedUnder_of present, if_pos mem, placedNow, alarmAt_eq ((alarm?_congr alarms j).symm.trans present), isPlaced, isSuppressed,
            alarmAt_eq ((alarm?_congr alarms j).symm.trans present)]
          rfl
    · rw [show m.runState = s.runState from (written.kept.agrees .device (by simp)).1]
      exact h.idle j b ((alarm?_congr alarms j).symm.trans present)
  have nodup : (definedIndices m).Nodup := ((Table.wf_iff _).1 (retains.wf h.order.sited.wf)).imp fun lt => Nat.ne_of_lt lt
  obtain ⟨order, idle⟩ := orderedUnder_foldl one (definedIndices m) nodup (m, 0) started
  have same : ((definedIndices m).foldl f (m, 0)).1.mask = new :=
    Eq.trans ((quiet_foldl_fst quiet (m, 0) (definedIndices m)).kept.agrees .mask mask) new'
  generalize ((definedIndices m).foldl f (m, 0)).1 = t at *
  refine ⟨?_, idle⟩
  rw [show placedNow t = placedUnder (fun _ => new) t from same ▸ rfl]
  exact order

/-! ### ACK_LIST -/

theorem retains_accessRefused (p : Pos) (o : Nat) (k : Kind) (n : Option Nat) (c : Cause) (v : Nat) (s : State) :
    Retains s (accessRefused p o k n c v s) := .of_kept (quiet_accessRefused ..).kept (by simp) (by simp)

/-- R110: one named index is worked through. -/
theorem ordered_ackOne (o : Nat) (p : Pos) (r : State × List (List Byte)) (i : Nat) (run : r.1.runState ≠ .unconfigured)
    (h : Ordered r.1) : Ordered (ackOne o p r i).1 := by
  simp only [ackOne]
  split
  · rename_i defined
    obtain ⟨a, present⟩ := Option.isSome_iff_exists.1 defined
    split
    · exact h.retained (retains_accessRefused ..) ((quiet_accessRefused ..).kept.agrees .mask (by simp))
        fun un => ((quiet_accessRefused ..).kept.agrees .device (by simp)).1 ▸ un
    · split
      · exact h
      · exact ordered_acknowledge h present run o p
  · exact h

theorem ordered_ackList (o : Nat) (p : Pos) (is : List Nat) (r : State × List (List Byte)) (run : r.1.runState ≠ .unconfigured)
    (h : Ordered r.1) : Ordered (is.foldl (ackOne o p) r).1 := by
  induction is generalizing r with
  | nil => exact h
  | cons i is ih =>
    have same : (ackOne o p r i).1.runState = r.1.runState := ((quiet_ackOne o p r i).kept.agrees .device (by simp)).1
    exact ih _ (same ▸ run) (ordered_ackOne o p r i run h)

end

end Sys2Proof.Machine
end

section
/-! PROOFS. Every alarm in its place after one second, a definition, the expiries of decays and reminders, SILENCE, a configuration,
LOAD_QUERY and RESTART. -/

namespace Sys2Proof.Machine

section
variable {s t u m : State} {p q : Pos} {i : Nat} {a b : Alarm} {want : Nat → Bool} {stale : Nat → Prop}

/-! ### One second -/

theorem map_tick_listed (es : List AnnEntry) : (es.map fun e => { e with reminder := countDown e.reminder }).map (·.listed) =
    es.map (·.listed) := map_listed (by intro e; rfl) es

/-- R108: the shelf entries stay in order as they count down. -/
theorem InShelfOrder.tick {l : List ShelfEntry} (h : InShelfOrder l) :
    InShelfOrder (l.map fun e => { e with remaining := e.remaining - 1 }) := by
  refine ⟨List.pairwise_map.2 (h.1.imp fun {x y} r => ⟨?_, fun same some' => ?_⟩), by rw [List.map_map]; exact h.2⟩
  · exact Nat.sub_le_sub_right r.1 1
  · simp only at same some'
    exact r.2 (by omega) (by omega)

/-- R178: one second passes. -/
theorem ordered_tick (h : Ordered s) : Ordered (tick s) := by
  have lists (q : Pos) : (tick s).lists.get q = (s.lists.get q).tick := PerPos.get_map ..
  have flood (q : Pos) : ((tick s).loads.get q).flood = (s.loads.get q).flood := by
    rw [show (tick s).loads.get q = _ from PerPos.get_map ..]
  have order := h.order
  have named (q : Pos) (e : ShelfEntry) : (e ∈ ((tick s).lists.get q).shelf) ↔ ∃ x ∈ (s.lists.get q).shelf, { x with remaining := x.remaining - 1 } = e := by
    rw [lists]; exact List.mem_map
  refine ⟨⟨?_, order.timed, order.escalation.marked (.of_alarms rfl) rfl, ⟨fun q => ?_, fun q e he => ?_, fun j => ?_⟩, fun q e he fresh => ?_,
    fun q => .inr ?_⟩, h.idle⟩
  · refine order.sited.same order.sited.wf (fun q => ?_) (fun q => by rw [lists]; rfl) fun _ => rfl
    rw [annEntries, lists]
    exact map_tick_listed _
  · rw [lists]; exact (order.shelf.order q).tick
  · obtain ⟨x, hx, rfl⟩ := (named q e).1 he
    exact order.shelf.named q x hx
  · refine (order.shelf.flags j).trans ⟨fun ⟨x, hx, at_j⟩ => ⟨_, (named _ _).2 ⟨x, hx, rfl⟩, at_j⟩, fun ⟨e, he, at_j⟩ => ?_⟩
    obtain ⟨x, hx, rfl⟩ := (named _ e).1 he
    exact ⟨x, hx, at_j⟩
  · rw [lists] at he
    obtain ⟨x, hx, rfl⟩ := List.mem_map.1 he
    rw [reminderRuns_congr (t := tick s) (s := s) (fun _ => rfl) (fun _ => rfl) (flood q)]
    rw [← order.reminded q x hx not_false]
    show (countDown x.reminder).isSome = true ↔ _
    rw [countDown, Option.isSome_map]
  · have right := (order.horn q).resolve_left fun ⟨_, _, bad⟩ => bad
    rw [lists]
    refine right.trans ?_
    rw [hornSounds, hornSounds, lists]
    simp only [PosLists.tick, List.any_map]
    rfl

/-! ### Loads -/

/-- R55: a decay expiry. -/
theorem ordered_decay (h : Ordered s) (p : Pos) : Ordered (decay p s) := by
  have written : Ordered (modLoad p (fun d => { d with
      load := (s.loads.get p).load - decrement (s.loads.get p).load (s.loads.get p).k, decay := 1 }) s) := h.neutral (neutral_modLoad fun _ => rfl)
  simp only [decay]
  split
  · exact written
  · exact written.neutral (neutral_evaluateFlood ..)

/-- R59: LOAD_QUERY clears LIMIT. -/
theorem ordered_clearLimits (ps : List Pos) (h : Ordered s) : Ordered (ps.foldl clearLimit s) := by
  induction ps generalizing s with
  | nil => exact h
  | cons p ps ih => exact ih (h.neutral (p := p) (neutral_modLoad fun _ => rfl))

/-- R91, R49: a position is configured. -/
theorem ordered_configure (h : Ordered s) (p : Pos) (f : PositionFields) : Ordered (configure p f s) := by
  have stored : Ordered (modPos p (PosContext.configured f) s) :=
    h.retained (.of_kept (quiet_modPos ..).kept (by simp) (by simp)) rfl id
  exact (stored.neutral (neutral_modLoad (f := PosLoad.configured f) fun _ => rfl)).neutral (neutral_evaluateFlood ..)

/-! ### SILENCE -/

/-- R44: a position is silenced. -/
theorem ordered_silenceList (h : Ordered s) (p : Pos) : Ordered (silenceList p s) := by
  generalize hu : modLists p (fun v => { v with ann := v.ann.map fun e => { e with silenced := true } }) s = u
  have work : silenceList p s = judgeHorn p u := hu ▸ rfl
  have lists : u.lists.get p = { s.lists.get p with ann := (s.lists.get p).ann.map fun e => { e with silenced := true } } := hu ▸ modLists_get_self ..
  have place : AtPos p s u := hu ▸ atPos_modLists p s _
  have kept : Kept [.lists] s u := hu ▸ (quiet_modLists ..).kept
  have order : InOrder (placedNow s) noneStale (judgeHorn p u) := by
    refine h.order.reannounced place (kept.mono (by simp)) ?_ (by rw [lists]) (fun e he _ => ?_) nofun
    · rw [annEntries, lists]; exact map_listed (by intro e; rfl) _
    · rw [lists] at he
      obtain ⟨x, hx, rfl⟩ := List.mem_map.1 he
      rw [place.reminderRuns (by rw [show u.loads = s.loads from kept.agrees .loads (by simp)])]
      exact h.order.reminded p x hx not_false
  rw [work]
  exact h.planned ((SamePlans.at_pos place kept (by simp) (by simp)).trans
    (.at_pos (atPos_judgeHorn ..) (quiet_judgeHorn ..).kept (by simp) (by simp))) order

/-! ### A reminder's expiry -/

/-- R39: the reminder of an entry is written, and runs as it is to run. -/
theorem InOrder.reminderSet {r : Option Nat} (h : InOrder want noneStale s) (right : r.isSome = true ↔ reminderRuns s p i = true) :
    InOrder want noneStale (setReminder p i r s) := by
  have lists := setReminder_lists p i r s
  have place := atPos_setReminder p s i r
  refine h.relisted place ((quiet_setReminder ..).kept.mono (by simp)) ?_ (by rw [lists])
    (remindersRight_setReminder ((h.reminded p).weaken _) right) (.inr ?_) fun q _ => ⟨h.reminded q, h.horn q⟩
  · rw [annEntries, lists]
    refine map_listed (fun e => ?_) _
    split <;> rfl
  · rw [place.hornSounds (q := p), lists]
    · exact (h.horn p).resolve_left fun ⟨_, _, bad⟩ => bad
    · rw [lists, List.map_map]
      refine List.map_congr_left fun e _ => ?_
      simp only [Function.comp]
      split <;> rfl

/-- R39, R41: a reminder has been counted, and the alarm judged for the escalation list. -/
theorem InOrder.judgedReminder (h : InOrder want noneStale s) (present : alarm? s i = some a) (wanted : want i = true) :
    InOrder want noneStale (judgedReminder i s) := by
  have written : InOrder want noneStale (modDyn i (fun d => { d with reminders := min 15 (d.reminders + 1) }) s) :=
    h.recounted i fun d => min 15 (d.reminders + 1)
  have counts : InOrder want noneStale (Machine.counted i s) := written.neutral (Neutral.notify (ownerOf s i) ..)
  rw [Machine.judgedReminder]
  split
  · rename_i due
    have record : alarm? (Machine.counted i s) i = some { a with dyn := { a.dyn with reminders := min 15 (a.dyn.reminders + 1) } } :=
      alarm?_modDyn_self present fun d => { d with reminders := min 15 (d.reminders + 1) }
    simp only [escalationDue, Bool.and_eq_true, Bool.not_eq_true', alarmAt_eq record] at due
    exact counts.escalate record wanted due.2
  · exact counts

theorem judgedReminder_kept (i : Nat) (s : State) : AtPos p s (judgedReminder i s) ∧
    Kept [.alarms, .escalation, .journal, .links] s (judgedReminder i s) := by
  have place : AtPos p s (counted i s) :=
    (atPos_modDyn p s i fun d => { d with reminders := min 15 (d.reminders + 1) }).trans (atPos_notify ..)
  have kept : Kept [.alarms, .escalation, .journal, .links] s (counted i s) :=
    ((quiet_modDyn ..).kept.mono (by simp)).trans ((quiet_notify ..).kept.mono (by simp))
  exact ⟨place.trans (.when (atPos_escalate ..)), kept.trans ((Quiet.when (quiet_escalate ..)).kept.mono (by simp))⟩

/-- R39: a reminder has expired. -/
theorem ordered_expireReminder (h : Ordered s) (due : reminderDue s i = true) : Ordered (expireReminder i s) := by
  simp only [reminderDue, List.any_eq_true, Bool.and_eq_true, beq_iff_eq] at due
  obtain ⟨x, mem, named, zero⟩ := due
  have wanted : placedNow s i = true := h.order.sited.wanted_of_onAnn (onAnn_iff.2 ⟨_, List.mem_map_of_mem mem, named⟩)
  obtain ⟨a, present⟩ : ∃ a, alarm? s i = some a := Option.ne_none_iff_exists'.1 fun none => by
    rw [placedNow_none none] at wanted; cases wanted
  have runs : reminderRuns s (ownerOf s i) i = true := by
    have right := h.order.reminded _ x mem not_false
    rw [named] at right
    refine right.1 ?_
    cases rem : x.reminder with
    | none => rw [isDue, rem] at zero; cases zero
    | some n => rfl
  have judged := h.order.judgedReminder present wanted
  obtain ⟨place, kept⟩ := judgedReminder_kept (p := ownerOf s i) i s
  rw [expireReminder_eq]
  generalize Machine.judgedReminder i s = m at *
  have same : reminderRuns m (ownerOf s i) i = true :=
    (place.reminderRuns (by rw [show m.loads = s.loads from kept.agrees .loads (by simp)]) i).trans runs
  have set := judged.reminderSet (p := ownerOf s i) (i := i) (r := some (alarmAt m i).defn.reminder) (by simp [same])
  exact (h.planned ((SamePlans.at_pos place kept (by simp) (by simp)).trans
    (.at_pos (atPos_setReminder ..) (quiet_setReminder ..).kept (by simp) (by simp))) set).neutral (neutral_addLoad ..)

/-! ### A definition -/

/-- R2 to R4: an alarm that is in no place and not shelved is defined anew. -/
theorem InOrder.defined (h : InOrder want noneStale s) (off : want i = false) (unshelved : (alarmAt s i).dyn.shelved = false)
    (fresh : b.dyn.annTime = none ∧ b.dyn.overflow = false ∧ b.dyn.escalated = false ∧ b.dyn.shelved = false) :
    InOrder want noneStale { s with alarms := s.alarms.insert i b } := by
  generalize ht : ({ s with alarms := s.alarms.insert i b } : State) = t
  have self : alarm? t i = some b := ht ▸ Table.get?_insert_self ..
  have others (j : Nat) (hj : j ≠ i) : alarm? t j = alarm? s j := ht ▸ Table.get?_insert_ne _ b hj
  have kept : Kept [.alarms] s t := ht ▸ ⟨fun p hp => by cases p <;> simp_all [Agrees]⟩
  have wf : t.alarms.wf = true := ht ▸ Table.wf_insert h.sited.wf _ _
  have lists : t.lists = s.lists := kept.agrees .lists (by simp)
  have loads : t.loads = s.loads := kept.agrees .loads (by simp)
  have escalation : t.escalation = s.escalation := kept.agrees .escalation (by simp)
  have areas : t.areas = s.areas := kept.agrees .areas (by simp)
  clear ht
  have at_j (j : Nat) (hj : j ≠ i) : alarmAt t j = alarmAt s j := by rw [alarmAt, others j hj, alarmAt]
  have owner (j : Nat) (hj : j ≠ i) : ownerOf t j = ownerOf s j := by rw [ownerOf, ownerOf, at_j j hj, areaOwner, areaOwner, areas]
  have priority (j : Nat) (hj : j ≠ i) : priorityOf t j = priorityOf s j := by rw [priorityOf, at_j j hj, priorityOf]
  have lifecycle (j : Nat) (hj : j ≠ i) : lifecycleOf t j = lifecycleOf s j := by rw [lifecycleOf, at_j j hj, lifecycleOf]
  obtain ⟨untimed, unmarked, unescalated, unshelved'⟩ := fresh
  have unescalated' : (alarmAt s i).dyn.escalated = false := Bool.not_eq_true _ ▸ fun on => by
    have timed := h.escalation.timed on
    rw [h.timed, off] at timed; cases timed
  have on_ann {q : Pos} {e : ListEntry} (he : e ∈ annEntries s q) : e.alarm ≠ i := h.sited.fresh_ann off e he
  have on_deferred {q : Pos} {e : ListEntry} (he : e ∈ (s.lists.get q).deferred) : e.alarm ≠ i := h.sited.fresh_deferred off e he
  have on_escalation {e : ListEntry} (he : e ∈ s.escalation) : e.alarm ≠ i := fun same =>
    Bool.false_ne_true (unescalated'.symm.trans ((h.escalation.flags i).2 ⟨e, he, same⟩))
  have on_shelf {q : Pos} {e : ShelfEntry} (he : e ∈ (s.lists.get q).shelf) : e.alarm ≠ i := fun same => by
    have at_q := (h.shelf.named q e he).2
    rw [same] at at_q
    exact Bool.false_ne_true (unshelved.symm.trans ((h.shelf.flags i).2 ⟨e, at_q ▸ he, same⟩))
  have mine : alarmAt t i = b := alarmAt_eq self
  refine ⟨⟨wf, fun q => ?_, fun q => ?_, fun q e he => ?_, fun j marked => ?_, fun j => ?_⟩, fun j => ?_,
    ⟨escalation ▸ h.escalation.order.congr fun e he => priority _ (on_escalation he), fun e he => ?_, fun j => ?_⟩,
    ⟨fun q => lists ▸ h.shelf.order q, fun q e he => ?_, fun j => ?_⟩, fun q e he _ => ?_, fun q => .inr ?_⟩
  · rw [annEntries, lists]; exact (h.sited.ann q).congr fun e he => priority _ (on_ann he)
  · rw [lists]; exact (h.sited.deferred q).congr fun e he => priority _ (on_deferred he)
  · rw [annEntries, lists] at he
    have other : e.alarm ≠ i := (List.mem_append.1 he).elim on_ann on_deferred
    rw [owner _ other, others _ other]
    exact h.sited.named q e he
  · by_cases same : j = i
    · subst same; rw [mine, unmarked] at marked; cases marked
    · rw [at_j j same] at marked ⊢; exact h.sited.marked j marked
  · have on : onAnn t (ownerOf t j) j = onAnn s (ownerOf t j) j ∧ onDeferred t (ownerOf t j) j = onDeferred s (ownerOf t j) j := by
      simp only [onAnn, onDeferred, lists, and_self]
    rw [on.1, on.2]
    by_cases same : j = i
    · subst same
      obtain ⟨ann, deferred, -⟩ := h.sited.absent (p := ownerOf t j) off
      rw [mine, unmarked, off, ann, deferred]
      rfl
    · rw [owner j same, at_j j same]; exact h.sited.places j
  · by_cases same : j = i
    · subst same; rw [mine, untimed, off]; rfl
    · rw [at_j j same]; exact h.timed j
  · rw [escalation] at he
    rw [others _ (on_escalation he)]
    exact h.escalation.named e he
  · rw [escalation]
    by_cases same : j = i
    · subst same
      rw [mine, unescalated]
      exact ⟨nofun, fun ⟨e, he, at_j⟩ => absurd at_j (on_escalation he)⟩
    · rw [at_j j same]; exact h.escalation.flags j
  · rw [lists] at he
    rw [isDefined, others _ (on_shelf he), owner _ (on_shelf he)]
    exact h.shelf.named q e he
  · rw [lists]
    by_cases same : j = i
    · subst same
      rw [mine, unshelved']
      exact ⟨nofun, fun ⟨e, he, at_j⟩ => absurd at_j (on_shelf he)⟩
    · rw [at_j j same, owner j same]; exact h.shelf.flags j
  · rw [lists] at he
    have other : e.alarm ≠ i := on_ann (List.mem_map_of_mem he)
    rw [reminderRuns, lifecycle _ other, priority _ other, loads, ← reminderRuns]
    exact h.reminded q e he not_false
  · rw [lists, (h.horn q).resolve_left fun ⟨_, _, bad⟩ => bad, hornSounds, hornSounds, lists, Bool.eq_iff_iff, List.any_eq_true, List.any_eq_true]
    refine exists_congr fun e => and_congr_right fun he => ?_
    have other : e.alarm ≠ i := on_ann (List.mem_map_of_mem he)
    rw [lifecycle _ other, priority _ other]

/-- R4: an alarm that may be redefined is in no place and not shelved, and its new record is as fresh. -/
theorem definedAlarm_fresh (h : Ordered s) (f : AlarmFields) (allowed : (!isDefined s i || redefinable s i) = true) :
    placedNow s i = false ∧ (alarmAt s i).dyn.shelved = false ∧
      (let b := definedAlarm f (s.runState == .unconfigured) (alarm? s i)
       b.dyn.annTime = none ∧ b.dyn.overflow = false ∧ b.dyn.escalated = false ∧ b.dyn.shelved = false ∧
         (b.dyn.lifecycle = .normal ∨ b.dyn.lifecycle = .outOfService)) := by
  cases present : alarm? s i with
  | none =>
    rw [placedNow_none present, alarmAt_none present]
    refine ⟨rfl, rfl, rfl, rfl, rfl, rfl, ?_⟩
    simp only [definedAlarm, newRecord]
    split <;> simp
  | some a =>
    have rests := h.idle i a present
    have calm : (a.dyn.lifecycle = .normal ∨ a.dyn.lifecycle = .outOfService) ∧ a.dyn.shelved = false := by
      simp only [isDefined, present, redefinable, alarmAt_eq present] at allowed
      by_cases un : s.runState = .unconfigured
      · exact rests.2 un
      · simpa [un] using allowed
    obtain ⟨lifecycle, shelved⟩ := calm
    have off : placedNow s i = false := by
      rw [placedNow_eq, lifecycleOf, alarmAt_eq present]
      rcases lifecycle with h | h <;> rw [h] <;> rfl
    have timed := h.order.timed i
    have clear := (h.order.sited.absent (p := .p0) off).2.2
    have unescalated : a.dyn.escalated = false := Bool.not_eq_true _ ▸ fun on => by
      have some' := h.order.escalation.timed (i := i) (by rw [alarmAt_eq present]; exact on)
      rw [timed, off] at some'; cases some'
    rw [alarmAt_eq present] at timed clear ⊢
    rw [off, Option.isSome_eq_false_iff, Option.isNone_iff_eq_none] at timed
    refine ⟨off, shelved, ?_⟩
    simp only [definedAlarm]
    split
    · refine ⟨timed, clear, unescalated, shelved, ?_⟩
      simp only [AlarmDyn.enter]
      split <;> simp
    · exact ⟨timed, clear, unescalated, shelved, lifecycle⟩

/-- R2 to R4: DEFINE_ALARM. -/
theorem ordered_defined (h : Ordered s) (f : AlarmFields) (allowed : (!isDefined s i || redefinable s i) = true) :
    Ordered { s with alarms := s.alarms.insert i (definedAlarm f (s.runState == .unconfigured) (alarm? s i)) } := by
  obtain ⟨off, unshelved, untimed, unmarked, unescalated, unshelved', lifecycle⟩ := definedAlarm_fresh h f allowed
  have order := h.order.defined off unshelved ⟨untimed, unmarked, unescalated, unshelved'⟩
  generalize definedAlarm f (s.runState == .unconfigured) (alarm? s i) = b at *
  have self : alarm? { s with alarms := s.alarms.insert i b } i = some b := Table.get?_insert_self ..
  refine h.written (i := i) (fun j hj => by rw [show alarm? { s with alarms := s.alarms.insert i b } j = alarm? s j from Table.get?_insert_ne _ b hj])
    rfl rfl ?_ fun c present => ?_
  · have gone : placedNow { s with alarms := s.alarms.insert i b } i = false := by
      rw [placedNow_eq, lifecycleOf, alarmAt_eq self]
      rcases lifecycle with h | h <;> rw [h] <;> rfl
    rw [gone, Sited.wish_self off]
    exact order
  · rw [self] at present
    cases present
    exact ⟨fun _ => unshelved', fun _ => ⟨lifecycle, unshelved'⟩⟩

/-! ### RESTART -/

/-- R22, R23, R47: the alarms and lists at a warm restart. -/
theorem inOrder_restartCleared (h : InOrder want noneStale s) : InOrder (fun _ => false) noneStale (restartCleared s) := by
  generalize ht : restartCleared s = t
  have record (i : Nat) : alarm? t i = (alarm? s i).map _ := ht ▸ alarm?_restartCleared s i
  have lists (q : Pos) : t.lists.get q = { s.lists.get q with ann := [], deferred := [], horn := false } := ht ▸ PerPos.get_map ..
  have areas : t.areas = s.areas := ht ▸ rfl
  have escalation : t.escalation = [] := ht ▸ rfl
  have wf : t.alarms.wf = true := ht ▸ Table.wf_map (f := fun a : Alarm => { a with dyn := a.dyn.restart }) h.sited.wf
  clear ht
  have blank (i : Nat) : (alarmAt t i).dyn.annTime = none ∧ (alarmAt t i).dyn.overflow = false ∧ (alarmAt t i).dyn.escalated = false ∧
      (alarmAt t i).dyn.shelved = (alarmAt s i).dyn.shelved ∧ (alarmAt t i).defn = (alarmAt s i).defn := by
    rw [alarmAt, record, alarmAt]
    cases alarm? s i with
    | none => exact ⟨rfl, rfl, rfl, rfl, rfl⟩
    | some a => exact ⟨rfl, rfl, rfl, rfl, rfl⟩
  have owner (j : Nat) : ownerOf t j = ownerOf s j := by rw [ownerOf, ownerOf, (blank j).2.2.2.2, areaOwner, areaOwner, areas]
  refine ⟨⟨wf, fun q => ?_, fun q => ?_, fun q e he => ?_, fun j marked => ?_, fun j => ?_⟩, fun j => by rw [(blank j).1]; rfl,
    ⟨?_, fun e he => ?_, fun j => ?_⟩, ⟨fun q => ?_, fun q e he => ?_, fun j => ?_⟩, fun q e he _ => ?_, fun q => .inr ?_⟩
  · rw [annEntries, lists]; exact ⟨.nil, .nil⟩
  · rw [lists]; exact ⟨.nil, .nil⟩
  · rw [annEntries, lists] at he; cases he
  · rw [(blank j).2.1] at marked; cases marked
  · rw [onAnn, onDeferred, lists, (blank j).2.1]; rfl
  · rw [escalation]; exact ⟨.nil, .nil⟩
  · rw [escalation] at he; cases he
  · rw [escalation, (blank j).2.2.1]
    exact ⟨nofun, fun ⟨e, he, _⟩ => by cases he⟩
  · rw [lists]; exact h.shelf.order q
  · rw [lists] at he
    obtain ⟨defined, at_q⟩ := h.shelf.named q e he
    exact ⟨by rw [isDefined, record, Option.isSome_map]; exact defined, (owner _).trans at_q⟩
  · rw [(blank j).2.2.2.1, owner, lists]; exact h.shelf.flags j
  · rw [lists] at he; cases he
  · rw [hornSounds, lists]; rfl

/-- R182: RESTART. -/
theorem ordered_warmRestart (h : Ordered s) : Ordered (warmRestart s) := by
  obtain ⟨-, kept, -⟩ := warmRestart_spec s
  have run : (restartCleared s).runState = .resync := rfl
  have cleared : Ordered (restartCleared s) := by
    have record := alarm?_restartCleared s
    have order := inOrder_restartCleared h.order
    generalize restartCleared s = t at *
    refine ⟨?_, fun i b present => ?_⟩
    · rw [show placedNow t = fun _ => false from funext fun i => ?_]
      · exact order
      · cases present : alarm? s i with
        | none => exact placedNow_none (by rw [record, present]; rfl)
        | some a =>
          rw [placedNow_eq, lifecycleOf, alarmAt_eq (by rw [record, present]; rfl)]
          by_cases out : a.dyn.lifecycle = .outOfService <;> simp [out]
    · rw [record] at present
      obtain ⟨a, ha, rfl⟩ := Option.map_eq_some_iff.1 present
      refine ⟨fun out => (h.idle i a ha).1 ?_, fun un => by rw [run] at un; cases un⟩
      by_contra other
      rw [if_neg other] at out
      cases out
  exact cleared.retained (.of_kept kept (by simp) (by simp)) (kept.agrees .mask (by simp)) fun un => (kept.agrees .device (by simp)).1 ▸ un

end

end Sys2Proof.Machine
end

section
/-! PROOFS. Every alarm in its place after AREA_TRANSFER (R96 to R98, R37). -/

namespace Sys2Proof.Machine

section
variable {s t u m : State} {p q source target : Pos} {i : Nat} {e : ListEntry} {want : Nat → Bool} {home : Nat → Pos} {stale : Nat → Prop}

/-! ### Alarms that leave the source -/

/-- A wish list with the wishes of the alarms that move written. -/
abbrev wishes (b : Bool) (moving : List ListEntry) (want : Nat → Bool) : Nat → Bool := moving.foldl (fun w e => wish w e.alarm b) want

theorem wishes_of_mem {b : Bool} {moving : List ListEntry} (mem : (∃ e ∈ moving, e.alarm = i) ∨ want i = b) :
    wishes b moving want i = b := by
  induction moving generalizing want with
  | nil => exact mem.resolve_left fun ⟨_, h, _⟩ => by cases h
  | cons x moving ih =>
    refine ih ?_
    by_cases here : x.alarm = i
    · exact .inr (here ▸ Function.update_self ..)
    · rcases mem with ⟨e, he, same⟩ | same
      · rcases List.mem_cons.1 he with rfl | he
        · exact absurd same here
        · exact .inl ⟨e, he, same⟩
      · exact .inr ((Function.update_of_ne (Ne.symm here) ..).trans same)

theorem wishes_of_not_mem {b : Bool} {moving : List ListEntry} (out : ∀ e ∈ moving, e.alarm ≠ i) :
    wishes b moving want i = want i := by
  induction moving generalizing want with
  | nil => rfl
  | cons x moving ih =>
    exact (ih fun e he => out e (List.mem_cons_of_mem _ he)).trans (Function.update_of_ne (Ne.symm (out x List.mem_cons_self)) ..)

/-- An alarm that is not on a deferred list has nothing to leave there. -/
theorem Sited.leaveDeferred_absent (h : Sited want home s) (off : onDeferred s p i = false) :
    Sited want home (Machine.leaveDeferred p i s) := by
  have rest : (s.lists.get p).deferred.filter (fun e => e.alarm != i) = (s.lists.get p).deferred :=
    List.filter_eq_self.2 fun e he => bne_iff_ne.2 fun same => Bool.false_ne_true (off.symm.trans (onDeferred_iff.2 ⟨e, he, same⟩))
  refine h.same h.wf (fun q => ?_) (fun q => ?_) fun _ => rfl
  · rw [annEntries, Machine.leaveDeferred, modLists_get]
    split
    · subst q; rfl
    · rfl
  · rw [Machine.leaveDeferred, modLists_get]
    split
    · subst q; exact rest
    · rfl

/-- R37 step 1: an alarm leaves the places of its home. -/
theorem Sited.moveOut (h : Sited want home s) (at_source : home e.alarm = source) :
    Sited (wish want e.alarm false) home (moveOut source s e) := by
  rw [Machine.moveOut]
  split
  · have left := h.leaveAnn ‹_›
    exact left.of_kept (quiet_notify ..).kept (by simp) (by simp)
  · rename_i off
    have off' : onAnn s (home e.alarm) e.alarm = false := at_source ▸ (Bool.not_eq_true _ ▸ off)
    cases waits : onDeferred s source e.alarm with
    | true =>
      have gone := (h.leaveDeferred waits).cleared (i := e.alarm) (by rw [onAnn_leaveDeferred]; exact off')
        (by rw [at_source, onDeferred_leaveDeferred, if_pos ⟨rfl, rfl⟩])
      rwa [wish_wish] at gone
    | false =>
      exact (h.leaveDeferred_absent waits).cleared (by rw [onAnn_leaveDeferred]; exact off')
        (by rw [at_source, onDeferred_leaveDeferred, if_pos ⟨rfl, rfl⟩])

theorem Sited.movedOut (moving : List ListEntry) (h : Sited want home s) (at_source : ∀ e ∈ moving, home e.alarm = source) :
    Sited (wishes false moving want) home (moving.foldl (Machine.moveOut source) s) := by
  induction moving generalizing want s with
  | nil => exact h
  | cons e moving ih =>
    exact ih (h.moveOut (at_source e List.mem_cons_self)) fun x hx => at_source x (List.mem_cons_of_mem _ hx)

theorem marksOnly_moveOut (source : Pos) (s : State) (e : ListEntry) : MarksOnly s (moveOut source s e) := by
  rw [moveOut]
  split
  · exact .of_alarms rfl
  · exact (MarksOnly.of_alarms (s := s) (t := leaveDeferred source e.alarm s) rfl).trans (marksOnly_setOverflow ..)

theorem marksOnly_movedOut (source : Pos) (moving : List ListEntry) (s : State) :
    MarksOnly s (moving.foldl (moveOut source) s) := by
  induction moving generalizing s with
  | nil => exact .refl s
  | cons e moving ih => exact (marksOnly_moveOut source s e).trans (ih _)

/-- R37, R38: the entries that stay at the source keep their reminders. -/
theorem RemindersRight.movedOut (moving : List ListEntry) (h : RemindersRight stale s source) :
    RemindersRight stale (moving.foldl (moveOut source) s) source := by
  induction moving generalizing s with
  | nil => exact h
  | cons e moving ih =>
    refine ih fun x hx fresh => ?_
    have place := atPos_moveOut source s e
    have quiet := quiet_moveOut (s := s) source e
    rw [place.reminderRuns (by rw [show (moveOut source s e).loads = s.loads from quiet.kept.agrees .loads (by simp)])]
    refine h x ?_ fresh
    rw [moveOut] at hx
    split at hx
    · have mem : x ∈ ((Machine.leaveAnn source e.alarm s).lists.get source).ann := hx
      rw [leaveAnn_lists, if_pos rfl] at mem
      exact (List.mem_filter.1 mem).1
    · have mem : x ∈ ((leaveDeferred source e.alarm s).lists.get source).ann := hx
      rwa [leaveDeferred, modLists_get_self] at mem

/-! ### Alarms that are placed at the target -/

theorem Sited.movedIn (moving : List ListEntry) (nodup : (moving.map (·.alarm)).Nodup) (h : Sited want home s)
    (off : ∀ e ∈ moving, want e.alarm = false) (at_target : ∀ e ∈ moving, home e.alarm = target)
    (defined : ∀ e ∈ moving, (alarm? s e.alarm).isSome = true) :
    Sited (wishes true moving want) home (moving.foldl (moveIn target) s) := by
  induction moving generalizing want s with
  | nil => exact h
  | cons e moving ih =>
    obtain ⟨fresh, nodup⟩ := List.nodup_cons.1 nodup
    obtain ⟨a, present⟩ := Option.isSome_iff_exists.1 (defined e List.mem_cons_self)
    have put : Sited (wish want e.alarm true) home (moveIn target s e) :=
      h.placeOnLists (off e List.mem_cons_self) (at_target e List.mem_cons_self) present e.time
    refine ih nodup put (fun x hx => ?_) (fun x hx => at_target x (List.mem_cons_of_mem _ hx)) fun x hx => ?_
    · exact (wish_ne (fun same => fresh (List.mem_map.2 ⟨x, hx, same⟩)) ..).trans (off x (List.mem_cons_of_mem _ hx))
    · exact ((atPos_placeOnLists target s e.alarm e.time).isSome_alarm? _).trans (defined x (List.mem_cons_of_mem _ hx))

/-- R37 step 3: an alarm is placed with the annunciation time it holds. -/
theorem marksOnly_moveIn (target : Pos) (held : ∀ a, alarm? s e.alarm = some a → a.dyn.annTime = some e.time) :
    MarksOnly s (moveIn target s e) := by
  refine MarksOnly.trans (t := stamped e.alarm e.time s) ⟨fun j => ?_⟩ (marksOnly_placeOnLists ..)
  rw [alarm?_modDyn]
  split
  · subst j
    rw [Option.map_map]
    refine Option.map_congr fun a present => ?_
    simp only [Function.comp, Alarm.unmarked, ← held a present]
  · rfl

theorem marksOnly_movedIn (target : Pos) (moving : List ListEntry)
    (held : ∀ e ∈ moving, ∀ a, alarm? s e.alarm = some a → a.dyn.annTime = some e.time) : MarksOnly s (moving.foldl (moveIn target) s) := by
  induction moving generalizing s with
  | nil => exact .refl s
  | cons e moving ih =>
    have first := marksOnly_moveIn target (held e List.mem_cons_self)
    refine first.trans (ih fun x hx b found => ?_)
    have same := first.record x.alarm
    rw [found] at same
    obtain ⟨a, ha, fields⟩ := Option.map_eq_some_iff.1 same.symm
    have time := congrArg (fun y : Alarm => y.dyn.annTime) fields
    exact Eq.trans (Eq.symm time) (held x (List.mem_cons_of_mem _ hx) a ha)

theorem RemindersRight.movedIn (moving : List ListEntry) (h : RemindersRight stale s target) :
    RemindersRight stale (moving.foldl (moveIn target) s) target := by
  induction moving generalizing s with
  | nil => exact h
  | cons e moving ih => exact ih (h.placeOnLists e.alarm e.time)

theorem hornRight_judgeHorn (stale : Nat → Prop) (p : Pos) (s : State) : HornRight stale (judgeHorn p s) p := by
  refine .inr ?_
  rw [(atPos_judgeHorn p s).hornSounds (q := p) (by rw [judgeHorn_lists, if_pos rfl]), judgeHorn_lists, if_pos rfl]

/-! ### The alarms collected -/

theorem perm_foldl_insertBy {α : Type} (before : α → α → Bool) (m l : List α) :
    (m.foldl (fun l e => insertBy before e l) l).Perm (m ++ l) := by
  induction m generalizing l with
  | nil => exact .refl _
  | cons x m ih => exact (ih _).trans (((perm_insertBy ..).append_left m).trans List.perm_middle)

/-- R37 step 1: no alarm is collected twice. -/
theorem nodup_collected (wf : s.alarms.wf = true) (a : Nat) (source : Pos) : ((collected s a source).map (·.alarm)).Nodup := by
  have keys : (s.alarms.map Prod.fst).Nodup := ((Table.wf_iff _).1 wf).imp fun lt => Nat.ne_of_lt lt
  rw [collected]
  refine (((perm_foldl_insertBy ..).map _).nodup_iff).2 ?_
  rw [List.append_nil, List.map_filterMap]
  refine List.Nodup.sublist ?_ keys
  have chosen (c : Nat × Alarm → Bool) (l : List (Nat × Alarm)) : l.filterMap (fun e =>
      (if c e then some (ListEntry.mk e.1 (e.2.dyn.annTime.getD 0)) else none).map (·.alarm)) = (l.filter c).map Prod.fst := by
    induction l with
    | nil => rfl
    | cons e l ih =>
      rw [List.filterMap_cons, List.filter_cons, ih]
      cases c e <;> rfl
  rw [chosen fun e => e.2.defn.area == a && listedAt s source e.1]
  exact List.filter_sublist.map _

/-! ### The shelf lists -/

/-- R98: shelf entries move to their new owner. -/
theorem InShelfOrder.moved {l moving : List ShelfEntry} (h : InShelfOrder l) (fresh : ∀ e ∈ moving, ∀ x ∈ l, x.alarm ≠ e.alarm)
    (nodup : (moving.map (·.alarm)).Nodup) : InShelfOrder (moving.foldl (fun l e => Machine.insertBy shelfBefore e l) l) := by
  induction moving generalizing l with
  | nil => exact h
  | cons e moving ih =>
    obtain ⟨alone, nodup⟩ := List.nodup_cons.1 nodup
    refine ih (h.insertBy (fresh e List.mem_cons_self)) (fun x hx y hy => ?_) nodup
    rcases mem_insertBy.1 hy with rfl | hy
    · exact fun same => alone (List.mem_map.2 ⟨x, hx, same.symm⟩)
    · exact fresh x (List.mem_cons_of_mem _ hx) y hy

end

/-! ### AREA_TRANSFER -/

section
variable {s : State} {a o : Nat} {source target : Pos}

/-- R98: the shelf lists are right for the owners after the transfer. -/
theorem shelfRight_areaGiven (h : ShelfRight s) (other : target ≠ source) (length : s.areas.length = 16) (inside : a ≤ 15)
    (owner : areaOwner s a = source) : ShelfRight (areaGiven a o source target s) := by
  obtain ⟨now, still⟩ := areaOwner_set length inside (t := areaGiven a o source target s) rfl
  have target_shelf : ((areaGiven a o source target s).lists.get target).shelf =
      (areaShelf s a source).foldl (fun l e => insertBy shelfBefore e l) (s.lists.get target).shelf := by
    rw [areaGiven, moveShelf, modLists_get_self]
    simp only [modLists_get, if_neg other]
    rfl
  obtain ⟨gone, came, -, others⟩ := moveShelf_spec (s := append .areaTransferred (some target) (some o) (some a) source.num
    { s with areas := s.areas.set a target }) (a := a) other
  have gone' : ((areaGiven a o source target s).lists.get source).shelf =
    (s.lists.get source).shelf.filter (fun e => (alarmAt s e.alarm).defn.area != a) := gone
  have came' : ∀ e, e ∈ ((areaGiven a o source target s).lists.get target).shelf ↔ e ∈ (s.lists.get target).shelf ∨
    (e ∈ (s.lists.get source).shelf ∧ (alarmAt s e.alarm).defn.area = a) := came
  have others' : ∀ q, q ≠ source → q ≠ target → (areaGiven a o source target s).lists.get q = s.lists.get q := others
  have record (j : Nat) : alarmAt (areaGiven a o source target s) j = alarmAt s j := rfl
  have defined (j : Nat) : isDefined (areaGiven a o source target s) j = isDefined s j := rfl
  generalize areaGiven a o source target s = t at *
  have moved {j : Nat} (hj : (alarmAt s j).defn.area = a) : ownerOf s j = source ∧ ownerOf t j = target := by
    rw [ownerOf, ownerOf, record, hj]; exact ⟨owner, now⟩
  have stays {j : Nat} (hj : (alarmAt s j).defn.area ≠ a) : ownerOf t j = ownerOf s j := by
    rw [ownerOf, ownerOf, record]; exact still _ hj
  refine ⟨fun q => ?_, fun q e he => ?_, fun j => ?_⟩
  · by_cases ht : q = target
    · subst ht
      rw [target_shelf]
      refine (h.order q).moved (fun e he x hx same => ?_) ((h.order source).2.sublist (List.filter_sublist.map _))
      have at_q := (h.named q x hx).2
      rw [same, (moved (beq_iff_eq.1 (List.mem_filter.1 he).2)).1] at at_q
      exact other at_q.symm
    · by_cases hs : q = source
      · rw [hs, gone']; exact (h.order source).sublist List.filter_sublist
      · rw [others' q hs ht]; exact h.order q
  · rw [defined]
    have kept {q' : Pos} (hq : q' ≠ source) (mem : e ∈ (s.lists.get q').shelf) : isDefined s e.alarm = true ∧ ownerOf t e.alarm = q' := by
      obtain ⟨known, at_q⟩ := h.named q' e mem
      exact ⟨known, (stays fun area => hq (at_q.symm.trans (moved area).1)).trans at_q⟩
    by_cases ht : q = target
    · subst ht
      rcases (came' e).1 he with mem | ⟨mem, area⟩
      · exact kept other mem
      · exact ⟨(h.named source e mem).1, (moved area).2⟩
    · by_cases hs : q = source
      · subst hs
        rw [gone'] at he
        obtain ⟨mem, area⟩ := List.mem_filter.1 he
        obtain ⟨known, at_q⟩ := h.named _ e mem
        exact ⟨known, (stays (bne_iff_ne.1 area)).trans at_q⟩
      · rw [others' q hs ht] at he
        exact kept hs he
  · rw [record, h.flags j]
    by_cases area : (alarmAt s j).defn.area = a
    · rw [(moved area).1, (moved area).2]
      refine exists_congr fun e => ⟨fun ⟨he, same⟩ => ⟨(came' e).2 (.inr ⟨he, same ▸ area⟩), same⟩, fun ⟨he, same⟩ => ⟨?_, same⟩⟩
      rcases (came' e).1 he with mem | ⟨mem, -⟩
      · have at_target := (h.named target e mem).2
        rw [same, (moved area).1] at at_target
        exact absurd at_target.symm other
      · exact mem
    · rw [stays area]
      by_cases ht : ownerOf s j = target
      · rw [ht]
        refine exists_congr fun e => ⟨fun ⟨he, same⟩ => ⟨(came' e).2 (.inl he), same⟩, fun ⟨he, same⟩ => ⟨?_, same⟩⟩
        rcases (came' e).1 he with mem | ⟨-, here⟩
        · exact mem
        · exact absurd (same ▸ here) area
      · by_cases hs : ownerOf s j = source
        · rw [hs, gone']
          refine exists_congr fun e => ⟨fun ⟨he, same⟩ => ⟨List.mem_filter.2 ⟨he, bne_iff_ne.2 (same ▸ area)⟩, same⟩,
            fun ⟨he, same⟩ => ⟨(List.mem_filter.1 he).1, same⟩⟩
        · rw [others' _ hs ht]

/-- R37 step 1: the alarms that stand in a place at their homes are those that are wanted. -/
theorem Sited.standsAt_eq {want : Nat → Bool} {home : Nat → Pos} {i : Nat} {p : Pos} (h : Sited want home s) (at_p : home i = p) :
    standsAt s p i = want i := by
  cases wanted : want i with
  | false =>
    obtain ⟨ann, deferred, clear⟩ := h.absent (p := p) wanted
    rw [standsAt, ann, deferred, clear]; rfl
  | true =>
    refine Bool.not_eq_false _ ▸ fun off => ?_
    simp only [standsAt, Bool.or_eq_false_iff] at off
    obtain ⟨⟨ann, deferred⟩, clear⟩ := off
    have one := h.places i
    rw [at_p, ann, deferred, clear, wanted] at one
    cases one

section
variable {want : Nat → Bool}

/-- R37: the alarms collected at the source leave it, and are placed at the target. -/
theorem sited_moveLists {home : Nat → Pos} (h : Sited want home s) (timed : ∀ i, (alarmAt s i).dyn.annTime.isSome = want i)
    (from' : ∀ j, (alarmAt s j).defn.area = a → home j = source ∧ ownerOf s j = target)
    (others : ∀ j, (alarmAt s j).defn.area ≠ a → home j = ownerOf s j) :
    let moving := collected s a source
    Sited want (ownerOf (moveLists source target moving s)) (moveLists source target moving s) ∧
      MarksOnly s (moveLists source target moving s) := by
  intro moving
  have nodup : (moving.map (·.alarm)).Nodup := nodup_collected h.wf a source
  have mem (e : ListEntry) : e ∈ moving ↔ _ := mem_collected h.wf
  clear_value moving
  have chosen (e : ListEntry) (he : e ∈ moving) : (alarmAt s e.alarm).defn.area = a ∧ want e.alarm = true ∧
      ∀ x, alarm? s e.alarm = some x → x.dyn.annTime = some e.time := by
    obtain ⟨x, present, area, listed, time⟩ := (mem e).1 he
    have area' : (alarmAt s e.alarm).defn.area = a := by rw [alarmAt_eq present]; exact area
    have wanted : want e.alarm = true := (h.standsAt_eq (from' _ area').1).symm.trans listed
    refine ⟨area', wanted, fun y hy => ?_⟩
    rw [present] at hy
    cases hy
    have some' := timed e.alarm
    rw [wanted, alarmAt_eq present] at some'
    obtain ⟨z, hz⟩ := Option.isSome_iff_exists.1 some'
    rw [time, hz]; rfl
  have gone (j : Nat) (area : (alarmAt s j).defn.area = a) : wishes false moving want j = false := by
    refine wishes_of_mem ?_
    cases wanted : want j with
    | false => exact .inr rfl
    | true =>
      have stands : standsAt s source j = true := (h.standsAt_eq (from' j area).1).trans wanted
      obtain ⟨x, present⟩ : ∃ x, alarm? s j = some x := Option.ne_none_iff_exists'.1 fun none => by
        have some' := timed j
        rw [alarmAt_none none, wanted] at some'; cases some'
      exact .inl ⟨⟨j, x.dyn.annTime.getD 0⟩, (mem _).2 ⟨x, present, by rwa [alarmAt_eq present] at area, stands, rfl⟩, rfl⟩
  have out : Sited (wishes false moving want) home (moving.foldl (moveOut source) s) :=
    h.movedOut moving fun e he => (from' _ (chosen e he).1).1
  have place := atPos_foldl source moving s (atPos_moveOut source)
  have marks := marksOnly_movedOut source moving s
  rw [moveLists]
  generalize moving.foldl (moveOut source) s = v at *
  have rehomed : Sited (wishes false moving want) (ownerOf v) v := out.rehomed fun j wanted => by
    rw [place.ownerOf]
    by_cases area : (alarmAt s j).defn.area = a
    · rw [gone j area] at wanted; cases wanted
    · exact (others j area).symm
  have restored := neutral_restoreLists source v
  have settled := restored.sited _ rehomed
  have marks' := marks.trans restored.marks
  have place' := place.trans restored.place
  generalize restoreLists source v = r at *
  have put : Sited (wishes true moving (wishes false moving want)) (ownerOf r) (moving.foldl (moveIn target) r) :=
    settled.movedIn moving nodup (fun e he => gone _ (chosen e he).1) (fun e he => (place'.ownerOf _).trans (from' _ (chosen e he).1).2) fun e he => by
      obtain ⟨x, present, -⟩ := (mem e).1 he
      rw [place'.isSome_alarm?, present]; rfl
  have same : wishes true moving (wishes false moving want) = want := funext fun j => by
    by_cases moves : ∃ e ∈ moving, e.alarm = j
    · obtain ⟨e, he, rfl⟩ := moves
      rw [wishes_of_mem (.inl ⟨e, he, rfl⟩), (chosen e he).2.1]
    · rw [wishes_of_not_mem fun e he at_j => moves ⟨e, he, at_j⟩, wishes_of_not_mem fun e he at_j => moves ⟨e, he, at_j⟩]
  have held : MarksOnly r (moving.foldl (moveIn target) r) := marksOnly_movedIn target moving fun e he b found => by
    have fields := marks'.record e.alarm
    rw [found] at fields
    obtain ⟨x, present, made⟩ := Option.map_eq_some_iff.1 fields.symm
    have time := congrArg (fun y : Alarm => y.dyn.annTime) made
    exact Eq.trans (Eq.symm time) ((chosen e he).2.2 x present)
  have into := atPos_foldl target moving r fun s e => atPos_placeOnLists target s e.alarm e.time
  have judged : Neutral target (moving.foldl (moveIn target) r) (judgeHorn target (moving.foldl (moveIn target) r)) := .judged (.refl ..)
  rw [same, ← show ownerOf (moving.foldl (moveIn target) r) = ownerOf r from funext into.ownerOf] at put
  exact ⟨judged.sited _ put, (marks'.trans held).trans judged.marks⟩

/-- R37, R38, R43: the reminders and horn lines after a MOVE. -/
theorem sounds_moveLists (moving : List ListEntry) (other : target ≠ source) (reminded : ∀ q, RemindersRight noneStale s q)
    (horn : ∀ q, HornRight noneStale s q) (q : Pos) : RemindersRight noneStale (moveLists source target moving s) q ∧
      HornRight noneStale (moveLists source target moving s) q := by
  have place := atPos_movedOut source moving s
  have left := (neutral_restoreLists source (moving.foldl (moveOut source) s)).reminded _ ((reminded source).movedOut moving)
  have quiet : HornRight noneStale (movedOut source moving s) source := hornRight_judgeHorn ..
  rw [moveLists]
  change RemindersRight noneStale (judgeHorn target (moving.foldl (moveIn target) (movedOut source moving s))) q ∧
    HornRight noneStale (judgeHorn target (moving.foldl (moveIn target) (movedOut source moving s))) q
  change RemindersRight noneStale (movedOut source moving s) source at left
  generalize movedOut source moving s = r at *
  have into := atPos_foldl target moving r fun s e => atPos_placeOnLists target s e.alarm e.time
  have judged : Neutral target (moving.foldl (moveIn target) r) (judgeHorn target (moving.foldl (moveIn target) r)) := .judged (.refl ..)
  have after := into.trans judged.place
  by_cases ht : q = target
  · subst ht
    exact ⟨judged.reminded _ (((reminded q).elsewhere place other).movedIn moving), hornRight_judgeHorn ..⟩
  · have before : RemindersRight noneStale r q ∧ HornRight noneStale r q := by
      by_cases hs : q = source
      · exact hs ▸ ⟨left, quiet⟩
      · exact ⟨(reminded q).elsewhere place hs, (horn q).elsewhere place hs⟩
    exact ⟨before.1.elsewhere after ht, before.2.elsewhere after ht⟩

theorem horn_modLists (p q : Pos) {f : PosLists → PosLists} (hf : ∀ v, (f v).horn = v.horn) (s : State) :
    ((modLists p f s).lists.get q).horn = (s.lists.get q).horn := by
  rw [modLists_get]
  split
  · subst q; exact hf _
  · rfl

/-- R96 to R98, R37: an area is transferred. -/
theorem ordered_transferArea (h : Ordered s) (other : target ≠ source) (length : s.areas.length = 16) (inside : a ≤ 15)
    (owner : areaOwner s a = source) : Ordered (transferArea a source target o s) := by
  have settled := (transferArea_spec (o := o) other h.order.sited.wf owner).2.2.2.2.1
  have quiet := quiet_transferArea s a source target o
  have plans : SamePlans s (transferArea a source target o s) := by
    refine ⟨fun j => ?_, quiet.kept.agrees .mask (by simp), (quiet.kept.agrees .device (by simp)).1⟩
    have same := congrArg (Option.map fun x : AlarmDef × Input × Lifecycle × Option Nat × Bool => (x.1.group, x.2.2.1, x.2.2.2.2)) (settled j)
    rw [Option.map_map, Option.map_map] at same
    exact same
  refine h.planned plans ?_
  rw [transferArea_eq]
  obtain ⟨now, still⟩ := areaOwner_set length inside (t := areaGiven a o source target s) rfl
  obtain ⟨-, -, lists, -⟩ := moveShelf_spec (s := append .areaTransferred (some target) (some o) (some a) source.num
    { s with areas := s.areas.set a target }) (a := a) other
  have lists' : ∀ q, ((areaGiven a o source target s).lists.get q).ann = (s.lists.get q).ann ∧
    ((areaGiven a o source target s).lists.get q).deferred = (s.lists.get q).deferred := lists
  have horns (q : Pos) : ((areaGiven a o source target s).lists.get q).horn = (s.lists.get q).horn := by
    refine (horn_modLists target q ?_ _).trans (horn_modLists source q ?_ _) <;> intro v <;> rfl
  have shelf := shelfRight_areaGiven (o := o) h.order.shelf other length inside owner
  have kept : Kept [.areas, .lists, .journal] s (areaGiven a o source target s) :=
    ⟨fun p hp => by cases p <;> simp_all [Agrees, areaGiven, moveShelf, modLists, append]⟩
  generalize areaGiven a o source target s = g at *
  have alarms : g.alarms = s.alarms := kept.agrees .alarms (by simp)
  have record (j : Nat) : alarmAt g j = alarmAt s j := by rw [alarmAt, alarm?_congr alarms, alarmAt]
  have priority (j : Nat) : priorityOf g j = priorityOf s j := by rw [priorityOf, record, priorityOf]
  have lifecycle (j : Nat) : lifecycleOf g j = lifecycleOf s j := by rw [lifecycleOf, record, lifecycleOf]
  have order := h.order
  have given : Sited (placedNow s) (ownerOf s) g := order.sited.same (alarms ▸ order.sited.wf) (fun q => by rw [annEntries, (lists' q).1])
    (fun q => (lists' q).2) fun j => by rw [alarm?_congr alarms]
  obtain ⟨sited, marks⟩ := sited_moveLists (a := a) (source := source) (target := target) given (fun i => by rw [record]; exact order.timed i)
    (fun j area => by rw [ownerOf, ownerOf, ← record, area]; exact ⟨owner, now⟩)
    fun j area => by rw [ownerOf, ownerOf, record]; exact (still _ (record j ▸ area)).symm
  have sounds := sounds_moveLists (s := g) (collected g a source) other
    (fun q e he _ => by
      rw [(lists' q).1] at he
      rw [reminderRuns_congr lifecycle priority (by rw [show g.loads = s.loads from kept.agrees .loads (by simp)])]
      exact order.reminded q e he not_false)
    fun q => .inr (by
      rw [horns, (order.horn q).resolve_left fun ⟨_, _, bad⟩ => bad]
      simp only [hornSounds, (lists' q).1, priority, lifecycle])
  have out := atPos_movedOut source (collected g a source) g
  have into : AtPos target (movedOut source (collected g a source) g) (moveLists source target (collected g a source) g) :=
    (atPos_foldl target _ _ fun s e => atPos_placeOnLists target s e.alarm e.time).trans (atPos_judgeHorn ..)
  have moved := (quiet_moveLists g source target (collected g a source)).kept
  have marks' := (MarksOnly.of_alarms alarms).trans marks
  exact ⟨sited, fun j => by rw [marks'.annTime]; exact order.timed j,
    order.escalation.marked marks' (Eq.trans (moved.agrees .escalation (by simp)) (kept.agrees .escalation (by simp))),
    (shelf.at_pos out).at_pos into, fun q => (sounds q).1, fun q => (sounds q).2⟩

end

end

end Sys2Proof.Machine
end

section
/-! PROOFS. Every alarm in its place over every command. Settles `AlarmInvIsKept`. -/

namespace Sys2Proof.Machine

/-- The command leaves every alarm in its place. -/
def OrderKept (s : State) (r : Host.Outcome State Fault Refusal) : Prop :=
  ∃ u, r = .next (settle u) ∧ (s.areas.length = 16 → Ordered s → Ordered u)

/-- Work outside the alarms, the lists and what they are judged by. -/
theorem Ordered.untouched {ps : List Part} {s t : State} (h : Ordered s) (kept : Kept ps s t)
    (hp : ∀ x ∈ ps, x ∈ [Part.clock, .bypasses, .operators, .grants, .positions, .links, .journal, .free, .pending]) : Ordered t := by
  have out {x : Part} (hx : x ∉ [Part.clock, .bypasses, .operators, .grants, .positions, .links, .journal, .free, .pending]) : x ∉ ps :=
    fun mem => hx (hp x mem)
  have wider : ∀ x ∈ [Part.clock, .bypasses, .operators, .grants, .positions, .links, .journal, .free, .pending],
      x ∈ [Part.clock, .device, .mask, .alarms, .bypasses, .operators, .grants, .positions, .links, .journal, .free, .pending] := by decide
  exact h.retained (.of_kept kept (out (by simp)) fun x hx => wider x (hp x hx)) (kept.agrees .mask (out (by simp)))
    fun un => (kept.agrees .device (out (by simp))).1 ▸ un

section serving
variable {k : Kind} {h : Header} {i : Option Nat} {s : State}

theorem orderKept_serve {body : State → State × Answer}
    (hb : ∀ u, (takenUnconfigured k = false → u.runState ≠ .unconfigured) → u.areas.length = 16 → Ordered u → Ordered (body u).1) :
    OrderKept s (serve k h i body s) := by
  refine ⟨_, rfl, fun length o => ?_⟩
  have taken : Ordered (takeFrame h.link s) := o.untouched (kept_takeFrame ..) (by simp)
  have replied (u : State) (a : Answer) (ou : Ordered u) : Ordered (reply h k a (journalRefusal h k i a u)) :=
    (ou.untouched (quiet_journalRefusal ..).kept (by simp)).untouched (kept_reply ..) (by simp)
  refine replied _ _ ?_
  rw [judged]
  split
  · exact taken
  · rename_i checked
    refine hb _ (fun barred un => ?_) length taken
    simp only [liuChecks, firstRefusal_cons_eq_none] at checked
    obtain ⟨-, -, allowed, -⟩ := checked
    rw [runStateAllowed, un, barred] at allowed
    simp at allowed

theorem orderKept_console {body : Pos → State → State × Answer}
    (hb : ∀ p u, (takenUnconfigured k = false → u.runState ≠ .unconfigured) → Ordered u → Ordered (body p u).1) :
    OrderKept s (serve k h i (atConsole h body) s) := by
  refine orderKept_serve fun u run _ o => ?_
  rw [atConsole]
  split
  · exact hb _ u run o
  · exact o

theorem orderKept_event {act : State → State} (ha : Ordered s → Ordered (act s)) :
    OrderKept s (event act s) := ⟨_, rfl, fun _ => ha⟩

theorem ordered_judged {cs : List Check} {act : State → State × Answer} (o : Ordered s)
    (ha : firstRefusal cs = none → Ordered (act s).1) : Ordered (judged cs s act).1 := by
  unfold judged
  split
  · exact o
  · exact ha ‹_›

theorem present_of_defined {j : Nat} (h : isDefined s j = true) : ∃ a, alarm? s j = some a := Option.isSome_iff_exists.1 h

end serving

section commands
variable {s : State}

theorem order_execDefineAlarm (h : Header) (f : AlarmFields) : OrderKept s (execDefineAlarm h f s) :=
  orderKept_serve fun u _ _ o => ordered_judged o fun checked => by
    simp only [List.cons_append, firstRefusal_cons_eq_none, firstRefusal_append_eq_none] at checked
    obtain ⟨-, -, allowed, -⟩ := checked
    exact ordered_defined o f allowed

theorem order_execDefinePosition (h : Header) (f : PositionFields) : OrderKept s (execDefinePosition h f s) :=
  orderKept_serve fun _ _ _ o => ordered_judged o fun _ => ordered_configure o ..

theorem getLsbD_zero_of_check {groups : Word} (checked : (groupSetCheck groups).holds = true) : groups.getLsbD 0 = false := by
  simp only [groupSetCheck, Bool.and_eq_true, Bool.not_eq_true'] at checked
  exact checked.2

theorem order_execGroupMaskMask (h : Header) (action : Nat) (groups : Word) :
    OrderKept s (execGroupMaskMask h action groups s) :=
  orderKept_serve fun _ _ _ o => ordered_judged o fun checked => by
    simp only [firstRefusal_cons_eq_none] at checked
    exact ordered_regrouped o (orderedUnder_maskAlarm (getLsbD_zero_of_check checked.2.1)) (quiet_maskAlarm _) (by simp) ..

theorem order_execGroupMaskUnmask (h : Header) (groups : Word) : OrderKept s (execGroupMaskUnmask h groups s) :=
  orderKept_serve fun _ _ _ o => ordered_judged o fun checked => by
    simp only [firstRefusal_cons_eq_none] at checked
    exact ordered_regrouped o (orderedUnder_unmaskAlarm (getLsbD_zero_of_check checked.1)) (quiet_unmaskAlarm _) (by simp) ..

theorem order_execAlarmEventRaise (h : Header) (i event : Nat) : OrderKept s (execAlarmEventRaise h i event s) :=
  orderKept_serve fun _ run _ o => ordered_judged o fun checked => by
    simp only [definedIndexCheck, firstRefusal_cons_eq_none] at checked
    obtain ⟨a, present⟩ := present_of_defined checked.2.1
    exact ordered_raiseAlarm o present (run rfl) true

theorem order_execAlarmEventClear (h : Header) (i : Nat) : OrderKept s (execAlarmEventClear h i s) :=
  orderKept_serve fun _ run _ o => ordered_judged o fun checked => by
    simp only [definedIndexCheck, firstRefusal_cons_eq_none] at checked
    obtain ⟨a, present⟩ := present_of_defined checked.1
    exact ordered_clearAlarm o present (run rfl) true

theorem order_execAlarmStateActive (h : Header) (i state : Nat) : OrderKept s (execAlarmStateActive h i state s) :=
  orderKept_serve fun _ run _ o => ordered_judged o fun checked => by
    simp only [definedIndexCheck, firstRefusal_cons_eq_none] at checked
    obtain ⟨a, present⟩ := present_of_defined checked.2.2.1
    exact ordered_raiseAlarm o present (run rfl) false

theorem order_execAlarmStateInactive (h : Header) (i : Nat) : OrderKept s (execAlarmStateInactive h i s) :=
  orderKept_serve fun _ run _ o => ordered_judged o fun checked => by
    simp only [definedIndexCheck, firstRefusal_cons_eq_none] at checked
    obtain ⟨a, present⟩ := present_of_defined checked.2.1
    exact ordered_clearAlarm o present (run rfl) false

theorem order_execOutOfService (h : Header) (i : Nat) : OrderKept s (execOutOfService h i s) :=
  orderKept_serve fun _ _ _ o => ordered_judged o fun checked => by
    simp only [definedIndexCheck, firstRefusal_cons_eq_none] at checked
    obtain ⟨a, present⟩ := present_of_defined checked.1
    split
    · exact o
    · exact ordered_takeOutOfService o present

theorem order_execReturnToService (h : Header) (i : Nat) : OrderKept s (execReturnToService h i s) :=
  orderKept_serve fun _ run _ o => ordered_judged o fun checked => by
    simp only [definedIndexCheck, firstRefusal_cons_eq_none] at checked
    obtain ⟨a, present⟩ := present_of_defined checked.1
    split
    · rename_i out
      exact ordered_returnAlarm o present (run rfl) (by rwa [lifecycleOf, alarmAt_eq present] at out)
    · exact o

/-- R80, R109: an alarm action names a defined alarm. -/
theorem present_of_alarmActionChecks {o i limit : Nat} {k : GrantKind} {p : Pos} (checked : firstRefusal (alarmActionChecks s o i k limit p) = none) :
    ∃ a, alarm? s i = some a := by
  simp only [alarmActionChecks, indexChecks, firstRefusal_append_eq_none, firstRefusal_cons_eq_none] at checked
  exact present_of_defined checked.1.1.2.1

theorem order_execAck (h : Header) (i : Nat) : OrderKept s (execAck h i s) :=
  orderKept_console fun p u run o => ordered_judged o fun checked => by
    obtain ⟨a, present⟩ := present_of_alarmActionChecks checked
    rw [ackAnswer]
    split
    · exact o
    · exact ordered_acknowledge o present (run rfl) ..

theorem order_execAckList (h : Header) (count : Nat) (indices : List Nat) : OrderKept s (execAckList h count indices s) :=
  orderKept_console fun p u run o => ordered_judged o fun _ => ordered_ackList h.op p indices (u, []) (run rfl) o

theorem order_execShelve (h : Header) (i duration : Nat) : OrderKept s (execShelve h i duration s) :=
  orderKept_console fun p u run o => ordered_judged o fun checked => by
    rw [firstRefusal_append_eq_none] at checked
    obtain ⟨a, present⟩ := present_of_alarmActionChecks checked.1
    have conditions := checked.2
    simp only [shelveChecks, firstRefusal_cons_eq_none, alarmAt_eq present] at conditions
    rw [shelve]
    split
    · exact ordered_renewShelve o ..
    · rename_i off
      exact ordered_firstShelve o present (run rfl) (by simpa [alarmAt_eq present] using off) (by simpa using conditions.2.1) ..

theorem order_execUnshelve (h : Header) (i : Nat) : OrderKept s (execUnshelve h i s) :=
  orderKept_console fun p u run o => ordered_judged o fun checked => by
    rw [firstRefusal_append_eq_none, firstRefusal_cons_eq_none] at checked
    obtain ⟨a, present⟩ := present_of_alarmActionChecks checked.1
    exact ordered_shelveEnded o present (by simpa [alarmAt_eq present] using checked.2.1) ..

theorem order_execLatchReset (h : Header) (i : Nat) : OrderKept s (execLatchReset h i s) :=
  orderKept_console fun p u run o => ordered_judged o fun checked => by
    rw [firstRefusal_append_eq_none, firstRefusal_cons_eq_none] at checked
    obtain ⟨a, present⟩ := present_of_alarmActionChecks checked.1
    exact ordered_resetLatch o present (run rfl) (by simpa using checked.2.1) ..

theorem order_execShelfExpiry (i : Nat) : OrderKept s (execShelfExpiry i s) :=
  orderKept_event fun o => by
    split
    · rename_i due
      simp only [shelfDue, List.any_eq_true, Bool.and_eq_true, beq_iff_eq] at due
      obtain ⟨e, mem, named, -⟩ := due
      have known := (o.order.shelf.named _ e mem).1
      rw [named] at known
      obtain ⟨a, present⟩ := present_of_defined known
      have flag := (o.order.shelf.flags i).2 ⟨e, mem, named⟩
      rw [alarmAt_eq present] at flag
      exact ordered_shelveEnded o present flag ..
    · exact o

theorem order_execSilence (h : Header) : OrderKept s (execSilence h s) :=
  orderKept_console fun _ _ _ o => ordered_judged o fun _ => ordered_silenceList o _

theorem order_execAreaTransfer (h : Header) (area target : Nat) : OrderKept s (execAreaTransfer h area target s) :=
  orderKept_serve fun _ _ length o => ordered_judged o fun checked => by
    simp only [transferAccess, transferChecks, firstRefusal_cons_eq_none, firstRefusal_append_eq_none] at checked
    obtain ⟨⟨inside, -⟩, other, -⟩ := checked
    exact ordered_transferArea o (by simpa using other) length (by simpa using inside) rfl

theorem order_execDecayExpiry (p : Pos) : OrderKept s (execDecayExpiry p s) :=
  orderKept_event fun o => by
    split
    · exact ordered_decay o p
    · exact o

theorem order_execReminderExpiry (i : Nat) : OrderKept s (execReminderExpiry i s) :=
  orderKept_event fun o => by
    split
    · exact ordered_expireReminder o ‹_›
    · exact o

theorem order_execLoadQuery (h : Header) (selector : Nat) : OrderKept s (execLoadQuery h selector s) :=
  orderKept_serve fun _ _ _ o => ordered_judged o fun _ => ordered_clearLimits _ o

theorem order_execRestart (h : Header) : OrderKept s (execRestart h s) := orderKept_serve fun _ _ _ o => ordered_warmRestart o

theorem order_execCommission (h : Header) (hold : Nat) (rates : List Nat) : OrderKept s (execCommission h hold rates s) :=
  orderKept_serve fun u _ _ o => ordered_judged o fun _ => by
    have kept : Kept [.device, .links] u (storeRates rates { u with plantHold := clamp 2 60 hold, runState := .resync }) :=
      ⟨fun p hp => by cases p <;> simp_all [Agrees, storeRates]⟩
    exact o.retained (.of_kept kept (by simp) (by simp)) rfl fun un => nomatch (un : RunState.resync = .unconfigured)

theorem order_execResyncEnd (h : Header) : OrderKept s (execResyncEnd h s) :=
  orderKept_serve fun u _ _ o => ordered_judged o fun _ => by
    generalize ht : ({ u with alarms := u.alarms.map fun e => (e.1, { e.2 with dyn := e.2.dyn.endResync }), runState := .running } : State) = t
    have record (j : Nat) : alarm? t j = (alarm? u j).map fun a => { a with dyn := a.dyn.endResync } :=
      ht ▸ Table.get?_map u.alarms (fun a => { a with dyn := a.dyn.endResync } : Alarm → Alarm) j
    have kept : Kept [.device, .alarms] u t := ht ▸ ⟨fun p hp => by cases p <;> simp_all [Agrees]⟩
    have wf : u.alarms.wf = true → t.alarms.wf = true := fun wf =>
      ht ▸ Table.wf_map wf (fun a => { a with dyn := a.dyn.endResync } : Alarm → Alarm)
    have run : t.runState = .running := ht ▸ rfl
    refine o.retained ⟨kept.mono (by simp), wf, fun j => ?_⟩ (kept.agrees .mask (by simp)) fun un => by rw [run] at un; cases un
    rw [record, Option.map_map]
    refine Option.map_congr fun a _ => ?_
    simp only [Function.comp, Alarm.inputless, AlarmDyn.endResync]
    split <;> rfl

theorem order_execRelayReset (h : Header) : OrderKept s (execRelayReset h s) :=
  orderKept_serve fun u _ _ o => ordered_judged o fun _ => by
    split
    · have reset : Ordered { u with relay := false } :=
        o.retained (.of_kept (quiet_relay u false).kept (by simp) (by simp)) rfl id
      exact reset.untouched (quiet_append ..).kept (by simp)
    · exact o

theorem order_execHoldTimerExpiry (l : Link) : OrderKept s (execHoldTimerExpiry l s) :=
  orderKept_event fun o => by
    split
    · obtain ⟨v, routed, -, kept, -⟩ := takeDown_spec l s
      exact (o.untouched kept (by simp)).retained (.of_kept routed.kept (by simp) (by simp)) (routed.kept.agrees .mask (by simp))
        fun un => routed.device.1 ▸ un
    · exact o

/-- A command whose rules write none of the parts that say where an alarm is to stand. -/
theorem ordered_of_unchanged {c : Instr} {t : State} (ht : exec c s = .next t) (o : Ordered s)
    (h : ∀ part ∈ [Part.alarms, .mask, .lists, .escalation, .loads, .areas, .device], part.changedBy c = false) : Ordered t := by
  obtain ⟨t', ht', agrees⟩ := onlyTheNamedCommandsChangeAPart c s
  rw [ht] at ht'
  cases ht'
  have same (part : Part) (hp : part ∈ [Part.alarms, .mask, .lists, .escalation, .loads, .areas, .device]) : Agrees s t part :=
    agrees part (h part hp)
  refine o.untouched (ps := [.clock, .bypasses, .operators, .grants, .positions, .links, .journal, .free, .pending]) ⟨fun part hp => ?_⟩ (by simp)
  refine same part ?_
  revert hp
  cases part <;> decide

theorem OrderKept.next {t : State} {out : Host.Outcome State Fault Refusal} (h : OrderKept s out) (ht : out = .next t)
    (length : s.areas.length = 16) (o : Ordered s) : Ordered t := by
  obtain ⟨u, rfl, kept⟩ := h
  cases ht
  exact (kept length o).untouched (kept_settle u) (by simp)

/-- The command writes a part that says where an alarm is to stand. -/
def movesAlarms (c : Instr) : Bool := [Part.alarms, .mask, .lists, .escalation, .loads, .areas, .device].any fun part => part.changedBy c

/-- Every command but cold start that may change where an alarm is to stand leaves every alarm in its place. -/
theorem exec_order {c : Instr} (hc : c ≠ .coldStart) : movesAlarms c = false ∨ OrderKept s (exec c s) := by
  cases c
  case coldStart => exact absurd rfl hc
  case oneSecondStep => exact .inr (orderKept_event ordered_tick)
  case defineAlarm => exact .inr (order_execDefineAlarm ..)
  case definePosition => exact .inr (order_execDefinePosition ..)
  case groupMaskMask => exact .inr (order_execGroupMaskMask ..)
  case groupMaskUnmask => exact .inr (order_execGroupMaskUnmask ..)
  case alarmEventRaise => exact .inr (order_execAlarmEventRaise ..)
  case alarmEventClear => exact .inr (order_execAlarmEventClear ..)
  case alarmStateActive => exact .inr (order_execAlarmStateActive ..)
  case alarmStateInactive => exact .inr (order_execAlarmStateInactive ..)
  case outOfService => exact .inr (order_execOutOfService ..)
  case returnToService => exact .inr (order_execReturnToService ..)
  case ack => exact .inr (order_execAck ..)
  case ackList => exact .inr (order_execAckList ..)
  case shelve => exact .inr (order_execShelve ..)
  case unshelve => exact .inr (order_execUnshelve ..)
  case latchReset => exact .inr (order_execLatchReset ..)
  case shelfExpiry => exact .inr (order_execShelfExpiry ..)
  case silence => exact .inr (order_execSilence ..)
  case areaTransfer => exact .inr (order_execAreaTransfer ..)
  case decayExpiry => exact .inr (order_execDecayExpiry ..)
  case reminderExpiry => exact .inr (order_execReminderExpiry ..)
  case loadQuery => exact .inr (order_execLoadQuery ..)
  case restart => exact .inr (order_execRestart ..)
  case commission => exact .inr (order_execCommission ..)
  case resyncEnd => exact .inr (order_execResyncEnd ..)
  case relayReset => exact .inr (order_execRelayReset ..)
  case holdTimerExpiry => exact .inr (order_execHoldTimerExpiry ..)
  all_goals exact .inl rfl

theorem exec_ordered {c : Instr} (hc : c ≠ .coldStart) {t : State} (ht : exec c s = .next t) (length : s.areas.length = 16)
    (o : Ordered s) : Ordered t := by
  rcases exec_order (s := s) hc with still | kept
  · exact ordered_of_unchanged ht o (by simpa [movesAlarms] using still)
  · exact kept.next ht length o

end commands

/-- R24 to R26, R38, R40, R43, R108: every step keeps every alarm in its place, with the lists, the reminders and the horn lines true to
the alarms. -/
theorem placeInv_step {s t : State} (h : PlaceInv s) (hs : step s = .next t) : PlaceInv t := by
  refine step_induction (P := PlaceInv) (fun _ _ h => h) placeInv_reset (fun c s t hc h ht => ?_) h hs
  rw [placeInv_iff] at h ⊢
  obtain ⟨capacity, alarms, order, idle⟩ := h
  obtain ⟨order', idle'⟩ := exec_ordered hc ht capacity.2.2.2.1 ⟨order, idle⟩
  obtain ⟨u, keeps, rfl⟩ := exec_settles hc ht
  refine ⟨capacityInv_settle (keeps.capacity capacity), ?_, order', idle'⟩
  rw [AlarmInv, show (settle u).alarms = u.alarms from settle_agrees u .alarms nofun]
  exact keeps.alarm alarms

/-- Settles O11: `alarmInv_step` for the alarm points, and every alarm's place over every command for the lists. -/
theorem alarmInvIsKept : Obligations.AlarmInvIsKept :=
  ⟨fun _ _ => alarmInv_step, fun _ _ => placeInv_step⟩

end Sys2Proof.Machine
end
